-- ==== Sys2Proof/Word.lean ====
section
/-! DEFINITION. The plain word types and the identifiers of the AP-3264 (00_scope.md sections 3.2 and 3.10, Table 0-5). -/

namespace Sys2Proof

/-- One byte of the control link or of the clip memory. -/
abbrev Byte := BitVec 8

/-- One audio sample: a signed 16-bit linear integer (section 3.2). -/
abbrev Sample := BitVec 16

/-- A block of audio, oldest sample first; a whole block holds 64 samples (section 3.2). -/
abbrev Block := List Sample

/-- Positions P0 to P31; position p uses headset port p. -/
abbrev PosId := Fin 32

/-- Legs L0 to L63; leg n uses highway channel n. -/
abbrev LegId := Fin 64

/-- Hold plans H0 to H15. -/
abbrev PlanId := Fin 16

/-- Playback engines PE0 to PE23. -/
abbrev EngId := Fin 24

/-- Clips C0 to C255. -/
abbrev ClipId := Fin 256

/-- Program channels PG0 to PG3. -/
abbrev ChanId := Fin 4

/-- One record for each of `n` identifiers of a kind. -/
abbrev Table (α : Type) (n : Nat) := Vector α n

end Sys2Proof
end

