-- ==== Sys2Proof/Syntax.lean ====
section
/-! DEFINITION. The commands of the AP-3264: one constructor of `Instr` for each row of spec/opcode_table.json, with the fields that
the manual gives the request (in the order and with the widths of R184) or the inputs that the event brings from outside. -/

namespace Sys2Proof

/-- One value for each of the four headset buttons (R1). -/
structure Buttons (α : Type) where
  mute : α
  volUp : α
  volDown : α
  talk : α
  deriving DecidableEq, Repr

/-- An up-frame as it arrives: 16 samples in time order, the control slot (true: pressed), the parity bit (R1). -/
structure UpFrame where
  samples : List Sample
  buttons : Buttons Bool
  parity : Bool
  deriving DecidableEq, Repr

/-- What one highway frame brings: a receive sample for each of the 64 channels and a sample for each of the 4 program channels
(section 2.1, R34). -/
structure HighwayFrame where
  receive : List Sample
  program : List Sample
  deriving DecidableEq, Repr

/-- The payload of a request as R184 reads it. `malformed` stands for a payload whose length or a presence byte does not match the
request's fields, which R188 answers with LENGTH. -/
inductive Payload (α : Type) where
  | fields (f : α)
  | malformed
  deriving DecidableEq, Repr

/-- The configuration record as POSITION_CONFIG carries it, in the order of Table 1-4, before clamping (R24). Gain values have 15
bits of meaning (R184). Flags and enumerated fields are bytes that hold the place of the value. -/
structure RecordFields where
  earVolume : Nat
  sidetone : Nat
  limiterLevel : Nat
  limiterRelease : Nat
  nsEnable : Nat
  nsRatio : Nat
  nsHangover : Nat
  nsAttenuation : Nat
  nsAttack : Nat
  nsRelease : Nat
  whisperGap : Nat
  whisperDuck : Nat
  whisperDeadline : Nat
  fallback : Option Nat
  muteMode : Nat
  volumeMode : Nat
  pushToTalk : Nat
  qualification : Nat
  recovery : Nat
  parityThreshold : Nat
  hysteresis : Nat
  deriving DecidableEq, Repr

/-- Fields of POSITION_CONFIG (R24). -/
structure ConfigFields where
  position : Nat
  record : RecordFields
  deriving DecidableEq, Repr

/-- Fields of POSITION_MUTE (R22): the flag byte is 0 for on and 1 for off. -/
structure MuteFields where
  position : Nat
  value : Nat
  deriving DecidableEq, Repr

/-- A delay mode as sent (R36, R114): AUTO, FIXED with its delay, or a byte that names neither. -/
inductive DelayField where
  | auto
  | fixed (d : Nat)
  | other (kind : Nat)
  deriving DecidableEq, Repr

/-- Fields of LEG_OPEN (R36). -/
structure OpenFields where
  leg : Nat
  tail : Nat
  delay : DelayField
  deriving DecidableEq, Repr

/-- Fields of LEG_HOLD (R37). -/
structure HoldFields where
  leg : Nat
  plan : Option Nat
  deriving DecidableEq, Repr

/-- Fields of LEG_CONNECT (R40, R41). -/
structure ConnectFields where
  leg : Nat
  position : Nat
  clip : Option Nat
  deriving DecidableEq, Repr

/-- Fields of EC_CONFIG (R114); the action byte is 0 NONE, 1 RESET, 2 FREEZE, 3 UNFREEZE. -/
structure EcFields where
  leg : Nat
  tail : Option Nat
  delay : Option DelayField
  nlp : Option Nat
  action : Nat
  deriving DecidableEq, Repr

/-- A hold plan's background as sent (Table 7-1): absent, SHARED_CLIP, PROGRAM, or a byte that names none of them. -/
inductive BackgroundField where
  | absent
  | shared (clip : Nat)
  | program (channel : Nat)
  | other (kind : Nat)
  deriving DecidableEq, Repr

/-- Fields of PLAN_SET, from the plan to the fallback program (R147); the resume byte is 0 for set and 1 for clear. -/
structure PlanFields where
  plan : Nat
  background : BackgroundField
  musicLevel : Nat
  greeting : Option Nat
  announcements : List Nat
  firstDelay : Nat
  interval : Nat
  duck : Nat
  resume : Nat
  fallback : Option Nat
  deriving DecidableEq, Repr

/-- Fields of CLIP_CREATE (R123). -/
structure CreateFields where
  clip : Nat
  length : Nat
  loopStart : Option Nat
  deriving DecidableEq, Repr

/-- Fields of CLIP_DATA (R124). -/
structure DataFields where
  clip : Nat
  offset : Nat
  samples : List Sample
  deriving DecidableEq, Repr

/-- Fields of CLIP_CLOSE (R126). -/
structure CloseFields where
  clip : Nat
  sum : Nat
  deriving DecidableEq, Repr

/-- Fields of WHISPER_PROMPT (R165); the stop-on-speech byte is 0 for set and 1 for clear. -/
structure PromptFields where
  position : Nat
  clip : Nat
  stopOnSpeech : Nat
  hostTag : Nat
  deriving DecidableEq, Repr

/-- Fields of SUPERVISE (R178); the mode byte is 0 MONITOR, 1 COACH, 2 BARGE. -/
structure SuperviseFields where
  supervisor : Nat
  agent : Nat
  mode : Nat
  deriving DecidableEq, Repr

/-- The commands: one constructor for each row of spec/opcode_table.json. A host request carries the tag of its frame and its payload;
an event carries the block it falls on and what it brings from outside the part. -/
inductive Instr where
  /-- The reset input (R195). -/
  | hardwareReset
  /-- The last byte of the DEVICE_RESET reply is clocked out (R194). -/
  | softReset
  /-- PORT_ENABLE(position) (R3). -/
  | portEnable (tag : Byte) (q : Payload Nat)
  /-- PORT_DISABLE(position) (R3). -/
  | portDisable (tag : Byte) (q : Payload Nat)
  /-- POSITION_CONFIG(position, record) (R24). -/
  | positionConfig (tag : Byte) (q : Payload ConfigFields)
  /-- POSITION_MUTE(position, on or off) (R22). -/
  | positionMute (tag : Byte) (q : Payload MuteFields)
  /-- POSITION_STATUS(position) (R26). -/
  | positionStatus (tag : Byte) (q : Payload Nat)
  /-- POSITION_STATS(position) (R27). -/
  | positionStats (tag : Byte) (q : Payload Nat)
  /-- An up-frame arrives at port p, at a time of the process clock (R1, R6). -/
  | upFrame (p : PosId) (frame : UpFrame) (time : Nat)
  /-- An expected frame time of port p at which a down-frame is due (R2). -/
  | downFrame (p : PosId)
  /-- An expected frame time of port p passes with no up-frame starting (R9). -/
  | expectedFrameMissed (p : PosId)
  /-- The expected frame time that brings port p's missing-frame count to 4 (R9). -/
  | lockLoss (p : PosId)
  /-- Port p's block event, with the presence line as sampled (R4 to R13). -/
  | portBlockEvent (p : PosId) (presence : Bool)
  /-- The block event of port p whose sampling brings the insertion count to 12 (R4). -/
  | headsetInserted (p : PosId)
  /-- The block event that ends port p's DETECTED (R4). -/
  | acquisitionStart (p : PosId) (presence : Bool)
  /-- The block event of port p whose sampling brings the unplug count to 2 (R5). -/
  | unplug (p : PosId)
  /-- The block event of port p at which the qualification count reaches Q (R8). -/
  | portLive (p : PosId) (presence : Bool)
  /-- The block event of port p at which the recovery window count reaches R (R11). -/
  | recoveryWindowExpiry (p : PosId) (presence : Bool)
  /-- A process period begins (R31). -/
  | periodStart
  /-- Two expected frame times pass with no sync pulse (R30). -/
  | syncLost
  /-- The highway frame whose pulse brings the pulse count to 16 (R30). -/
  | syncRegained (frame : HighwayFrame)
  /-- LEG_OPEN(leg, tail, delay mode) (R36). -/
  | legOpen (tag : Byte) (q : Payload OpenFields)
  /-- LEG_HOLD(leg, plan) (R37, R38). -/
  | legHold (tag : Byte) (q : Payload HoldFields)
  /-- LEG_CONNECT(leg, position, whisper clip) (R40, R41). -/
  | legConnect (tag : Byte) (q : Payload ConnectFields)
  /-- LEG_CANCEL_CONNECT(leg) (R43). -/
  | legCancelConnect (tag : Byte) (q : Payload Nat)
  /-- LEG_CLOSE(leg) (R44). -/
  | legClose (tag : Byte) (q : Payload Nat)
  /-- LEG_STATUS(leg) (R48). -/
  | legStatus (tag : Byte) (q : Payload Nat)
  /-- The block event of EAR(p) (R50). -/
  | earBlockEvent (p : PosId)
  /-- The block event of SEND(l) (R69). -/
  | sendBlockEvent (l : LegId)
  /-- The block event of port p whose non-speech block brings the hangover to its end (R81). -/
  | hangoverEnd (p : PosId) (presence : Bool)
  /-- The block event of leg l's echo canceller (R103). -/
  | ecBlockEvent (l : LegId)
  /-- The canceller block event that completes a search window (R105). -/
  | searchWindowEnd (l : LegId)
  /-- The canceller block event that completes an ERLE window (R110). -/
  | erleWindowEnd (l : LegId)
  /-- EC_CONFIG(leg, tail, delay mode, NLP attenuation, action) (R114). -/
  | ecConfig (tag : Byte) (q : Payload EcFields)
  /-- PLAN_SET (R147). -/
  | planSet (tag : Byte) (q : Payload PlanFields)
  /-- PLAN_DELETE(plan) (R148). -/
  | planDelete (tag : Byte) (q : Payload Nat)
  /-- PLAN_INFO(plan) (R149). -/
  | planInfo (tag : Byte) (q : Payload Nat)
  /-- The block event of leg l's hold session (R157). -/
  | announcementStep (l : LegId)
  /-- CLIP_CREATE(id, length, loop start) (R123). -/
  | clipCreate (tag : Byte) (q : Payload CreateFields)
  /-- CLIP_DATA(id, offset, samples) (R124). -/
  | clipData (tag : Byte) (q : Payload DataFields)
  /-- CLIP_CLOSE(id, sum) (R126). -/
  | clipClose (tag : Byte) (q : Payload CloseFields)
  /-- CLIP_DELETE(id) (R127). -/
  | clipDelete (tag : Byte) (q : Payload Nat)
  /-- CLIP_INFO(id) (R129). -/
  | clipInfo (tag : Byte) (q : Payload Nat)
  /-- MEMORY_RELEASE (R133). -/
  | memoryRelease (tag : Byte) (q : Payload Unit)
  /-- MEMORY_RECLAIM (R135). -/
  | memoryReclaim (tag : Byte) (q : Payload Unit)
  /-- The scan reads its next stored entry (R136): the bytes found where the line card has rewritten the flash, or none where it
  holds what the part's image of it holds. -/
  | scanEntryRead (found : Option (List Byte))
  /-- The block fetch in progress completes (R138), with the samples read where they differ from the image. -/
  | fetchComplete (found : Option (List Sample))
  /-- The block program in progress completes (R125), with the samples read back where they differ from those programmed. -/
  | programComplete (found : Option (List Sample))
  /-- The slab erase in progress completes (R131). -/
  | eraseComplete
  /-- The directory update in progress completes (R132). -/
  | directoryUpdateComplete
  /-- The block event of playback engine e (R139). -/
  | engineBlockEvent (e : EngId)
  /-- WHISPER_PROMPT(position, clip, stop-on-speech flag, host tag) (R165). -/
  | whisperPrompt (tag : Byte) (q : Payload PromptFields)
  /-- WHISPER_FLUSH(position) (R173). -/
  | whisperFlush (tag : Byte) (q : Payload Nat)
  /-- The block event of position p's whisper queue, while a gap runs (R168). -/
  | gapEnd (p : PosId)
  /-- The block event of position p's whisper queue, while the head request waits (R169). -/
  | whisperDeadlineExpiry (p : PosId)
  /-- SUPERVISE(supervisor, agent, mode) (R178). -/
  | supervise (tag : Byte) (q : Payload SuperviseFields)
  /-- SUPERVISE_END(supervisor) (R180). -/
  | superviseEnd (tag : Byte) (q : Payload Nat)
  /-- The last check byte of a good request arrives, the last of the host's bytes given (R182, R183, R186). -/
  | requestFrameReceived (bytes : List Byte)
  /-- The last byte of a frame that is not a good request arrives, the last of the host's bytes given. The bytes of an unfinished frame,
  and fill outside a frame, may be brought in this way too (R182, R185, R186). -/
  | frameDiscarded (bytes : List Byte)
  /-- The receiver's first byte or block event after a frame's time has run out (R185). -/
  | frameTimeout
  /-- The handler takes a request whose code names none (R188). -/
  | unknown (tag : Byte) (code : Byte)
  /-- The last byte of the message being sent is clocked out (R192). -/
  | messageSent
  /-- DEVICE_STATUS (R193). -/
  | deviceStatus (tag : Byte) (q : Payload Unit)
  /-- DEVICE_RESET (R194). -/
  | deviceReset (tag : Byte) (q : Payload Unit)
  /-- A highway frame arrives with its sync pulse (R30); `wellPlaced` says that the pulse came one frame time after the one before,
  within the tolerance. -/
  | highwayFrame (frame : HighwayFrame) (wellPlaced : Bool)
  /-- The host clocks a byte 0xA5: in HUNT it begins a frame (R182, R185). -/
  | startMarker
  deriving DecidableEq, Repr

end Sys2Proof
end

