-- ==== Sys2Proof/Decode.lean ====
section
/-! DEFINITION. Reading a command from a word of the opcode table. spec/opcode_table.json gives no row any bits: the AP-3264 takes
commands and decodes no instruction words, so no word spells a command. (Request frames are read in Machine/Operands.lean and
Machine/Link.lean, from R183 and R184.) -/

namespace Sys2Proof

/-- The command that a word spells by the table's bits: none, for no row has bits. -/
def decodeTableWord (_nbits _w : Nat) : Option Instr := none

end Sys2Proof
end

