-- ==== Sys2Proof/Config.lean ====
section
/-! DEFINITION. The constants that the reference manual fixes for the part, each with the rule that gives it, and the one value that it
leaves open: what an operation on the flash that was cut off leaves behind. -/

namespace Sys2Proof.Config

/-- Samples in a block (section 3.2). -/
def blockSamples : Nat := 64

/-- Samples in one link frame (R1, R2). -/
def frameSamples : Nat := 16

/-- Places of one elastic buffer (R12). -/
def elasticPlaces : Nat := 192

/-- The fill that ends the priming of the uplink buffer (R13). -/
def primingFill : Nat := 128

/-- The level at or above which a buffer slips down (R13, R14). -/
def slipHigh : Nat := 160

/-- The level at or below which a buffer slips up (R13, R14). -/
def slipLow : Nat := 32

/-- Zero samples loaded into the downlink buffer on entry to LIVE (R8). -/
def downlinkLoad : Nat := 96

/-- Consecutive asserted presence samplings that make an insertion (R4). -/
def insertionBlocks : Nat := 12

/-- Consecutive deasserted presence samplings that make an unplug (R5). -/
def unplugBlocks : Nat := 2

/-- Up-frames in one frequency measurement (R6). -/
def measureFrames : Nat := 256

/-- Largest offset, in ppm, of a measurement of a qualifying pair (R6). -/
def ppmLimit : Int := 300

/-- Units of the process clock in one frame of 1 ms, for the arrival times of up-frames.
DESIGN CHOICE (log 7): nanoseconds; the manual names no unit for the timing of R6. -/
def clockUnitsPerFrame : Nat := 1000000

/-- Missing frames that make a lock loss (R9). -/
def missingLimit : Nat := 4

/-- Good frames that change a debounced button (R18). -/
def debounceFrames : Nat := 4

/-- Well-placed pulses that regain highway sync (R30). -/
def syncPulses : Nat := 16

/-- Feeds in one feed list (R51). -/
def feedPlaces : Nat := 8

/-- Gain value of unity, 0 dB (section 3.4). -/
def unity : Nat := 16384

/-- Ramp step of every feed, per sample (R51). -/
def rampStep : Nat := 16

/-- Blocks between two shock reports (R73). -/
def shockHoldoff : Nat := 250

/-- Tap segments of the pool (R90). -/
def segments : Nat := 512

/-- Taps in one segment (R91). -/
def segmentTaps : Nat := 128

/-- Largest tail, in segments, and largest segment list (R36, R90). -/
def maxTail : Nat := 16

/-- Largest fixed delay and bulk delay, in blocks (R36, R104). -/
def maxDelay : Nat := 32

/-- Send blocks in a reference history (R98). -/
def historyBlocks : Nat := 67

/-- Settle blocks after a reference change notice (R101). -/
def settleBlocks : Nat := 25

/-- Gap blocks after an invalid receive block (R102). -/
def gapBlocks : Nat := 64

/-- Blocks for which a double-talk detection holds (R100). -/
def doubleTalkBlocks : Nat := 8

/-- Blocks of a search window (R105). -/
def searchBlocks : Nat := 250

/-- Counted blocks that make a search window succeed (R105). -/
def searchCounted : Nat := 50

/-- Failed search windows that end a search (R105). -/
def searchFailures : Nat := 3

/-- Blocks of an ERLE window (R109). -/
def erleBlocks : Nat := 25

/-- Qualifying blocks that make an ERLE window count (R110). -/
def erleQualifying : Nat := 10

/-- Step of the NLP gain per sample (R112). -/
def nlpStep : Nat := 64

/-- Samples held by one slab of the clip memory (section 6.1). -/
def slabSamples : Nat := 32768

/-- Bytes of one slab (section 6.1). -/
def slabBytes : Nat := 65536

/-- Slabs of the index area (Table 6-1). -/
def indexSlabs : Nat := 4

/-- Slabs of the clip memory (section 6.1). -/
def slabs : Nat := 1024

/-- Largest length of a clip, in samples (Table 6-2). -/
def maxClip : Nat := 2097152

/-- What the byte at an address reads as once the n-th operation on the flash to be cut off has left it unfinished: an abandoned erase, for
one, leaves its slab partly erased. R128 gives no contents, so the byte is a free value: no proof can see what it is (log 41). -/
opaque unfinished (n address : Nat) : Byte

/-- Bytes between two stored directory entries (R136). -/
def entryStride : Nat := 1024

/-- Bytes of a stored directory entry that carry a field (Table 6-8). -/
def entryBytes : Nat := 146

/-- Blocks of a prefetch buffer (R137). -/
def prefetchBlocks : Nat := 4

/-- Fall of the stop-fade gain per sample (R141). -/
def fadeStep : Nat := 256

/-- Data messages of the write buffer (R122). -/
def writeMessages : Nat := 2

/-- Samples of one data message (R124). -/
def dataSamples : Nat := 480

/-- Entries of a whisper queue (R164). -/
def whisperEntries : Nat := 4

/-- Clips of an announcement list (Table 7-1). -/
def announcements : Nat := 8

/-- Reply places (R186, R190). -/
def replyPlaces : Nat := 8

/-- Requests of the inbound buffer (R186). -/
def bufferRequests : Nat := 4

/-- Reports of the report queue (R191). -/
def reportPlaces : Nat := 32

/-- Largest payload of a frame, in bytes (Table 9-1). -/
def maxPayload : Nat := 1020

/-- Periods within which a frame is finished (R185). -/
def frameTimeout : Nat := 250

/-- Start marker of a frame (Table 9-1). -/
def startMarker : Byte := 0xA5

/-- The byte that the part sends while it sends no message (R182). -/
def idleFill : Byte := 0xFF

/-- The byte that the host sends as fill of its own in MESSAGE_SENT and SOFT_RESET; R182 lets it be any but 0xA5.
DESIGN CHOICE (log 36). -/
def hostFill : Byte := 0xFF

/-- Vendor code of the identity (R184). -/
def vendorCode : Nat := 0x5352

/-- Part code of the identity (R184). -/
def partCode : Nat := 3264

/-- Revision number of the identity (R184). -/
def revision : Nat := 1

/-- The most internal happenings that one command may set off.
DESIGN CHOICE (log 9): a bound far above what 24 engines, 112 requesters and 128 whisper entries can set off in one event, there so
that the chain of consequences is a structural recursion. -/
def cascadeLimit : Nat := 4096

end Sys2Proof.Config
end

