-- ==== Sys2Proof/Machine/State.lean ====
section
/-! DEFINITION. The state of the AP-3264 as plain data: every register, buffer, queue, counter, mode and pin that the reference manual
gives the part, block by block, and `State.reset`, the part right after hardware reset. -/

namespace Sys2Proof.Machine

/-! ## Positions and headset ports (chapter 1) -/

/-- The seven port states (Table 1-1). -/
inductive PortState where
  | disabled | absent | detected | acquiring | qualifying | live | lost
  deriving DecidableEq, Repr

/-- What the MUTE button does (R19). -/
inductive MuteMode where
  | toggle | push | off
  deriving DecidableEq, Repr

/-- What the volume buttons do (R20). -/
inductive VolumeMode where
  | localVolume | reportOnly
  deriving DecidableEq, Repr

/-- The position configuration record as stored, after clamping (Table 1-4). -/
structure PositionConfig where
  earVolume : Nat
  sidetone : Nat
  limiterLevel : Nat
  limiterRelease : Nat
  nsEnable : Bool
  nsRatio : Nat
  nsHangover : Nat
  nsAttenuation : Nat
  nsAttack : Nat
  nsRelease : Nat
  whisperGap : Nat
  whisperDuck : Nat
  whisperDeadline : Nat
  fallback : Option PlanId
  muteMode : MuteMode
  volumeMode : VolumeMode
  pushToTalk : Bool
  qualification : Nat
  recovery : Nat
  parityThreshold : Nat
  hysteresis : Nat
  deriving DecidableEq, Repr

/-- The defaults of Table 1-4 (R24). -/
def PositionConfig.default : PositionConfig where
  earVolume := 16384
  sidetone := 1024
  limiterLevel := 8192
  limiterRelease := 1
  nsEnable := true
  nsRatio := 8
  nsHangover := 50
  nsAttenuation := 2048
  nsAttack := 256
  nsRelease := 8
  whisperGap := 50
  whisperDuck := 4096
  whisperDeadline := 125
  fallback := none
  muteMode := .toggle
  volumeMode := .localVolume
  pushToTalk := false
  qualification := 25
  recovery := 250
  parityThreshold := 32
  hysteresis := 20

/-- One elastic buffer, oldest sample first, with its three 16-bit saturating counts (R12). -/
structure Elastic where
  samples : List Sample
  slips : Nat
  underruns : Nat
  overruns : Nat
  deriving DecidableEq, Repr

/-- An empty buffer with its counts at 0 (R3). -/
def Elastic.empty : Elastic := ⟨[], 0, 0, 0⟩

/-- A button's debounced state and the run of good frames that show it in the other state (R18). -/
structure Debounce where
  pressed : Bool
  run : Nat
  deriving DecidableEq, Repr

/-- Every button released with no run in progress (R8, R18). -/
def Debounce.released : Debounce := ⟨false, 0⟩

/-- The interval being timed for the frequency measurement: when its opening frame arrived and the frames counted after it (R6). -/
structure Interval where
  openedAt : Nat
  frames : Nat
  deriving DecidableEq, Repr

/-- A down-frame: 16 ear samples, the two lamps and the parity bit (R2). -/
structure DownFrame where
  samples : List Sample
  muteLamp : Bool
  busyLamp : Bool
  parity : Bool
  deriving DecidableEq, Repr

/-- A headset port (chapter 1). -/
structure Port where
  /-- The port state (R3). -/
  state : PortState
  /-- The presence line as last sampled (R26). -/
  presence : Bool
  /-- Consecutive asserted samplings in ABSENT (R4). -/
  insertCount : Nat
  /-- Consecutive deasserted samplings (R5). -/
  unplugCount : Nat
  /-- The count of a running recovery window (R10), none when no window runs. -/
  window : Option Nat
  /-- Block events counted in QUALIFYING (R8). -/
  qualCount : Nat
  /-- The missing-frame count (R9). -/
  missing : Nat
  /-- The frame timing: the arrival that last re-aligned it (R9). -/
  timing : Option Nat
  /-- An up-frame has arrived since the last block event (R7). -/
  frameSeen : Bool
  /-- The no-frames indication (R7). -/
  noFrames : Bool
  /-- The rate-fault flag of the acquisition (R7). -/
  rateFault : Bool
  /-- The interval being measured (R6). -/
  interval : Option Interval
  /-- The measurement before, in the same acquisition (R6). -/
  previous : Option Int
  /-- Whether a measurement is valid in the current acquisition (R26). -/
  measured : Bool
  /-- The last measured offset in ppm (R6, R26). -/
  lastOffset : Int
  /-- The uplink elastic buffer (R12). -/
  uplink : Elastic
  /-- The uplink buffer is priming (R13). -/
  priming : Bool
  /-- The downlink elastic buffer (R14). -/
  downlink : Elastic
  /-- The parity count, 16 bits, saturating (R17). -/
  parityCount : Nat
  /-- The parity alert flag (R17). -/
  parityAlert : Bool
  /-- Consecutive bad frames of the run (R16). -/
  badRun : Nat
  /-- The samples of the last good frame since entry to LIVE (R16). -/
  lastGood : Option (List Sample)
  /-- The debounced buttons (R18). -/
  buttons : Buttons Debounce
  /-- The model's record of the link's output: the latest down-frame (R2). -/
  downFrame : Option DownFrame
  deriving DecidableEq, Repr

/-- A port after hardware reset (R3, Table 1-5). -/
def Port.reset : Port where
  state := .absent
  presence := false
  insertCount := 0
  unplugCount := 0
  window := none
  qualCount := 0
  missing := 0
  timing := none
  frameSeen := false
  noFrames := false
  rateFault := false
  interval := none
  previous := none
  measured := false
  lastOffset := 0
  uplink := .empty
  priming := false
  downlink := .empty
  parityCount := 0
  parityAlert := false
  badRun := 0
  lastGood := none
  buttons := ⟨.released, .released, .released, .released⟩
  downFrame := none

/-- The voice activity states (Table 4-1). -/
inductive Vad where
  | quiet | speech | hangover
  deriving DecidableEq, Repr

/-- A noise suppressor (Table 4-1). -/
structure Suppressor where
  floor : Nat
  vad : Vad
  hangover : Nat
  gain : Nat
  deriving DecidableEq, Repr

/-- The initial values of Table 4-1 (R75, R84). -/
def Suppressor.initial : Suppressor := ⟨1024, .quiet, 0, 16384⟩

/-- An acoustic-shock limiter: its gain G, the shock event count and the report holdoff count (R71). -/
structure Limiter where
  gain : Nat
  shocks : Nat
  holdoff : Nat
  deriving DecidableEq, Repr

/-- The limiter after hardware reset (R71, R73). -/
def Limiter.reset : Limiter := ⟨16384, 0, 0⟩

/-- Supervision modes (Table 8-4). -/
inductive SuperMode where
  | monitor | coach | barge
  deriving DecidableEq, Repr

/-- A supervision record, kept by the supervisor's position (R177). -/
structure Supervision where
  agent : PosId
  mode : SuperMode
  deriving DecidableEq, Repr

/-- The two kinds of whisper entry with the fields that only one kind has (Table 8-1). -/
inductive WhisperKind where
  | call (leg : LegId)
  | prompt (stopOnSpeech : Bool) (tag : Nat)
  deriving DecidableEq, Repr

/-- A whisper queue entry (Table 8-1). -/
structure WhisperEntry where
  kind : WhisperKind
  clip : ClipId
  begun : Bool
  deriving DecidableEq, Repr

/-- The head request: none, waiting with its deadline count, or granted with its engine (R164). -/
inductive HeadRequest where
  | none
  | waiting (deadline : Nat)
  | granted (e : EngId)
  deriving DecidableEq, Repr

/-- A whisper queue, head first (R164). -/
structure WhisperQueue where
  entries : List WhisperEntry
  head : HeadRequest
  gap : Option Nat
  detached : Option EngId
  deriving DecidableEq, Repr

/-- An empty and idle queue (R164). -/
def WhisperQueue.empty : WhisperQueue := ⟨[], .none, none, none⟩

/-- A position (Table 0-1): its port, configuration, mute flag, ear volume, suppressor, limiter, leg, supervision and queue. -/
structure Position where
  port : Port
  config : PositionConfig
  /-- The mute flag (R22). -/
  mute : Bool
  /-- The current ear volume (R20, R24). -/
  earVolume : Nat
  ns : Suppressor
  /-- The voice activity state of the period before (R85). -/
  vadBefore : Vad
  limiter : Limiter
  /-- The attached or connecting leg (R35). -/
  leg : Option LegId
  supervision : Option Supervision
  whisper : WhisperQueue
  deriving DecidableEq, Repr

/-- A position after hardware reset. -/
def Position.reset : Position where
  port := .reset
  config := .default
  mute := false
  earVolume := 16384
  ns := .initial
  vadBefore := .quiet
  limiter := .reset
  leg := none
  supervision := none
  whisper := .empty

/-! ## The trunk highway and the sources (chapter 2) -/

/-- The highway interface states (Table 2-1). -/
inductive HighwayState where
  | inSync | holdover
  deriving DecidableEq, Repr

/-- The highway interface and the process clock (R29 to R34). -/
structure Highway where
  state : HighwayState
  /-- Consecutive well-placed pulses counted in HOLDOVER (R30). -/
  pulses : Nat
  /-- The 32-bit period count (R31). -/
  period : BitVec 32
  /-- The frames of the period in progress, newest first (R29, R34). -/
  received : List HighwayFrame
  /-- The interface has been IN_SYNC throughout the period in progress so far (R29). -/
  inSyncSoFar : Bool
  /-- The receive block of each leg for the period in progress (R29). -/
  receive : Table Block 64
  /-- The validity mark of the receive blocks of the period in progress (R29). -/
  valid : Bool
  /-- The send block of each leg that is being transmitted in the period in progress (R33). -/
  sending : Table Block 64
  /-- The send block of each leg computed in the period in progress (R33). -/
  computed : Table Block 64
  /-- The model's record of the highway's output: the 64 send samples of the latest highway frame (R33). -/
  sendPins : List Sample
  deriving DecidableEq, Repr

/-- A block of 64 zeros. -/
def zeroBlock : Block := List.replicate 64 0

/-- The highway interface and clock after hardware reset (R30, R31, R49). -/
def Highway.reset : Highway where
  state := .holdover
  pulses := 0
  period := 0
  received := []
  inSyncSoFar := false
  receive := Vector.replicate 64 zeroBlock
  valid := false
  sending := Vector.replicate 64 zeroBlock
  computed := Vector.replicate 64 zeroBlock
  sendPins := zeroBlock

/-- The blocks of every source for one period (R32). -/
structure Sources where
  mic : Table Block 32
  rx : Table Block 64
  program : Table Block 4
  engine : Table Block 24
  deriving DecidableEq, Repr

/-- Zero blocks for every source (R32). -/
def Sources.silent : Sources where
  mic := Vector.replicate 32 zeroBlock
  rx := Vector.replicate 64 zeroBlock
  program := Vector.replicate 4 zeroBlock
  engine := Vector.replicate 24 zeroBlock

/-! ## Echo cancellers and the tap pool (chapter 5) -/

/-- Why a canceller is OFF (Table 5-2). -/
inductive OffCause where
  | idle | disabled | noTaps
  deriving DecidableEq, Repr

/-- Canceller states (Table 5-2). -/
inductive EcState where
  | off (cause : OffCause)
  | search | converging | converged | frozen
  deriving DecidableEq, Repr

/-- The delay mode setting (R36). -/
inductive DelayMode where
  | auto | fixed
  deriving DecidableEq, Repr

/-- Search progress (R104, R105); `sums` holds C[0] to C[32]. -/
structure SearchProgress where
  blocks : Nat
  counted : Nat
  failed : Nat
  sums : List Nat
  deriving DecidableEq, Repr

/-- No progress (Table 5-3). -/
def SearchProgress.clear : SearchProgress := ⟨0, 0, 0, List.replicate 33 0⟩

/-- The ERLE window (R109). -/
structure ErleWindow where
  blocks : Nat
  qualifying : Nat
  srx : Nat
  se : Nat
  deriving DecidableEq, Repr

/-- A fresh window. -/
def ErleWindow.clear : ErleWindow := ⟨0, 0, 0, 0⟩

/-- The statistics record of a completed window (R111). -/
structure WindowStats where
  srx : Nat
  se : Nat
  qualifying : Nat
  windows : Nat
  deriving DecidableEq, Repr

/-- The canceller record (Table 5-3). -/
structure Canceller where
  state : EcState
  /-- The segment list, in the order of the span (R91). -/
  segments : List Nat
  /-- The coefficients, 128 for each segment, Q15 (R91, R106). -/
  taps : List Sample
  mode : DelayMode
  /-- The fixed delay d (R36). -/
  fixedDelay : Nat
  /-- The bulk delay D (R97). -/
  bulkDelay : Nat
  nlpAttenuation : Nat
  nlpGain : Nat
  search : SearchProgress
  doubleTalk : Nat
  settle : Nat
  gap : Nat
  erle : ErleWindow
  goodRun : Nat
  poorRun : Nat
  /-- Windows completed since the last start point or open, 32 bits, saturating (R111). -/
  windows : Nat
  stats : Option WindowStats
  /-- The reference history, newest send block first (R98). -/
  history : List Block
  /-- The send block of the period in progress has joined the history (R98). -/
  joined : Bool
  deriving DecidableEq, Repr

/-- A canceller after hardware reset (R96, Table 5-3). -/
def Canceller.reset : Canceller where
  state := .off .idle
  segments := []
  taps := []
  mode := .auto
  fixedDelay := 0
  bulkDelay := 0
  nlpAttenuation := 1024
  nlpGain := 16384
  search := .clear
  doubleTalk := 0
  settle := 0
  gap := 0
  erle := .clear
  goodRun := 0
  poorRun := 0
  windows := 0
  stats := none
  history := List.replicate 67 zeroBlock
  joined := false

/-- An entry of the shortfall queue (R93). -/
structure Shortfall where
  leg : LegId
  owed : Nat
  deriving DecidableEq, Repr

/-- The tap pool: the free segments in rising order and the shortfall queue, oldest first (R90). -/
structure TapPool where
  free : List Nat
  queue : List Shortfall
  deriving DecidableEq, Repr

/-- The pool after either reset (R90). -/
def TapPool.reset : TapPool := ⟨List.range 512, []⟩

/-! ## Legs, hold sessions and plans (chapters 2 and 7) -/

/-- Leg states (Table 2-3). -/
inductive LegState where
  | idle | opened | held | connecting | active
  deriving DecidableEq, Repr

/-- The state a connect came from (R35). -/
inductive Origin where
  | opened | held
  deriving DecidableEq, Repr

/-- Phases of a hold session (Table 7-3). -/
inductive Phase where
  | greeting | background | announcing
  deriving DecidableEq, Repr

/-- A session's current request: the clip, the list place (none for a greeting), the engine once granted (Table 7-3). -/
structure SessionRequest where
  clip : ClipId
  place : Option Nat
  engine : Option EngId
  deriving DecidableEq, Repr

/-- A hold session (Table 7-3). -/
structure Session where
  plan : Option PlanId
  phase : Phase
  countdown : Option Nat
  nextIndex : Nat
  request : Option SessionRequest
  deriving DecidableEq, Repr

/-- A resume record (R39). -/
structure Resume where
  plan : PlanId
  index : Nat
  deriving DecidableEq, Repr

/-- A leg record (R35). -/
structure Leg where
  state : LegState
  attached : Option PosId
  origin : Option Origin
  session : Option Session
  resume : Option Resume
  last : Option PosId
  ec : Canceller
  deriving DecidableEq, Repr

/-- A leg after hardware reset (R35). -/
def Leg.reset : Leg where
  state := .idle
  attached := none
  origin := none
  session := none
  resume := none
  last := none
  ec := .reset

/-- A hold plan's background (Table 7-1). -/
inductive Background where
  | absent
  | shared (clip : ClipId)
  | program (channel : ChanId)
  deriving DecidableEq, Repr

/-- The host's fields of a plan record (Table 7-1). -/
structure PlanRecord where
  background : Background
  musicLevel : Nat
  greeting : Option ClipId
  announcements : List ClipId
  firstDelay : Nat
  interval : Nat
  duck : Nat
  resume : Bool
  fallback : Option ChanId
  deriving DecidableEq, Repr

/-- A plan: its record when it is defined, its use count and its shared stream (Table 7-1, R146). -/
structure Plan where
  record : Option PlanRecord
  useCount : Nat
  bound : Option EngId
  pending : Bool
  deriving DecidableEq, Repr

/-- An undefined plan (R146). -/
def Plan.reset : Plan := ⟨none, 0, none, false⟩

/-! ## The mix matrix (chapter 3) -/

/-- The sources a feed can read (R51). -/
inductive Source where
  | mic (p : PosId)
  | rx (l : LegId)
  | engine (e : EngId)
  | program (k : ChanId)
  deriving DecidableEq, Repr

/-- The roles of a feed (Table 3-1). -/
inductive Role where
  | caller | sidetone | agent | coach | barge | whisper | music | announce
  deriving DecidableEq, Repr

/-- A feed (R51). -/
structure Feed where
  source : Source
  role : Role
  target : Nat
  gain : Nat
  step : Nat
  fading : Bool
  deriving DecidableEq, Repr

/-! ## Clip memory, memory port and playback engines (chapter 6) -/

/-- Clip states (Table 6-3). -/
inductive ClipState where
  | empty | writing | ready | damaged | retiring
  deriving DecidableEq, Repr

/-- A working clip directory entry (Table 6-2); a length of 0 stands for an absent one. -/
structure Clip where
  state : ClipState
  length : Nat
  loopStart : Option Nat
  slabs : List Nat
  sum : BitVec 32
  useCount : Nat
  deriving DecidableEq, Repr

/-- An EMPTY entry. -/
def Clip.empty : Clip := ⟨.empty, 0, none, [], 0, 0⟩

/-- The write context (R122). -/
structure WriteContext where
  clip : Option ClipId
  expected : Nat
  erased : Nat
  programmed : Nat
  sum : BitVec 32
  buffer : List (List Sample)
  closing : Option (BitVec 32)
  deriving DecidableEq, Repr

/-- A write context holding no clip (R122). -/
def WriteContext.empty : WriteContext := ⟨none, 0, 0, 0, 0, [], none⟩

/-- Memory port states (R130). -/
inductive PortMode where
  | owned | releasing | released | scanning
  deriving DecidableEq, Repr

/-- The memory operation in progress (Table 6-5): a fetch with the engine and the grant it belongs to; a program with its slab, sample
offset and samples, and whether the write still stands; an erase with its slab; an update with its clip and the bytes to be stored. -/
inductive MemOp where
  | fetch (e : EngId) (grant : Nat)
  | program (slab : Nat) (offset : Nat) (samples : List Sample) (stands : Bool)
  | erase (slab : Nat)
  | update (clip : ClipId) (image : List Byte)
  deriving DecidableEq, Repr

/-- The memory port (R130 to R133). -/
structure MemoryPort where
  mode : PortMode
  op : Option MemOp
  /-- The slab of a suspended erase (R131). -/
  suspended : Option Nat
  /-- Engines with a pending fetch request, oldest request first (R130). -/
  fetches : List EngId
  /-- Queued directory updates, oldest first (R132). -/
  updates : List ClipId
  deriving DecidableEq, Repr

/-- The progress of a directory scan (R136): the next entry to read and the counts for SCAN_DONE. -/
structure Scan where
  next : Nat
  ready : Nat
  damaged : Nat
  discarded : Nat
  deriving DecidableEq, Repr

/-- A scan that has read nothing. -/
def Scan.start : Scan := ⟨0, 0, 0, 0⟩

/-- Engine states (Table 6-6). -/
inductive EngineState where
  | free | priming | playing | stopping
  deriving DecidableEq, Repr

/-- The outcomes told at an engine's release or for a request (R135, R140, R141, R144). -/
inductive EngineOutcome where
  | played | stopped | preempted | interrupted | skipped
  deriving DecidableEq, Repr

/-- Requesters and owners of engines (R137, R142). -/
inductive Owner where
  | whisper (p : PosId)
  | leg (l : LegId)
  | shared (h : PlanId)
  deriving DecidableEq, Repr

/-- A prefetched block, and whether it holds the final sample of a non-looping clip (R140). -/
structure Fetched where
  samples : Block
  final : Bool
  deriving DecidableEq, Repr

/-- A playback engine record (R137). -/
structure Engine where
  state : EngineState
  owner : Option Owner
  cls : Nat
  clip : Option ClipId
  fetchPos : Nat
  loop : Bool
  buffer : List Fetched
  grant : Nat
  underruns : Nat
  fadeGain : Nat
  /-- Closing blocks output so far: in PLAYING 1 once the final sample is out and 2 once the zero block is out (R140); in STOPPING
  1 once the fade block is out and 2 once the zero block is out (R141). -/
  closing : Nat
  /-- The outcome of the stop that took the engine to STOPPING (R141). -/
  stopOutcome : EngineOutcome
  deriving DecidableEq, Repr

/-- A FREE engine (R137). -/
def Engine.idle : Engine where
  state := .free
  owner := none
  cls := 0
  clip := none
  fetchPos := 0
  loop := false
  buffer := []
  grant := 0
  underruns := 0
  fadeGain := 16384
  closing := 0
  stopOutcome := .stopped

/-- A request waiting for an engine (R142). -/
structure WaitEntry where
  owner : Owner
  clip : ClipId
  deriving DecidableEq, Repr

/-- The engine arbiter: the wait queue by class and arrival, the requests held behind a requester's own engine, the number of the
next grant, and whether requests and releases are treated as in SCANNING (R135, R142, R143). -/
structure Arbiter where
  queue : List WaitEntry
  held : List WaitEntry
  grants : Nat
  scanning : Bool
  deriving DecidableEq, Repr

/-! ## The control link (chapter 9) -/

/-- The frame receiver (R185). FRAME and CHECK carry the start time of the frame and the bytes collected of it, from kind on; CHECK is
entered with the last payload byte, or with the second length byte of a frame without payload. -/
inductive Receiver where
  | hunt
  | frame (start : BitVec 32) (bytes : List Byte)
  | check (start : BitVec 32) (bytes : List Byte)
  deriving DecidableEq, Repr

/-- A request waiting in the inbound buffer: its code, tag and payload bytes (R186). -/
structure RequestFrame where
  code : Byte
  tag : Byte
  payload : List Byte
  deriving DecidableEq, Repr

/-- Reply statuses (Table 9-2). -/
inductive Status where
  | ok | busy | range | inUse | noResource | queueFull | sequence | length | unknown | overload
  deriving DecidableEq, Repr

/-- Causes of a release sequence (Table 9-7). -/
inductive ReleaseCause where
  | unplug | linkLost | portDisabled
  deriving DecidableEq, Repr

/-- Causes of MUTE_CHANGED (Table 9-7). -/
inductive MuteCause where
  | button | host | release
  deriving DecidableEq, Repr

/-- Causes of CLIP_STATE (Table 9-7). -/
inductive ClipCause where
  | closed | abandoned | retired | discarded
  deriving DecidableEq, Repr

/-- Causes of whisper reports (Table 9-7). -/
inductive WhisperCause where
  | onset | reclaim | clip | deadline | full | flush | release
  deriving DecidableEq, Repr

/-- Whisper outcomes of CONNECT_DONE (Table 9-7). -/
inductive WhisperOutcome where
  | played | skipped | interrupted
  deriving DecidableEq, Repr

/-- Causes of LINK_ERROR (Table 9-7). -/
inductive LinkCause where
  | length | check | timeout | overrun | kind
  deriving DecidableEq, Repr

/-- The kinds of ANNOUNCE_PREEMPTED (Table 9-7). -/
inductive AnnounceKind where
  | greeting | announcement
  deriving DecidableEq, Repr

/-- What a whisper report carries: position, clip, host tag, and the cause where there is one (R170). -/
structure WhisperReport where
  position : PosId
  clip : ClipId
  tag : Nat
  cause : Option WhisperCause
  deriving DecidableEq, Repr

/-- The reports of Table 9-5 with the fields that their owners give. -/
inductive ReportBody where
  | restarted
  | linkError (cause : LinkCause) (count : Nat)
  | headsetInserted (p : PosId)
  | headsetRemoved (p : PosId)
  | rateFault (p : PosId) (offset : Int)
  | portLive (p : PosId)
  | portLost (p : PosId)
  | portRecoveryExpired (p : PosId)
  | parityAlert (p : PosId) (count : Nat)
  | muteChanged (p : PosId) (cause : MuteCause) (value : Bool)
  | volumeButton (p : PosId) (up : Bool) (volume : Nat)
  | talkButton (p : PosId) (pressed : Bool)
  | acousticShock (p : PosId) (magnitude : Nat) (count : Nat)
  | highwaySync (state : HighwayState) (period : BitVec 32)
  | legState (l : LegId) (state : LegState) (cause : ReleaseCause) (last : Option PosId) (plan : Option PlanId)
  | connectDone (l : LegId) (p : PosId) (outcome : WhisperOutcome)
  | connectAborted (l : LegId) (p : PosId)
  | ecTaps (l : LegId) (held : Nat) (owed : Nat)
  | ecState (l : LegId) (state : EcState) (delay : Nat)
  | ecSearchTimeout (l : LegId) (delay : Nat)
  | clipState (c : ClipId) (state : ClipState) (cause : ClipCause) (sum : Option (BitVec 32))
  | memoryReleased
  | scanDone (ready : Nat) (damaged : Nat) (discarded : Nat)
  | engineUnderrun (e : EngId) (owner : Option Owner) (clip : Option ClipId)
  | announcePreempted (l : LegId) (plan : Option PlanId) (clip : ClipId) (kind : AnnounceKind) (place : Option Nat)
  | whisperDone (w : WhisperReport)
  | whisperSkipped (w : WhisperReport)
  | whisperInterrupted (w : WhisperReport)
  | whisperAborted (w : WhisperReport)
  | supervisionEnded (s : PosId) (agent : PosId) (mode : SuperMode) (cause : ReleaseCause)
  deriving DecidableEq, Repr

/-- A report in its queue: the period count at its event and its fields (R191). -/
structure Report where
  period : BitVec 32
  body : ReportBody
  deriving DecidableEq, Repr

/-- A position's part in a supervision, as POSITION_STATUS shows it (R26). -/
inductive SuperView where
  | supervises (agent : PosId) (mode : SuperMode)
  | supervisedBy (supervisor : PosId) (mode : SuperMode)
  deriving DecidableEq, Repr

/-- The reply fields of POSITION_STATUS (R26). -/
structure PositionStatus where
  state : PortState
  presence : Bool
  noFrames : Bool
  lastOffset : Int
  measured : Bool
  windowLeft : Option Nat
  qualLeft : Option Nat
  buttons : Buttons Bool
  mute : Bool
  configuredVolume : Nat
  currentVolume : Nat
  config : PositionConfig
  muteLamp : Bool
  busyLamp : Bool
  leg : Option (LegId × Bool)
  supervision : Option SuperView
  whisperEntries : Nat
  vad : Vad
  parityAlert : Bool
  deriving DecidableEq, Repr

/-- The reply fields of POSITION_STATS (R27). -/
structure PositionStats where
  parityCount : Nat
  parityAlert : Bool
  uplinkSlips : Nat
  uplinkUnderruns : Nat
  uplinkOverruns : Nat
  downlinkSlips : Nat
  downlinkUnderruns : Nat
  downlinkOverruns : Nat
  shocks : Nat
  deriving DecidableEq, Repr

/-- A session's current request as LEG_STATUS shows it: clip, place, and the engine with its state once granted (R163). -/
structure RequestView where
  clip : ClipId
  place : Option Nat
  engine : Option (EngId × EngineState)
  deriving DecidableEq, Repr

/-- A hold session as LEG_STATUS shows it (R48, R163). -/
structure SessionView where
  plan : Option PlanId
  phase : Phase
  countdown : Option Nat
  nextIndex : Nat
  request : Option RequestView
  deriving DecidableEq, Repr

/-- The reply fields of LEG_STATUS (R48, R118, R163). -/
structure LegStatus where
  state : LegState
  attached : Option PosId
  origin : Option Origin
  last : Option PosId
  session : Option SessionView
  resume : Option Resume
  ecState : EcState
  held : Nat
  owed : Nat
  bulkDelay : Nat
  mode : DelayMode
  fixedDelay : Nat
  nlpAttenuation : Nat
  stats : Option WindowStats
  valid : Bool
  deriving DecidableEq, Repr

/-- The reply fields of PLAN_INFO for a defined plan (R149). -/
structure PlanInfo where
  record : PlanRecord
  useCount : Nat
  bound : Option (EngId × EngineState)
  pending : Bool
  source : Option Source
  deriving DecidableEq, Repr

/-- An engine on a clip as CLIP_INFO shows it (R129). -/
structure EngineView where
  engine : EngId
  owner : Option Owner
  state : EngineState
  underruns : Nat
  deriving DecidableEq, Repr

/-- The reply fields of CLIP_INFO (R129); `writing` holds the next expected offset, the samples programmed and the closing flag. -/
structure ClipInfo where
  entry : Clip
  writing : Option (Nat × Nat × Bool)
  engines : List EngineView
  deriving DecidableEq, Repr

/-- The reply fields of DEVICE_STATUS beside the identity (R193). -/
structure DeviceStatus where
  highway : HighwayState
  period : BitVec 32
  memory : PortMode
  freeSegments : Nat
  freeSlabs : Nat
  freeEngines : Nat
  waiting : Nat
  linkErrors : Nat
  lostReports : Nat
  deriving DecidableEq, Repr

/-- The reply fields of a request that has some (R188). -/
inductive ReplyFields where
  | none
  | positionStatus (f : PositionStatus)
  | positionStats (f : PositionStats)
  | legStatus (f : LegStatus)
  | planInfo (f : Option PlanInfo)
  | clipInfo (f : ClipInfo)
  | deviceStatus (f : DeviceStatus)
  deriving DecidableEq, Repr

/-- A reply in its queue (R188). -/
structure Reply where
  code : Byte
  tag : Byte
  status : Status
  fields : ReplyFields
  deriving DecidableEq, Repr

/-- What the part is sending: idle fill, the oldest reply, or the oldest report (R192). -/
inductive Sending where
  | fill | reply | report
  deriving DecidableEq, Repr

/-- The control link (R182 to R195). -/
structure Link where
  receiver : Receiver
  /-- The inbound request buffer, oldest first (R186). -/
  buffer : List RequestFrame
  /-- The reply queue, oldest first (R190). -/
  replies : List Reply
  /-- The report queue, oldest first (R191). -/
  reports : List Report
  sending : Sending
  /-- The request handler is paused (R188, R194). -/
  paused : Bool
  linkErrors : Nat
  lostReports : Nat
  /-- The model's record of the link's output: the bytes of the latest message sent (R192). -/
  lastSent : List Byte
  /-- The bytes of the message being sent that have been clocked out; 0 while idle fill is sent (R182). -/
  position : Nat
  /-- The output line of the link: the latest byte clocked out, idle fill 0xFF after hardware reset (R182). -/
  outByte : Byte
  deriving DecidableEq, Repr

/-- The control link after hardware reset (R195). -/
def Link.reset : Link := ⟨.hunt, [], [], [], .fill, false, 0, 0, [], 0, 0xFF⟩

/-! ## The whole part -/

/-- The state of the part, with the commands that are waiting. -/
structure State where
  /-- The commands waiting to be taken, first in, first out (the model's own). -/
  pending : List Instr
  positions : Table Position 32
  highway : Highway
  /-- The source blocks of the period in progress, as far as they have been produced (R32). -/
  sources : Sources
  /-- The source blocks of the period before, which the mix matrix reads (R32). -/
  before : Sources
  legs : Table Leg 64
  pool : TapPool
  /-- The feed lists of EAR(p), oldest feed first (R51). -/
  ears : Table (List Feed) 32
  /-- The feed lists of SEND(l), oldest feed first (R51). -/
  sends : Table (List Feed) 64
  plans : Table Plan 16
  clips : Table Clip 256
  /-- The free data slabs in rising order (R120). -/
  freeSlabs : List Nat
  write : WriteContext
  memory : MemoryPort
  scan : Scan
  /-- The part's image of the serial flash: address and byte, addresses rising, an unlisted address reading 0xFF (R136). -/
  flash : List Host.Cell
  /-- The operations on the flash cut off so far (the model's own: each leaves bytes with free contents of its own, R128, log 41). -/
  unfinishedOps : Nat
  engines : Table Engine 24
  arbiter : Arbiter
  link : Link
  deriving DecidableEq, Repr

/-- Reasons for which a command stops the part with a fault: none. The reference manual describes no fault of the part, calls no
command's behaviour undefined, and gives every command its effect or its refusal by a reply status, which is a next state. -/
inductive Fault where
  deriving DecidableEq, Repr

/-- Reasons for which the model gives a command no meaning. -/
inductive Refusal where
  /-- Raised by an arm of `exec` whose command has no meaning yet; safe, for nothing can be proved of a next state. -/
  | notModelled (mnemonic : String)
  deriving DecidableEq, Repr

/-- The outcome of a command. -/
abbrev Result := Host.Outcome State Fault Refusal

/-- The part right after hardware reset, with no command waiting and a flash that was never written. -/
def State.reset : State where
  pending := []
  positions := Vector.replicate 32 .reset
  highway := .reset
  sources := .silent
  before := .silent
  legs := Vector.replicate 64 .reset
  pool := .reset
  ears := Vector.replicate 32 []
  sends := Vector.replicate 64 []
  plans := Vector.replicate 16 .reset
  clips := Vector.replicate 256 .empty
  freeSlabs := (List.range 1020).map (· + 4)
  write := .empty
  memory := ⟨.scanning, none, none, [], []⟩
  scan := .start
  flash := []
  unfinishedOps := 0
  engines := Vector.replicate 24 .idle
  arbiter := ⟨[], [], 1, true⟩
  link := .reset

end Sys2Proof.Machine
end

