-- ==== Sys2Proof/Machine/Arith.lean ====
section
/-! DEFINITION. The arithmetic of sections 3.4 to 3.7 of 00_scope.md, and reading and writing the tables of identically numbered
records. -/

namespace Sys2Proof.Machine

/-! ## Tables -/

/-- The record of identifier `i`. -/
def tget {α : Type} {n : Nat} (t : Table α n) (i : Fin n) : α := t[i.val]

/-- The table with the record of identifier `i` replaced. -/
def tset {α : Type} {n : Nat} (t : Table α n) (i : Fin n) (x : α) : Table α n := t.set i.val x

/-- The table whose record of identifier `i` is `f i` of the old one. -/
def tmap {α β : Type} {n : Nat} (f : Fin n → α → β) (t : Table α n) : Table β n :=
  ⟨⟨(List.finRange n).map fun i => f i (tget t i)⟩, by simp⟩

/-- The identifier of a number, when there is one (section 3.10). -/
def toId (n k : Nat) : Option (Fin n) := if h : k < n then some ⟨k, h⟩ else none

/-! ## Numbers -/

/-- A value clamped to the nearer end of a range (section 3.9). -/
def clamp (lo hi x : Nat) : Nat := max lo (min hi x)

/-- Adding to a 16-bit saturating counter (section 3.7). -/
def sat16Count (n k : Nat) : Nat := min 65535 (n + k)

/-- Adding to a 32-bit saturating counter (section 3.7). -/
def sat32Count (n k : Nat) : Nat := min 4294967295 (n + k)

/-- An integer clamped to −32768..32767 (section 3.6). -/
def sat16Int (x : Int) : Int := max (-32768) (min 32767 x)

/-- A sample saturated to 16 bits (section 3.6). -/
def sat16 (x : Int) : Sample := BitVec.ofInt 16 (sat16Int x)

/-- Shifted right 14 after adding 8192: the floor (section 3.6). -/
def round14 (x : Int) : Int := (x + 8192) / 16384

/-- A sample scaled by a gain value and saturated (R70, R82, R113, R141). -/
def scale (x : Sample) (gain : Nat) : Sample := sat16 (round14 (x.toInt * (gain : Int)))

/-- A gain value scaled by a duck (R65, R66). -/
def duckGain (target duck : Nat) : Nat := (target * duck + 8192) / 16384

/-- A gain one step nearer to its target, stopping on it (R67, R112). -/
def stepToward (gain target step : Nat) : Nat :=
  if gain < target then min (gain + step) target
  else if target < gain then max (gain - step) target
  else gain

/-- The square of a sample. -/
def square (x : Sample) : Nat := x.toInt.natAbs * x.toInt.natAbs

/-- The sum of the squares of a list of samples, formed exactly. -/
def sumSquares (b : List Sample) : Nat := b.foldl (fun acc x => acc + square x) 0

/-- The energy of a block: its mean square, truncated (section 3.5). -/
def energy (b : Block) : Nat := sumSquares b / 64

/-- The peak magnitude of a list of samples (R100). -/
def peak (b : List Sample) : Nat := b.foldl (fun acc x => max acc x.toInt.natAbs) 0

/-- The number of one bits of a sample. -/
def onesOf (x : Sample) : Nat := (List.range 16).foldl (fun acc i => acc + (x.getLsbD i).toNat) 0

/-- Whether the number of one bits over samples, flags and parity bit is even (R1, R2). -/
def evenParity (samples : List Sample) (flags : List Bool) (parity : Bool) : Bool :=
  (samples.foldl (fun acc x => acc + onesOf x) 0 + flags.foldl (fun acc b => acc + b.toNat) 0 + parity.toNat) % 2 == 0

/-- A sample taken as an unsigned 16-bit word (Table 6-2). -/
def wordOf (x : Sample) : Nat := x.toNat

/-- A running sum with samples added as unsigned words, modulo 2^32 (R125). -/
def addWords (sum : BitVec 32) (samples : List Sample) : BitVec 32 :=
  samples.foldl (fun acc x => acc + BitVec.ofNat 32 (wordOf x)) sum

/-- Numbers put into a list that is in rising order (R90, R120). -/
def insertNumber (x : Nat) : List Nat → List Nat
  | [] => [x]
  | y :: ys => if x < y then x :: y :: ys else if x = y then y :: ys else y :: insertNumber x ys

/-- A set of numbers returned to a free set kept in rising order (R90, R120). -/
def returnNumbers (xs : List Nat) (free : List Nat) : List Nat := xs.foldl (fun acc x => insertNumber x acc) free

end Sys2Proof.Machine
end

