-- ==== Sys2Proof/Machine/Ops.lean ====
section
/-! DEFINITION. The named operations over State that every chapter shares: reading and changing one record, the control link's queues
(R186 to R192), the flash image (R125, R131, R132), the clip directory and free sets, and the tap pool (R90 to R95).

An AP-3264 is a block and takes no exception: a refused request answers with a status, which is a next state (R188). -/

namespace Sys2Proof.Machine

/-! ## One record -/

/-- Position p. -/
def State.pos (s : State) (p : PosId) : Position := tget s.positions p
/-- Leg l. -/
def State.leg (s : State) (l : LegId) : Leg := tget s.legs l
/-- Engine e. -/
def State.eng (s : State) (e : EngId) : Engine := tget s.engines e
/-- Clip c's working entry. -/
def State.clip (s : State) (c : ClipId) : Clip := tget s.clips c
/-- Plan h. -/
def State.plan (s : State) (h : PlanId) : Plan := tget s.plans h

/-- Position p changed by f. -/
def State.modPos (s : State) (p : PosId) (f : Position → Position) : State :=
  { s with positions := tset s.positions p (f (s.pos p)) }
/-- Leg l changed by f. -/
def State.modLeg (s : State) (l : LegId) (f : Leg → Leg) : State :=
  { s with legs := tset s.legs l (f (s.leg l)) }
/-- Engine e changed by f. -/
def State.modEng (s : State) (e : EngId) (f : Engine → Engine) : State :=
  { s with engines := tset s.engines e (f (s.eng e)) }
/-- Clip c changed by f. -/
def State.modClip (s : State) (c : ClipId) (f : Clip → Clip) : State :=
  { s with clips := tset s.clips c (f (s.clip c)) }
/-- Plan h changed by f. -/
def State.modPlan (s : State) (h : PlanId) (f : Plan → Plan) : State :=
  { s with plans := tset s.plans h (f (s.plan h)) }

/-- Port p changed by f. -/
def State.modPort (s : State) (p : PosId) (f : Port → Port) : State :=
  s.modPos p fun x => { x with port := f x.port }
/-- Position p's whisper queue changed by f. -/
def State.modWhisper (s : State) (p : PosId) (f : WhisperQueue → WhisperQueue) : State :=
  s.modPos p fun x => { x with whisper := f x.whisper }
/-- Leg l's canceller changed by f. -/
def State.modEc (s : State) (l : LegId) (f : Canceller → Canceller) : State :=
  s.modLeg l fun x => { x with ec := f x.ec }

/-! ## The outbound queues of the control link -/

/-- The choice of what to send next, made when nothing is being sent: the oldest reply, else the oldest report, else fill (R192). -/
def Link.choose (k : Link) : Link :=
  match k.sending with
  | .fill => { k with sending := if k.replies ≠ [] then .reply else if k.reports ≠ [] then .report else .fill }
  | .reply => k
  | .report => k

/-- A report placed: dropped and counted as lost when the queue holds 32 (R191). -/
def Link.placeReport (k : Link) (r : Report) : Link :=
  if Config.reportPlaces ≤ k.reports.length then { k with lostReports := sat16Count k.lostReports 1 }
  else Link.choose { k with reports := k.reports ++ [r] }

/-- A reply placed in the reply queue (R188, R190). -/
def Link.placeReply (k : Link) (r : Reply) : Link := Link.choose { k with replies := k.replies ++ [r] }

/-- Reply places taken: by replies in the queue and by requests in the buffer (R186). -/
def Link.places (k : Link) : Nat := k.replies.length + k.buffer.length

/-- A report is made: placed with the period count of its event (R191). -/
def State.report (s : State) (b : ReportBody) : State :=
  { s with link := s.link.placeReport ⟨s.highway.period, b⟩ }

/-- A link error: counted and reported with the count after the increment (R187). -/
def State.linkError (s : State) (cause : LinkCause) : State :=
  { s with link := { s.link with linkErrors := sat16Count s.link.linkErrors 1 } }.report
    (.linkError cause (sat16Count s.link.linkErrors 1))

/-! ## The flash image

The image lists only bytes other than 0xFF, addresses rising: one form for one contents. -/

/-- What a byte of the flash that was never written, or has been erased, reads as (R136; for an erased slab PRESUMED, log 5). -/
def flashBlank : Byte := 0xFF

/-- One byte of the image. -/
def flashRead : List Host.Cell → Nat → Byte
  | [], _ => flashBlank
  | (b, v) :: rest, a => if b = a then v else flashRead rest a

/-- The image with one byte written; writing the blank value takes the entry out. -/
def flashWrite : List Host.Cell → Nat → Byte → List Host.Cell
  | [], a, v => if v = flashBlank then [] else [(a, v)]
  | (b, w) :: rest, a, v =>
    if a < b then (if v = flashBlank then (b, w) :: rest else (a, v) :: (b, w) :: rest)
    else if a = b then (if v = flashBlank then rest else (a, v) :: rest)
    else (b, w) :: flashWrite rest a v

/-- The image with consecutive bytes written from an address on. -/
def flashWriteBytes (m : List Host.Cell) (a : Nat) : List Byte → List Host.Cell
  | [] => m
  | v :: vs => flashWriteBytes (flashWrite m a v) (a + 1) vs

/-- Consecutive bytes of the image. -/
def flashReadBytes (m : List Host.Cell) (a n : Nat) : List Byte := (List.range n).map fun i => flashRead m (a + i)

/-- The image with a slab erased (R131). -/
def flashErase (m : List Host.Cell) (slab : Nat) : List Host.Cell :=
  m.filter fun c => !(slab * Config.slabBytes ≤ c.1 && c.1 < (slab + 1) * Config.slabBytes)

/-- The image with the byte at each of a list of addresses taken from a rule. -/
def flashFill (m : List Host.Cell) (f : Nat → Byte) : List Nat → List Host.Cell
  | [] => m
  | a :: rest => flashWrite (flashFill m f rest) a (f a)

/-- Consecutive addresses. -/
def addressesFrom (start n : Nat) : List Nat := (List.range n).map fun i => start + i

/-- The addresses of a slab's bytes. -/
@[irreducible] def slabAddresses (slab : Nat) : List Nat := addressesFrom (slab * Config.slabBytes) Config.slabBytes

/-- The form of the image: addresses strictly rising, no entry equal to a blank byte. -/
def Memory.wf : List Host.Cell → Bool
  | [] => true
  | [c] => c.2 ≠ flashBlank
  | c :: d :: rest => c.2 ≠ flashBlank && c.1 < d.1 && Memory.wf (d :: rest)

/-- The bytes of samples, least significant byte first. DESIGN CHOICE (log 5): the manual gives no byte order for samples. -/
def sampleBytes (samples : List Sample) : List Byte :=
  samples.flatMap fun x : Sample => [BitVec.ofNat 8 x.toNat, BitVec.ofNat 8 (x.toNat / 256)]

/-- The sample stored at an address. -/
def flashSample (m : List Host.Cell) (a : Nat) : Sample := flashRead m (a + 1) ++ flashRead m a

/-- The address of sample i of a clip (R120), none when the slab list does not reach it. -/
def sampleAddress (c : Clip) (i : Nat) : Option Nat :=
  (c.slabs[i / Config.slabSamples]?).map fun slab => slab * Config.slabBytes + (i % Config.slabSamples) * 2

/-! ## The clip directory -/

/-- The slabs a length needs: the length divided by 32,768, rounded up (Table 6-2). -/
def slabsFor (length : Nat) : Nat := (length + (Config.slabSamples - 1)) / Config.slabSamples

/-- Whether the clip may start a playback (Table 6-3). -/
def State.isReady (s : State) (c : ClipId) : Bool := (s.clip c).state = .ready

/-- The entry becomes EMPTY and its slabs return to the free set (R120). -/
def State.emptyClip (s : State) (c : ClipId) : State :=
  { s with freeSlabs := returnNumbers (s.clip c).slabs s.freeSlabs }.modClip c fun _ => Clip.empty

/-! ## The memory port's choice (R130 to R133) -/

/-- The stored form of a working entry: bytes 0 to 143 of Table 6-8. A WRITING entry is written as EMPTY (R132). -/
def entryFields (c : Clip) : List Byte :=
  let kept := c.state ≠ .empty && c.state ≠ .writing
  let num (width n : Nat) : List Byte := (List.range width).map fun i => BitVec.ofNat 8 (n / 256 ^ i)
  let e := if kept then c else Clip.empty
  let code : Nat := match e.state with | .empty => 0 | .writing => 1 | .ready => 2 | .damaged => 3 | .retiring => 4
  num 1 code ++ num 1 (if e.loopStart.isSome then 1 else 0) ++ num 4 e.length ++ num 4 (e.loopStart.getD 0) ++ num 4 e.sum.toNat
    ++ num 2 e.slabs.length ++ (((e.slabs ++ List.replicate 64 0).take 64).flatMap (num 2))

/-- The sum of bytes modulo 65,536 (R136). -/
def byteSum (bytes : List Byte) : Nat := (bytes.foldl (fun acc b => acc + b.toNat) 0) % 65536

/-- A stored entry with its entry check (Table 6-8). -/
def entryImage (c : Clip) : List Byte :=
  let fields := entryFields c
  fields ++ [BitVec.ofNat 8 (byteSum fields), BitVec.ofNat 8 (byteSum fields / 256)]

/-- The samples buffered and not yet programmed, in order (R125). -/
def WriteContext.waiting (w : WriteContext) : List Sample :=
  let all := w.buffer.flatten
  all.drop (w.programmed - (w.expected - all.length))

/-- The next program block, when it is ready (R125): its slab, its sample offset and its samples. -/
def State.readyProgram (s : State) : Option (Nat × Nat × List Sample) :=
  match s.write.clip with
  | none => none
  | some c =>
    let size := min 64 ((s.clip c).length - s.write.programmed)
    let place := s.write.programmed / Config.slabSamples
    match (s.clip c).slabs[place]? with
    | none => none
    | some slab =>
      if 0 < size ∧ size ≤ s.write.waiting.length ∧ place < s.write.erased
      then some (slab, s.write.programmed % Config.slabSamples, s.write.waiting.take size) else none

/-- The slab of the write context's next erase (R123, R130). -/
def State.nextErase (s : State) : Option Nat :=
  match s.write.clip with
  | none => none
  | some c => (s.clip c).slabs[s.write.erased]?

/-- The fetch that the port takes first: an engine with 0 or 1 blocks, else any, the oldest request first (R130). -/
def State.nextFetch (s : State) : Option EngId :=
  match s.memory.fetches.find? (fun e => (s.eng e).buffer.length ≤ 1) with
  | some e => some e
  | none => s.memory.fetches.head?

/-- The next operation of an OWNED port that has none in progress, in the order of R130. -/
def State.chooseOp (s : State) : State :=
  match s.nextFetch with
  | some e => { s with memory := { s.memory with
      op := some (.fetch e (s.eng e).grant), fetches := s.memory.fetches.filter (· ≠ e) } }
  | none =>
    match s.memory.suspended with
    | some slab => { s with memory := { s.memory with op := some (.erase slab), suspended := none } }
    | none =>
      match s.memory.updates with
      | c :: rest => { s with memory := { s.memory with op := some (.update c (entryImage (s.clip c))), updates := rest } }
      | [] =>
        match s.nextErase with
        | some slab => { s with memory := { s.memory with op := some (.erase slab) } }
        | none =>
          match s.readyProgram with
          | some (slab, offset, samples) =>
            { s with memory := { s.memory with op := some (.program slab offset samples true) } }
          | none => s

/-- An erase in progress steps aside for a pending fetch (R131). -/
def State.suspendErase (s : State) : State :=
  match s.memory.op with
  | some (.erase slab) =>
    if s.memory.fetches ≠ [] then { s with memory := { s.memory with op := none, suspended := some slab } } else s
  | _ => s

/-- An operation on the flash is cut off: each byte that it was changing is left with a free value (log 41). -/
def State.leaveUnfinished (s : State) (places : List Nat) : State :=
  { s with flash := flashFill s.flash (Config.unfinished s.unfinishedOps) places, unfinishedOps := s.unfinishedOps + 1 }

/-- The slab whose erase is in progress or suspended (R131). -/
def MemoryPort.erasing (k : MemoryPort) : Option Nat :=
  match k.op with
  | some (.erase slab) => some slab
  | some (.fetch _ _) => k.suspended
  | some (.program _ _ _ _) => k.suspended
  | some (.update _ _) => k.suspended
  | none => k.suspended

/-- An erase in progress or suspended is abandoned: its slab is left partly erased, with free contents (R128, log 41). -/
def State.abandonErase (s : State) : State :=
  match s.memory.erasing with
  | some slab => s.leaveUnfinished (slabAddresses slab)
  | none => s

/-- The port settles after an event: in OWNED it starts its next operation (R130, R131); in RELEASING it runs the queued updates and
then releases the lines (R133); in RELEASED and SCANNING it starts nothing. -/
def State.settlePort (s : State) : State :=
  match s.memory.mode with
  | .owned => let t := s.suspendErase; if t.memory.op = none then t.chooseOp else t
  | .releasing =>
    if s.memory.op = none then
      match s.memory.updates with
      | c :: rest => { s with memory := { s.memory with op := some (.update c (entryImage (s.clip c))), updates := rest } }
      | [] => { s with memory := { s.memory with mode := .released } }.report .memoryReleased
    else s
  | .released => s
  | .scanning => s

/-- A directory update queued, at most one for an entry (R132). -/
def State.queueUpdate (s : State) (c : ClipId) : State :=
  if c ∈ s.memory.updates then s
  else { s with memory := { s.memory with updates := s.memory.updates ++ [c] } }.settlePort

/-! ## Fetch requests (R138) -/

/-- The engine's own fetch is in progress: it belongs to the allocation that issued it (R138). -/
def State.fetching (s : State) (e : EngId) : Bool :=
  match s.memory.op with
  | some (.fetch e' g) => e' = e && g = (s.eng e).grant
  | _ => false

/-- Clip data remains to be fetched (R138). -/
def State.dataRemains (s : State) (e : EngId) : Bool :=
  match (s.eng e).clip with
  | none => false
  | some c => (s.eng e).loop || (s.eng e).fetchPos < (s.clip c).length

/-- The engine issues a fetch request when R138 calls for one; the port does not choose yet. -/
def State.addFetch (s : State) (e : EngId) : State :=
  if ((s.eng e).state = .priming ∨ (s.eng e).state = .playing) ∧ e ∉ s.memory.fetches ∧ s.fetching e = false
      ∧ (s.eng e).buffer.length < Config.prefetchBlocks ∧ s.dataRemains e = true
  then { s with memory := { s.memory with fetches := s.memory.fetches ++ [e] } } else s

/-- The engine issues a fetch request when R138 calls for one. -/
def State.issueFetch (s : State) (e : EngId) : State := (s.addFetch e).settlePort

/-- A pending fetch request is withdrawn (R141). -/
def State.withdrawFetch (s : State) (e : EngId) : State :=
  { s with memory := { s.memory with fetches := s.memory.fetches.filter (· ≠ e) } }

/-! ## Engine feeds (R62) -/

/-- Every feed whose source is the engine is removed at once (R62). -/
def State.dropEngineFeeds (s : State) (e : EngId) : State :=
  { s with
    ears := tmap (fun _ l => l.filter fun f => f.source ≠ .engine e) s.ears
    sends := tmap (fun _ l => l.filter fun f => f.source ≠ .engine e) s.sends }

/-! ## Echo cancellers and the tap pool (chapter 5) -/

/-- A reference change notice (R101). -/
def State.notice (s : State) (l : LegId) : State := s.modEc l fun c => { c with settle := Config.settleBlocks }

/-- A start point (R97). -/
def Canceller.startPoint (c : Canceller) : Canceller :=
  match c.mode with
  | .auto => { c with
      bulkDelay := 0, search := .clear, state := .search, erle := .clear, goodRun := 0, poorRun := 0, windows := 0 }
  | .fixed => { c with
      bulkDelay := c.fixedDelay, state := .converging, erle := .clear, goodRun := 0, poorRun := 0, windows := 0 }

/-- The lowest-numbered free segments are granted to a leg, appended to its list with coefficients of 0; a leg that held none takes a
start point (R90, R91, R94, R97). -/
def State.grantSegments (s : State) (l : LegId) (n : Nat) : State :=
  let taken := s.pool.free.take n
  { s with pool := { s.pool with free := s.pool.free.drop n } }.modEc l fun c =>
    let grown := { c with
      segments := c.segments ++ taken
      taps := c.taps ++ List.replicate (Config.segmentTaps * taken.length) 0 }
    if c.segments = [] ∧ taken ≠ [] then grown.startPoint else grown

/-- The top-up pass over the shortfall queue (R94). -/
def topUp (s : State) : List Shortfall → State
  | [] => { s with pool := { s.pool with queue := [] } }
  | entry :: rest =>
    let amount := min entry.owed s.pool.free.length
    let held := (s.leg entry.leg).ec.segments.length
    let least := if held = 0 then min 2 entry.owed else 1
    if least ≤ amount ∧ 0 < amount then
      let t := (s.grantSegments entry.leg amount).report (.ecTaps entry.leg (held + amount) (entry.owed - amount))
      if entry.owed = amount then topUp t rest
      else { t with pool := { t.pool with queue := { entry with owed := entry.owed - amount } :: rest } }
    else { s with pool := { s.pool with queue := entry :: rest } }

/-- The top-up pass (R94). -/
def State.topUpPass (s : State) : State := topUp s s.pool.queue

/-- Segments a leg is still owed, 0 when it has no entry (R118). -/
def State.owed (s : State) (l : LegId) : Nat :=
  match s.pool.queue.find? (fun x => x.leg = l) with
  | some x => x.owed
  | none => 0

/-- A leg's shortfall entry leaves the queue (R93). -/
def State.dropShortfall (s : State) (l : LegId) : State :=
  { s with pool := { s.pool with queue := s.pool.queue.filter fun x => x.leg ≠ l } }

/-- A leg's shortfall set: an entry's owed count replaced in place, or a new entry appended (R93, R115). -/
def State.setShortfall (s : State) (l : LegId) (owed : Nat) : State :=
  let replaced := s.pool.queue.map fun x => if x.leg = l then { x with owed := owed } else x
  let present : Bool := s.pool.queue.any fun x => decide (x.leg = l)
  { s with pool := { s.pool with queue := if present then replaced else s.pool.queue ++ [⟨l, owed⟩] } }

/-- A canceller's list cut to its first n segments, the others returned to the free set (R91, R95). -/
def State.cutSegments (s : State) (l : LegId) (n : Nat) : State :=
  { s with pool := { s.pool with free := returnNumbers ((s.leg l).ec.segments.drop n) s.pool.free } }.modEc l fun c =>
    { c with segments := c.segments.take n, taps := c.taps.take (Config.segmentTaps * n) }

/-! ## Positions -/

/-- The supervisor of a position (R177): the position whose record names it. -/
def State.supervisorOf (s : State) (p : PosId) : Option PosId :=
  (List.finRange 32).find? fun q =>
    match (s.pos q).supervision with
    | some r => r.agent = p
    | none => false

/-- The leg ACTIVE on a position. -/
def State.activeLeg (s : State) (p : PosId) : Option LegId :=
  match (s.pos p).leg with
  | some l => if (s.leg l).state = .active then some l else none
  | none => none

/-- The position's mute flag set to a value, reported when that changes it (R19, R22, R23). -/
def State.setMute (s : State) (p : PosId) (value : Bool) (cause : MuteCause) : State :=
  if (s.pos p).mute = value then s
  else (s.modPos p fun x => { x with mute := value }).report (.muteChanged p cause value)

/-- A leg is attached to a position, on both sides, and the last position is set (R35). -/
def State.attach (s : State) (l : LegId) (p : PosId) : State :=
  (s.modLeg l fun x => { x with attached := some p, last := some p }).modPos p fun x => { x with leg := some l }

/-- A leg is detached from its position, on both sides; the last position keeps its identity (R35). -/
def State.detach (s : State) (l : LegId) : State :=
  match (s.leg l).attached with
  | some p => (s.modLeg l fun x => { x with attached := none }).modPos p fun x => { x with leg := none }
  | none => s

end Sys2Proof.Machine
end

