-- ==== Sys2Proof/Machine/Flags.lean ====
section
/-! DEFINITION. The indications that the part derives from its records: the attention output, the lamps, talk enabled, an agent talking,
and the conditions of the memory that clip requests share. -/

namespace Sys2Proof.Machine

/-- The attention output: asserted while either outbound queue holds a message (R182). -/
def State.attention (s : State) : Bool := s.link.replies ≠ [] || s.link.reports ≠ []

/-- MUTE_LAMP (R2). -/
def State.muteLamp (s : State) (p : PosId) : Bool := (s.pos p).mute

/-- BUSY_LAMP: a leg is ACTIVE or CONNECTING on the position (R2). -/
def State.busyLamp (s : State) (p : PosId) : Bool := (s.pos p).leg.isSome

/-- Talk is enabled for a supervising position (R53). -/
def State.talkEnabled (s : State) (q : PosId) : Bool :=
  !(s.pos q).config.pushToTalk || (s.pos q).port.buttons.talk.pressed

/-- The position's port is LIVE. -/
def State.isLive (s : State) (p : PosId) : Bool := (s.pos p).port.state = .live

/-- The position's agent is talking, for a reader at its block event: the voice activity state of the period before is SPEECH or
HANGOVER, the mute flag is clear, and the port is LIVE, for the agent stops counting as talking when the port leaves LIVE (R84, R86,
DEDUCED, log 28). -/
def State.talking (s : State) (p : PosId) : Bool :=
  ((s.pos p).vadBefore = .speech || (s.pos p).vadBefore = .hangover) && !(s.pos p).mute && s.isLive p

/-- The position is a supervisor (R177). -/
def State.isSupervisor (s : State) (p : PosId) : Bool := (s.pos p).supervision.isSome

/-- The position is a supervised agent (R177). -/
def State.isSupervised (s : State) (p : PosId) : Bool := (s.supervisorOf p).isSome

/-- The memory is scanning, released or being released, when clip requests but CLIP_INFO are refused with BUSY (section 6.3). -/
def State.memoryAway (s : State) : Bool := s.memory.mode ≠ .owned

/-- An engine is heard: PLAYING or STOPPING (R55, R58). -/
def State.heard (s : State) (e : EngId) : Bool := (s.eng e).state = .playing || (s.eng e).state = .stopping

/-- The engine is finishing its clip (R140). -/
def Engine.finishing (x : Engine) : Bool := x.state = .playing && 0 < x.closing

/-- The class of a requester: 0 for a whisper, 1 for a greeting or announcement, 2 for a shared stream (R137). -/
def Owner.cls : Owner → Nat
  | .whisper _ => 0
  | .leg _ => 1
  | .shared _ => 2

/-- The leg has a hold session in force (R35). -/
def State.hasSession (s : State) (l : LegId) : Bool := (s.leg l).session.isSome

end Sys2Proof.Machine
end

