-- ==== Sys2Proof/Machine/Feeds.lean ====
section
/-! DEFINITION. Feed lists: what each destination should hear (R52 to R58, Table 3-2), the re-derivation that brings a list into line
(R59, R60, R63), and the notices for a change of a leg's music source (R153). -/

namespace Sys2Proof.Machine

/-- A derived feed: source, role and gain target (Table 3-2). -/
structure Derived where
  source : Source
  role : Role
  target : Nat
  deriving DecidableEq, Repr

/-- The source that a plan's MUSIC feeds take (R57). -/
def State.planMusic (s : State) (h : PlanId) : Option Source :=
  match (s.plan h).record with
  | none => none
  | some r =>
    match r.background with
    | .absent => none
    | .program k => some (.program k)
    | .shared _ =>
      match (s.plan h).bound with
      | some e => if (s.eng e).state = .playing then some (.engine e) else r.fallback.map .program
      | none => r.fallback.map .program

/-- The plan of a leg's hold session, while the leg is HELD or CONNECTING from HELD (R57). -/
def State.sessionPlan (s : State) (l : LegId) : Option PlanId :=
  if (s.leg l).state = .held ∨ ((s.leg l).state = .connecting ∧ (s.leg l).origin = some .held) then
    match (s.leg l).session with
    | some x => x.plan
    | none => none
  else none

/-- The source of a leg's MUSIC feed (R57). -/
def State.musicSource (s : State) (l : LegId) : Option Source :=
  match s.sessionPlan l with
  | some h => s.planMusic h
  | none => none

/-- The whisper engines of a position: the head's and the detached one (R55). -/
def State.whisperEngines (s : State) (p : PosId) : List EngId :=
  (match (s.pos p).whisper.head with | .granted e => [e] | .waiting _ => [] | .none => [])
    ++ (s.pos p).whisper.detached.toList

/-- The derived set of EAR(p), in the order of Table 3-2 (R52 to R55). -/
def State.derivedEar (s : State) (p : PosId) : List Derived :=
  let sidetone : Derived := ⟨.mic p, .sidetone, (s.pos p).config.sidetone⟩
  (match s.activeLeg p with
    | some l => [⟨.rx l, .caller, Config.unity⟩, sidetone]
    | none => [])
  ++ (match s.supervisorOf p with
    | some q =>
      match (s.pos q).supervision with
      | some r => if r.mode ≠ .monitor ∧ s.talkEnabled q then [⟨.mic q, .coach, Config.unity⟩] else []
      | none => []
    | none => [])
  ++ (match (s.pos p).supervision with
    | some r => ⟨.mic r.agent, .agent, Config.unity⟩ ::
        (match s.activeLeg r.agent with
          | some l => [⟨.rx l, .caller, Config.unity⟩]
          | none => []) ++ [sidetone]
    | none => [])
  ++ ((s.whisperEngines p).filter s.heard).map fun e => ⟨.engine e, .whisper, Config.unity⟩

/-- The engines owned by a leg's greeting or announcement that are heard (R58). -/
def State.announceEngines (s : State) (l : LegId) : List EngId :=
  (List.finRange 24).filter fun e => (s.eng e).owner = some (.leg l) && s.heard e

/-- The derived set of SEND(l), in the order of Table 3-2 (R56 to R58). -/
def State.derivedSend (s : State) (l : LegId) : List Derived :=
  (match (s.leg l).state, (s.leg l).attached with
    | .active, some p => ⟨.mic p, .agent, Config.unity⟩ ::
        (match s.supervisorOf p with
          | some q =>
            match (s.pos q).supervision with
            | some r => if r.mode = .barge then [⟨.mic q, .barge, Config.unity⟩] else []
            | none => []
          | none => [])
    | _, _ => [])
  ++ (match s.sessionPlan l, s.musicSource l with
    | some h, some src =>
      match (s.plan h).record with
      | some r => [⟨src, .music, r.musicLevel⟩]
      | none => []
    | _, _ => [])
  ++ (if (s.leg l).state = .idle then []
      else (s.announceEngines l).map fun e => ⟨.engine e, .announce, Config.unity⟩)

/-- The derived gain target of a key (R60). -/
def targetOf (derived : List Derived) (source : Source) (role : Role) : Option Nat :=
  match derived.find? (fun d => d.source = source ∧ d.role = role) with
  | some d => some d.target
  | none => none

/-- A feed under a re-derivation: kept with its derived target, or set fading; none when it is removed at once, as a BARGE feed is
(R60, R63). -/
def Feed.rederive (derived : List Derived) (f : Feed) : Option Feed :=
  match targetOf derived f.source f.role with
  | some t => some { f with target := t, fading := false }
  | none => if f.role = .barge then none
    else if f.fading then some f else some { f with fading := true, target := 0 }

/-- The list without its oldest fading feed. -/
def dropOldestFading : List Feed → List Feed
  | [] => []
  | f :: rest => if f.fading then rest else f :: dropOldestFading rest

/-- A new feed (R51, R60): WHISPER and ANNOUNCE start at their target, the others at 0. -/
def Derived.feed (d : Derived) : Feed where
  source := d.source
  role := d.role
  target := d.target
  gain := if d.role = .whisper ∨ d.role = .announce then d.target else 0
  step := Config.rampStep
  fading := false

/-- A derived key added at the end of the list when the list holds no feed with it; a full list first gives up its oldest fading
feed (R60). -/
def addFeed (l : List Feed) (d : Derived) : List Feed :=
  if l.any (fun f => f.source = d.source ∧ f.role = d.role) then l
  else
    let room := if Config.feedPlaces ≤ l.length then dropOldestFading l else l
    if room.length < Config.feedPlaces then room ++ [d.feed] else room

/-- The re-derivation of one feed list (R60, R63). -/
def rederive (derived : List Derived) (l : List Feed) : List Feed :=
  derived.foldl addFeed (l.filterMap (Feed.rederive derived))

/-- Every destination re-derived from the records as the event leaves them; a list whose derived set has not changed stays as it was
(R59). -/
def State.rederiveAll (s : State) : State :=
  { s with
    ears := tmap (fun p l => rederive (s.derivedEar p) l) s.ears
    sends := tmap (fun l x => rederive (s.derivedSend l) x) s.sends }

/-- The notices for MUSIC sources that an event has changed while the session continues, or that R38 has replaced (R153). -/
def State.noticeMusic (s before : State) : State :=
  { s with legs := tmap (fun l x =>
      if before.hasSession l ∧ s.hasSession l ∧ before.musicSource l ≠ s.musicSource l
      then { x with ec := { x.ec with settle := Config.settleBlocks } } else x) s.legs }

/-- The end of an event that changed records: notices for changed music sources, then every destination re-derived. -/
def State.finish (s before : State) : State := (s.noticeMusic before).rederiveAll

end Sys2Proof.Machine
end

