-- ==== Sys2Proof/Machine/Cascade.lean ====
section
/-! DEFINITION. The engine arbiter and the owners of engines (R141 to R144, R150 to R162, R164 to R174). What one of them does calls on
the others, so the consequences of an event are a list of happenings, taken one after the other: a happening's own consequences come
before those that were already waiting. -/

namespace Sys2Proof.Machine

/-- A happening inside an event. -/
inductive Task where
  /-- An engine is released, with the outcome its owner is told, or none told (R140, R141, R150). -/
  | release (e : EngId) (o : Option EngineOutcome)
  /-- A stop reaches an engine (R141). -/
  | stop (e : EngId) (o : EngineOutcome)
  /-- A released engine goes to the request held behind it, else to the wait queue's heads (R143, R144). -/
  | offer (e : EngId) (was : Option Owner)
  /-- The wait queue's heads are considered for a FREE engine (R144). -/
  | heads (e : EngId)
  /-- A request is made by its requester (R143). -/
  | request (w : WaitEntry)
  /-- A request is taken by the arbiter (R143). -/
  | take (w : WaitEntry)
  /-- A requester or owner is told an outcome that concerns it. -/
  | tell (o : Owner) (outcome : EngineOutcome)
  /-- The head whisper entry ends with an outcome (R170, R171). -/
  | whisperEnd (p : PosId) (o : WhisperOutcome) (cause : Option WhisperCause)
  /-- The head whisper entry comes to request, when one stands without a request and no gap runs (R167). -/
  | whisperNext (p : PosId)
  /-- A leg goes ACTIVE on a position (R40, R42). -/
  | legActive (l : LegId) (p : PosId)
  /-- A hold session ends, with or without resume capture (R161). -/
  | sessionEnd (l : LegId) (capture : Bool)
  /-- A plan's use count falls by 1 (R150). -/
  | planFall (h : PlanId)
  /-- A report is made. -/
  | report (b : ReportBody)
  deriving DecidableEq, Repr

/-! ## The wait queue -/

/-- A request put into the wait queue: by class, and by arrival within a class (R142). -/
def enqueue (w : WaitEntry) : List WaitEntry → List WaitEntry
  | [] => [w]
  | x :: rest => if x.owner.cls ≤ w.owner.cls then x :: enqueue w rest else w :: x :: rest

/-- A requester's request withdrawn from the wait queue and from the arbiter's hold (R142). -/
def State.withdraw (s : State) (o : Owner) : State :=
  { s with arbiter := { s.arbiter with
      queue := s.arbiter.queue.filter fun w => w.owner ≠ o
      held := s.arbiter.held.filter fun w => w.owner ≠ o } }

/-- The lowest-numbered FREE engine (R143). -/
def State.freeEngine (s : State) : Option EngId := (List.finRange 24).find? fun e => (s.eng e).state = .free

/-- The requester owns an engine that has not yet been released. -/
def State.ownsEngine (s : State) (o : Owner) : Bool :=
  (List.finRange 24).any fun e => (s.eng e).state ≠ .free && (s.eng e).owner = some o

/-- The engine that a class-0 request takes back: of class 1, PRIMING, or PLAYING and not finishing, with the latest grant (R143). -/
def State.victim (s : State) : Option EngId :=
  (List.finRange 24).foldl (fun best e =>
    let x := s.eng e
    let open' := x.cls = 1 ∧ (x.state = .priming ∨ (x.state = .playing ∧ x.closing = 0))
    if open' then
      match best with
      | none => some e
      | some b => if (s.eng b).grant < x.grant then some e else some b
    else best) none

/-! ## What the owners record -/

/-- The owner's record of a grant: a whisper head granted, a session's request with its engine, a plan bound (R138, R151, R167). -/
def State.ownerGranted (s : State) (o : Owner) (e : EngId) : State :=
  match o with
  | .whisper p => s.modWhisper p fun q => { q with head := .granted e }
  | .leg l => s.modLeg l fun x => { x with session := x.session.map fun y =>
      { y with request := y.request.map fun r => { r with engine := some e } } }
  | .shared h => s.modPlan h fun x => { x with bound := some e, pending := false }

/-- The owner still counts the engine as its own, so its outcome concerns it (R161, R174, R199). -/
def State.concerned (s : State) (o : Owner) (e : EngId) : Bool :=
  match o with
  | .whisper p => (s.pos p).whisper.head = .granted e
  | .leg l =>
    match (s.leg l).session with
    | some x =>
      match x.request with
      | some r => r.engine = some e
      | none => false
    | none => false
  | .shared _ => false

/-- The owner's binding to a released engine is cleared: a queue's detached engine, a plan's binding (R150, R152, R174). -/
def State.clearBinding (s : State) (o : Owner) (e : EngId) : State :=
  match o with
  | .whisper p => s.modWhisper p fun q => if q.detached = some e then { q with detached := none } else q
  | .leg _ => s
  | .shared h => s.modPlan h fun x => if x.bound = some e then { x with bound := none } else x

/-- A granted request: the engine becomes PRIMING on the clip and issues its first fetch (R121, R138, R144). -/
def State.grant (s : State) (e : EngId) (w : WaitEntry) : State :=
  let primed : Engine := { Engine.idle with
    state := .priming, owner := some w.owner, cls := w.owner.cls, clip := some w.clip
    loop := w.owner.cls = 2, grant := s.arbiter.grants }
  let t := (s.modEng e fun _ => primed).modClip w.clip fun c => { c with useCount := c.useCount + 1 }
  let t := { t with arbiter := { t.arbiter with grants := t.arbiter.grants + 1 } }
  (t.ownerGranted w.owner e).issueFetch e

/-- A clip's use count falls at the release of an engine on it; a RETIRING clip then without engines becomes EMPTY (R121). -/
def State.clipReleased (s : State) (c : ClipId) : State :=
  let t := s.modClip c fun x => { x with useCount := x.useCount - 1 }
  if (t.clip c).state = .retiring ∧ (t.clip c).useCount = 0 then
    ((t.emptyClip c).queueUpdate c).report (.clipState c .empty .retired none)
  else t

/-- An engine made FREE: its pending fetch withdrawn, its feeds removed at once, its owner's binding cleared, its clip's use count
lowered (R62, R121, R141). -/
def State.freeOne (s : State) (e : EngId) : State :=
  let x := s.eng e
  let t := ((s.withdrawFetch e).modEng e fun _ => Engine.idle).dropEngineFeeds e
  let t := match x.owner with | some o => t.clearBinding o e | none => t
  match x.clip with | some c => t.clipReleased c | none => t

/-! ## Whisper queues -/

/-- A gap starts; a gap value of 0 ends it at the same moment (R168). -/
def State.startGap (s : State) (p : PosId) : State :=
  s.modWhisper p fun q => { q with gap := if (s.pos p).config.whisperGap = 0 then none else some 0 }

/-- The host tag of an entry: 0 for a CALL_WHISPER (Table 8-1). -/
def WhisperEntry.tag (w : WhisperEntry) : Nat := match w.kind with | .call _ => 0 | .prompt _ t => t

/-- What a whisper report of an entry carries (R170). -/
def WhisperEntry.reportOf (w : WhisperEntry) (p : PosId) (cause : Option WhisperCause) : WhisperReport := ⟨p, w.clip, w.tag, cause⟩

/-- The report of a PROMPT's outcome (R170). -/
def promptReport (o : WhisperOutcome) (r : WhisperReport) : ReportBody :=
  match o with
  | .played => .whisperDone r
  | .skipped => .whisperSkipped r
  | .interrupted => .whisperInterrupted r

/-- The outcome and cause that an engine's outcome gives the head entry (R170); "preempted" reaches no whisper. -/
def whisperOutcome : EngineOutcome → WhisperOutcome × Option WhisperCause
  | .played => (.played, none)
  | .stopped => (.interrupted, some .onset)
  | .preempted => (.interrupted, some .reclaim)
  | .interrupted => (.interrupted, some .reclaim)
  | .skipped => (.skipped, some .clip)

/-- The head request is granted. -/
def HeadRequest.isGranted : HeadRequest → Bool
  | .granted _ => true
  | .waiting _ => false
  | .none => false

/-! ## Sessions -/

/-- The plan record that a session's plan has. -/
def State.sessionRecord (s : State) (x : Session) : Option PlanRecord :=
  match x.plan with
  | some h => (s.plan h).record
  | none => none

/-- A session's greeting or announcement reaches an outcome (R156, R158). -/
def State.sessionTold (s : State) (l : LegId) (o : EngineOutcome) : State :=
  match (s.leg l).session with
  | none => s
  | some x =>
    match x.request with
    | none => s
    | some r =>
      let rec' := s.sessionRecord x
      let firstDelay := match rec' with | some y => y.firstDelay | none => 0
      let interval := match rec' with | some y => y.interval | none => 0
      let count := match rec' with | some y => y.announcements.length | none => 0
      let ended : Session := match r.place with
        | none => { x with request := none, phase := .background, countdown := some firstDelay }
        | some i => { x with
            request := none, phase := .background, countdown := some interval
            nextIndex := if count = 0 then 0 else (i + 1) % count }
      let t := s.modLeg l fun y => { y with session := some ended }
      if o = .preempted then
        t.report (.announcePreempted l x.plan r.clip (if r.place = none then .greeting else .announcement) r.place)
      else t

/-- A leg goes ACTIVE on a position, with a reference change notice (R40, R42). -/
def State.goActive (s : State) (l : LegId) (p : PosId) : State :=
  ((s.modLeg l fun x => { x with state := .active, origin := none }).attach l p).notice l

/-! ## One happening -/

/-- What one happening does, and the happenings it sets off. -/
def runTask (t : Task) (s : State) : State × List Task :=
  match t with
  | .release e o =>
    if (s.eng e).state = .free then (s, [])
    else
      let owner := (s.eng e).owner
      let told := match o, owner with
        | some out, some w => if s.concerned w e then [Task.tell w out] else []
        | _, _ => []
      let next := match told, owner with
        | _ :: _, some (.whisper p) => [Task.whisperNext p]
        | _, _ => []
      (s.freeOne e, told ++ [.offer e owner] ++ next)
  | .stop e o =>
    match (s.eng e).state with
    | .priming => (s, [.release e (some o)])
    | .playing =>
      if (s.eng e).closing = 0 then
        ((s.withdrawFetch e).modEng e fun x => { x with state := .stopping, stopOutcome := o }, [])
      else (s, [])
    | .stopping => (s, [])
    | .free => (s, [])
  | .offer e was =>
    match was with
    | some o =>
      match s.arbiter.held.find? (fun w => w.owner = o) with
      | some w => ({ s with arbiter := { s.arbiter with held := s.arbiter.held.filter fun x => x.owner ≠ o } },
          [.take w, .heads e])
      | none => (s, [.heads e])
    | none => (s, [.heads e])
  | .heads e =>
    if s.arbiter.scanning ∨ (s.eng e).state ≠ .free then (s, [])
    else
      match s.arbiter.queue with
      | [] => (s, [])
      | w :: rest =>
        let t := { s with arbiter := { s.arbiter with queue := rest } }
        if s.isReady w.clip then (t.grant e w, [])
        else (t, [.tell w.owner .skipped, .heads e]
          ++ match w.owner with | .whisper p => [.whisperNext p] | .leg _ => [] | .shared _ => [])
  | .request w =>
    if s.ownsEngine w.owner then ({ s with arbiter := { s.arbiter with held := s.arbiter.held ++ [w] } }, [])
    else (s, [.take w])
  | .take w =>
    if s.arbiter.scanning then
      ({ s with arbiter := { s.arbiter with queue := enqueue w s.arbiter.queue } }, [])
    else
      match s.freeEngine with
      | some e =>
        if s.isReady w.clip then (s.grant e w, [])
        else (s, .tell w.owner .skipped
          :: match w.owner with | .whisper p => [.whisperNext p] | .leg _ => [] | .shared _ => [])
      | none =>
        ({ s with arbiter := { s.arbiter with queue := enqueue w s.arbiter.queue } },
          if w.owner.cls = 0 then match s.victim with | some v => [.stop v .preempted] | none => [] else [])
  | .tell o out =>
    match o with
    | .whisper p => (s, [.whisperEnd p (whisperOutcome out).1 (whisperOutcome out).2])
    | .leg l => (s.sessionTold l out, [])
    | .shared h => (if out = .skipped then s.modPlan h fun x => { x with pending := false } else s, [])
  | .whisperEnd p o cause =>
    match (s.pos p).whisper.entries with
    | [] => (s, [])
    | w :: rest =>
      let had := (s.pos p).whisper.head.isGranted
      let t := s.modWhisper p fun q => { q with entries := rest, head := .none }
      match w.kind with
      | .prompt _ _ =>
        let t := t.report (promptReport o (w.reportOf p cause))
        (if had then t.startGap p else t, [])
      | .call l =>
        ((if had then t.startGap p else t).goActive l p, [.sessionEnd l true, .report (.connectDone l p o)])
  | .whisperNext p =>
    match (s.pos p).whisper.entries with
    | [] => (s, [])
    | w :: _ =>
      if (s.pos p).whisper.head = .none ∧ (s.pos p).whisper.gap = none then
        if s.isReady w.clip then
          (s.modWhisper p fun q => { q with head := .waiting 0 }, [.request ⟨.whisper p, w.clip⟩])
        else (s, [.whisperEnd p .skipped (some .clip), .whisperNext p])
      else (s, [])
  | .legActive l p => (s.goActive l p, [.sessionEnd l true])
  | .sessionEnd l capture =>
    match (s.leg l).session with
    | none => (s, [])
    | some x =>
      let t := s.modLeg l fun y => { y with
        session := none
        resume := match capture, x.plan with | true, some h => some ⟨h, x.nextIndex⟩ | _, _ => y.resume }
      let fall := match x.plan with | some h => [Task.planFall h] | none => []
      match x.request with
      | none => (t, fall)
      | some r =>
        match r.engine with
        | none => (t.withdraw (.leg l), fall)
        | some e => (t, .stop e .stopped :: fall)
  | .planFall h =>
    let t := s.modPlan h fun x => { x with useCount := x.useCount - 1 }
    if (t.plan h).useCount = 0 then
      ((t.withdraw (.shared h)).modPlan h fun x => { x with pending := false, bound := none },
        match (t.plan h).bound with | some e => [.release e none] | none => [])
    else (t, [])
  | .report b => (s.report b, [])

/-- Happenings taken one after the other, each before those that were waiting (log 9 for the bound). -/
def drive : Nat → List Task → State → State
  | 0, _, s => s
  | _ + 1, [], s => s
  | n + 1, t :: rest, s => drive n ((runTask t s).2 ++ rest) (runTask t s).1

/-- All that a list of happenings sets off within one event. -/
def State.run (s : State) (ts : List Task) : State := drive Config.cascadeLimit ts s

/-! ## What the owners do at the top of an event -/

/-- A plan's shared stream request, made when R151 allows it. -/
def State.judgeStream (s : State) (h : PlanId) : State :=
  match (s.plan h).record with
  | none => s
  | some r =>
    match r.background with
    | .absent => s
    | .program _ => s
    | .shared c =>
      let busy := match (s.plan h).bound with
        | some e => (s.eng e).state = .priming || (s.eng e).state = .playing
        | none => false
      if 0 < (s.plan h).useCount ∧ s.isReady c = true ∧ busy = false ∧ (s.plan h).pending = false then
        (s.modPlan h fun x => { x with pending := true }).run [.request ⟨.shared h, c⟩]
      else s

/-- A plan's use count rises by 1, its stream judged when it rises from 0 (R150, R151). -/
def State.planRise (s : State) (h : PlanId) : State :=
  let t := s.modPlan h fun x => { x with useCount := x.useCount + 1 }
  if (t.plan h).useCount = 1 then t.judgeStream h else t

/-- A session's phase, countdown, index and greeting as it begins on a plan, the leg already counted (R154, R155). -/
def State.enterSession (s : State) (l : LegId) (plan : Option PlanId) : State :=
  let put (x : Session) : State := s.modLeg l fun y => { y with session := some x }
  match plan with
  | none => put ⟨none, .background, none, 0, none⟩
  | some h =>
    match (s.plan h).record with
    | none => put ⟨some h, .background, none, 0, none⟩
    | some r =>
      let resuming : Option Nat := match (s.leg l).resume with
        | some y => if r.resume ∧ y.plan = h then some y.index else none
        | none => none
      match resuming with
      | some i => put ⟨some h, .background, some r.firstDelay, i, none⟩
      | none =>
        match r.greeting with
        | none => put ⟨some h, .background, some r.firstDelay, 0, none⟩
        | some c =>
          if s.isReady c then
            (put ⟨some h, .greeting, none, 0, some ⟨c, none, none⟩⟩).run [.request ⟨.leg l, c⟩]
          else put ⟨some h, .background, some r.firstDelay, 0, none⟩

/-- A hold session begins: the leg is counted first, so a plan's first caller makes the stream's request first (R154). -/
def State.beginSession (s : State) (l : LegId) (plan : Option PlanId) : State :=
  let t := match plan with | some h => s.planRise h | none => s
  t.enterSession l plan

/-- A head entry's request is undone: withdrawn, or its engine stopped, a PLAYING or STOPPING one becoming the detached engine
(R173, R174). -/
def State.undoHead (s : State) (p : PosId) : State :=
  match (s.pos p).whisper.head with
  | .none => s
  | .waiting _ => (s.modWhisper p fun q => { q with head := .none }).withdraw (.whisper p)
  | .granted e =>
    if (s.eng e).state = .priming then
      (s.modWhisper p fun q => { q with head := .none }).run [.stop e .stopped]
    else (s.modWhisper p fun q => { q with head := .none, detached := some e }).run [.stop e .stopped]

/-- After a head entry has been removed: its request undone, a gap started when it held a granted engine, and the new head brought
to request when no gap runs (R168, R173, R174). -/
def State.headRemoved (s : State) (p : PosId) : State :=
  let had := (s.pos p).whisper.head.isGranted
  let t := s.undoHead p
  (if had then t.startGap p else t).run [.whisperNext p]

/-- The entry is the CALL_WHISPER that names a leg. -/
def WhisperEntry.isCallOf (w : WhisperEntry) (l : LegId) : Bool := w.kind = .call l

/-- A leg's CALL_WHISPER removed from its position's queue by a cancel or a close, with no report (R43, R44, R174). -/
def State.removeCallWhisper (s : State) (l : LegId) (p : PosId) : State :=
  match (s.pos p).whisper.entries with
  | [] => s
  | w :: rest =>
    if w.isCallOf l then (s.modWhisper p fun q => { q with entries := rest }).headRemoved p
    else s.modWhisper p fun q => { q with entries := w :: rest.filter fun x => !x.isCallOf l }

/-- Every engine that is not FREE released one after the other, lowest number first, with an outcome told (R135). -/
def State.releaseAll (s : State) (o : EngineOutcome) : State :=
  (List.finRange 24).foldl (fun t e => t.run [.release e (some o)]) s

end Sys2Proof.Machine
end

