-- ==== Sys2Proof/Machine/Engines.lean ====
section
/-! DEFINITION. The block event of a playback engine (R139 to R141), ENGINE_BLOCK_EVENT. -/

namespace Sys2Proof.Machine

/-- ENGINE(e) for the period. -/
def State.putEngine (s : State) (e : EngId) (b : Block) : State :=
  { s with sources := { s.sources with engine := tset s.sources.engine e b } }

/-- The fade block: the gain starts at its value and falls by 256 after each sample (R141). -/
def fadeBlock (gain : Nat) : List Sample → List Sample
  | [] => []
  | x :: xs => scale x gain :: fadeBlock (gain - Config.fadeStep) xs

/-- A PLAYING engine that is not finishing outputs its oldest block, or zeros on an underrun; the first underrun of the allocation is
reported (R139, R140). -/
def State.playBlock (s : State) (e : EngId) : State :=
  let x := s.eng e
  match x.buffer with
  | b :: rest =>
    ((s.putEngine e b.samples).modEng e fun y =>
      { y with buffer := rest, closing := if b.final then 1 else 0 }).issueFetch e
  | [] =>
    let t := (s.putEngine e zeroBlock).modEng e fun y => { y with underruns := sat16Count y.underruns 1 }
    (if x.underruns = 0 then t.report (.engineUnderrun e x.owner x.clip) else t).issueFetch e

/-- A STOPPING engine outputs its fade block: the oldest buffered block, or zeros, under the falling gain (R141). -/
def State.fadeOut (s : State) (e : EngId) : State :=
  let x := s.eng e
  let b := match x.buffer with | b :: _ => b.samples | [] => zeroBlock
  (s.putEngine e (fadeBlock x.fadeGain b)).modEng e fun y =>
    { y with buffer := y.buffer.drop 1, closing := 1, fadeGain := y.fadeGain - Config.blockSamples * Config.fadeStep }

/-- The closing zero block (R140, R141). -/
def State.closingBlock (s : State) (e : EngId) : State :=
  (s.putEngine e zeroBlock).modEng e fun y => { y with closing := 2 }

/-- The release at the block event after the closing zero block, with the outcome told to the owner (R140, R141). -/
def State.releaseEngine (s : State) (e : EngId) (o : EngineOutcome) : State :=
  ((s.putEngine e zeroBlock).run [.release e (some o)]).finish s

/-- The block event of a playback engine (R137, R139 to R141). -/
def State.engineBlock (s : State) (e : EngId) : State :=
  let x := s.eng e
  match x.state, x.closing with
  | .free, _ => s.putEngine e zeroBlock
  | .priming, _ => s.putEngine e zeroBlock
  | .playing, 0 => s.playBlock e
  | .playing, 1 => s.closingBlock e
  | .playing, _ => s.releaseEngine e .played
  | .stopping, 0 => s.fadeOut e
  | .stopping, 1 => s.closingBlock e
  | .stopping, _ => s.releaseEngine e x.stopOutcome

/-- ENGINE_BLOCK_EVENT (R139). -/
def execEngineBlockEvent (e : EngId) (s : State) : Result := .next (s.engineBlock e)

end Sys2Proof.Machine
end

