-- ==== Sys2Proof/Machine/Highway.lean ====
section
/-! DEFINITION. The trunk highway, the program port and the process clock (R29 to R34, R85), and the commands HIGHWAY_FRAME,
PERIOD_START, SYNC_LOST and SYNC_REGAINED. -/

namespace Sys2Proof.Machine

/-! ## The start of a period (R31) -/

/-- The period that ends was a whole period in IN_SYNC: 64 frames received and sync never lost (R29). A pulse missed in IN_SYNC brings no
frame, so its period has fewer than 64 and is invalid (DESIGN CHOICE, log 31). -/
def Highway.whole (h : Highway) : Bool := h.inSyncSoFar && h.received.length = Config.blockSamples

/-- The block received on one channel, oldest sample first; `pick` chooses the receive channels or the program channels (R29, R34). -/
def Highway.collected (h : Highway) (pick : HighwayFrame → List Sample) (channel : Nat) : Block :=
  if h.whole then h.received.reverse.map fun f => (pick f).getD channel 0 else zeroBlock

/-- The interface and the clock at the start of a period: the period count rises, the collected blocks become the period's receive
blocks with their validity mark, and the send blocks computed are those transmitted now (R29, R31, R33). -/
def Highway.startPeriod (h : Highway) : Highway :=
  { h with
    period := h.period + 1
    received := []
    inSyncSoFar := h.state = .inSync
    receive := Vector.ofFn fun l : Fin 64 => h.collected HighwayFrame.receive l.val
    valid := h.whole
    sending := h.computed
    computed := Vector.replicate 64 zeroBlock }

/-- The sources at the start of a period: none has produced anything yet but the program port, which hands over its latest block (R32, R34). -/
def Highway.newSources (h : Highway) : Sources :=
  { Sources.silent with program := Vector.ofFn fun k : Fin 4 => h.collected HighwayFrame.program k.val }

/-- The voice activity state that readers see in a period: that of the period before, QUIET for a port that is not LIVE (R85). -/
def Position.readVad (x : Position) : Vad := if x.port.state = .live then x.ns.vad else .quiet

/-- A process period begins (R31). -/
def State.startPeriod (s : State) : State :=
  { s with
    highway := s.highway.startPeriod
    before := s.sources
    sources := s.highway.newSources
    positions := tmap (fun _ x => { x with vadBefore := x.readVad }) s.positions
    legs := tmap (fun _ x => { x with ec := { x.ec with joined := false } }) s.legs }

/-! ## Frames and sync (R30) -/

/-- The 64 send samples of a highway frame: the sample due of each send block being transmitted, or zeros in HOLDOVER (R33). -/
def Highway.sendSamples (h : Highway) : List Sample :=
  match h.state with
  | .inSync => h.sending.toList.map fun b => b.getD h.received.length 0
  | .holdover => zeroBlock

/-- A frame of a period in IN_SYNC: its receive samples collected, its send samples transmitted (R29, R33). -/
def Highway.takeFrame (h : Highway) (f : HighwayFrame) : Highway :=
  { h with sendPins := h.sendSamples, received := f :: h.received }

/-- Sync is regained: the interface enters IN_SYNC and reports it, the period in progress ends, and the frame is the first of the next
period (R30, R31). The report is placed before the new period is counted (DESIGN CHOICE, log 13), and the pulse count returns to 0
(DESIGN CHOICE, log 31). -/
def State.regain (s : State) (f : HighwayFrame) : State :=
  let t := { s with highway := { s.highway with state := .inSync, pulses := 0 } }
  let t := (t.report (.highwaySync .inSync s.highway.period)).startPeriod
  { t with highway := t.highway.takeFrame f }

/-- Sync is lost: HOLDOVER with its pulse count at 0, reported with the new state and the period count (R30, log 19). -/
def State.loseSync (s : State) : State :=
  { s with highway := { s.highway with state := .holdover, pulses := 0, inSyncSoFar := false } }.report
    (.highwaySync .holdover s.highway.period)

/-- A highway frame arrives with its pulse (R29, R30, R33). In IN_SYNC the frame of a misplaced pulse is taken like any other (DESIGN CHOICE,
log 31). -/
def State.highwayFrame (s : State) (f : HighwayFrame) (wellPlaced : Bool) : State :=
  match s.highway.state with
  | .inSync => { s with highway := s.highway.takeFrame f }
  | .holdover =>
    if wellPlaced then
      if Config.syncPulses ≤ s.highway.pulses + 1 then s.regain f
      else { s with highway := { s.highway with sendPins := zeroBlock, pulses := s.highway.pulses + 1 } }
    else { s with highway := { s.highway with sendPins := zeroBlock, pulses := 0 } }

/-! ## The commands -/

/-- HIGHWAY_FRAME (R30). -/
def execHighwayFrame (f : HighwayFrame) (wellPlaced : Bool) (s : State) : Result := .next (s.highwayFrame f wellPlaced)

/-- PERIOD_START (R31). -/
def execPeriodStart (s : State) : Result := .next s.startPeriod

/-- SYNC_LOST: two expected frame times passed with no pulse in IN_SYNC (R30); in HOLDOVER there is no such event (log 1). -/
def execSyncLost (s : State) : Result := .next (if s.highway.state = .inSync then s.loseSync else s)

/-- SYNC_REGAINED: the frame whose pulse brings the count to 16 in HOLDOVER (R30); otherwise there is no such event (log 1). -/
def execSyncRegained (f : HighwayFrame) (s : State) : Result :=
  .next (if s.highway.state = .holdover ∧ Config.syncPulses ≤ s.highway.pulses + 1 then s.highwayFrame f true else s)

end Sys2Proof.Machine
end

