-- ==== Sys2Proof/Machine/Operands.lean ====
section
/-! DEFINITION. The operands of the host's requests: how a payload's bytes give a request's fields (R184), the identifiers, flags and
enumerated values that an owner reads from them (R189), and the handling that every request shares (R186, R188). -/

namespace Sys2Proof.Machine

/-! ## Payloads (R184) -/

/-- Reading a field from the front of a payload: none when the bytes do not give one. -/
abbrev Parser := StateT (List Byte) Option

/-- One byte. -/
def byteField : Parser Nat := fun bytes =>
  match bytes with
  | [] => none
  | b :: rest => some (b.toNat, rest)

/-- A number of n bytes, least significant byte first (section 9.2). -/
def numberField : Nat → Parser Nat
  | 0 => pure 0
  | n + 1 => do
    let low ← byteField
    let high ← numberField n
    return low + 256 * high

/-- Two bytes: identifiers, durations, steps, thresholds, counts. -/
def wordField : Parser Nat := numberField 2

/-- Four bytes: lengths, offsets, sums. -/
def longField : Parser Nat := numberField 4

/-- A gain value: two bytes, the most significant bit disregarded. -/
def gainField : Parser Nat := do
  let x ← wordField
  return x % 32768

/-- An audio sample: two bytes. -/
def sampleField : Parser Sample := do
  let x ← wordField
  return BitVec.ofNat 16 x

/-- An optional field: a presence byte of 0 or 1, then the field when it is present. -/
def optionalField {α : Type} (f : Parser α) : Parser (Option α) := do
  match ← byteField with
  | 0 => return none
  | 1 =>
    let x ← f
    return some x
  | _ => fun _ => none

/-- A fixed number of items. -/
def itemsField {α : Type} (f : Parser α) : Nat → Parser (List α)
  | 0 => pure []
  | n + 1 => do
    let x ← f
    let xs ← itemsField f n
    return x :: xs

/-- A list: a two-byte count, then the items. -/
def listField {α : Type} (f : Parser α) : Parser (List α) := do
  let n ← wordField
  itemsField f n

/-- A delay mode: the kind byte, then d for FIXED (R36). A kind byte that names none carries no parameter, so bytes behind it make the
payload malformed (DESIGN CHOICE, log 35). -/
def delayField : Parser DelayField := do
  match ← byteField with
  | 0 => return .auto
  | 1 =>
    let d ← wordField
    return .fixed d
  | kind => return .other kind

/-- A background: the kind byte, then the clip or the program channel (Table 7-1). A kind byte that names none carries no parameter, so
bytes behind it make the payload malformed (DESIGN CHOICE, log 35). -/
def backgroundField : Parser BackgroundField := do
  match ← byteField with
  | 0 => return .absent
  | 1 =>
    let c ← wordField
    return .shared c
  | 2 =>
    let k ← wordField
    return .program k
  | kind => return .other kind

/-- The configuration record in the order of Table 1-4. The limiter level is a level and not a gain value, so its 16 bits all count
(DEDUCED, log 23). -/
def recordField : Parser RecordFields := do
  let earVolume ← gainField
  let sidetone ← gainField
  let limiterLevel ← wordField
  let limiterRelease ← wordField
  let nsEnable ← byteField
  let nsRatio ← wordField
  let nsHangover ← wordField
  let nsAttenuation ← gainField
  let nsAttack ← wordField
  let nsRelease ← wordField
  let whisperGap ← wordField
  let whisperDuck ← gainField
  let whisperDeadline ← wordField
  let fallback ← optionalField wordField
  let muteMode ← byteField
  let volumeMode ← byteField
  let pushToTalk ← byteField
  let qualification ← wordField
  let recovery ← wordField
  let parityThreshold ← wordField
  let hysteresis ← wordField
  return { earVolume, sidetone, limiterLevel, limiterRelease, nsEnable, nsRatio, nsHangover, nsAttenuation, nsAttack, nsRelease,
           whisperGap, whisperDuck, whisperDeadline, fallback, muteMode, volumeMode, pushToTalk, qualification, recovery,
           parityThreshold, hysteresis }

/-- No fields: MEMORY_RELEASE, MEMORY_RECLAIM, DEVICE_STATUS and DEVICE_RESET. -/
def noFields : Parser Unit := pure ()

/-- POSITION_CONFIG (R24). -/
def configFields : Parser ConfigFields := do
  let position ← wordField
  let record ← recordField
  return { position, record }

/-- POSITION_MUTE (R22). -/
def muteFields : Parser MuteFields := do
  let position ← wordField
  let value ← byteField
  return { position, value }

/-- LEG_OPEN (R36). -/
def openFields : Parser OpenFields := do
  let leg ← wordField
  let tail ← wordField
  let delay ← delayField
  return { leg, tail, delay }

/-- LEG_HOLD (R37). -/
def holdFields : Parser HoldFields := do
  let leg ← wordField
  let plan ← optionalField wordField
  return { leg, plan }

/-- LEG_CONNECT (R40). -/
def connectFields : Parser ConnectFields := do
  let leg ← wordField
  let position ← wordField
  let clip ← optionalField wordField
  return { leg, position, clip }

/-- EC_CONFIG (R114). -/
def ecFields : Parser EcFields := do
  let leg ← wordField
  let tail ← optionalField wordField
  let delay ← optionalField delayField
  let nlp ← optionalField gainField
  let action ← byteField
  return { leg, tail, delay, nlp, action }

/-- PLAN_SET (R147). -/
def planFields : Parser PlanFields := do
  let plan ← wordField
  let background ← backgroundField
  let musicLevel ← gainField
  let greeting ← optionalField wordField
  let announcements ← listField wordField
  let firstDelay ← wordField
  let interval ← wordField
  let duck ← gainField
  let resume ← byteField
  let fallback ← optionalField wordField
  return { plan, background, musicLevel, greeting, announcements, firstDelay, interval, duck, resume, fallback }

/-- CLIP_CREATE (R123). -/
def createFields : Parser CreateFields := do
  let clip ← wordField
  let length ← longField
  let loopStart ← optionalField longField
  return { clip, length, loopStart }

/-- CLIP_DATA (R124). -/
def dataFields : Parser DataFields := do
  let clip ← wordField
  let offset ← longField
  let samples ← listField sampleField
  return { clip, offset, samples }

/-- CLIP_CLOSE (R126). -/
def closeFields : Parser CloseFields := do
  let clip ← wordField
  let sum ← longField
  return { clip, sum }

/-- WHISPER_PROMPT (R165). -/
def promptFields : Parser PromptFields := do
  let position ← wordField
  let clip ← wordField
  let stopOnSpeech ← byteField
  let hostTag ← wordField
  return { position, clip, stopOnSpeech, hostTag }

/-- SUPERVISE (R178). -/
def superviseFields : Parser SuperviseFields := do
  let supervisor ← wordField
  let agent ← wordField
  let mode ← byteField
  return { supervisor, agent, mode }

/-- A payload read whole: its length must be exactly what its fields, presence bytes and counts give (R184). -/
def readPayload {α : Type} (f : Parser α) (bytes : List Byte) : Payload α :=
  match f bytes with
  | some (x, []) => .fields x
  | some (_, _ :: _) => .malformed
  | none => .malformed

/-! ## Values that an owner reads (R189) -/

/-- A flag byte: 0 for the value listed first, 1 for the other (R184); another byte names no setting. -/
def flagOf (b : Nat) : Option Bool := if b = 0 then some true else if b = 1 then some false else none

/-- An optional identifier: none when it is beyond its range. -/
def optionalId (n : Nat) : Option Nat → Option (Option (Fin n))
  | none => some none
  | some k => (toId n k).map some

/-- A list of identifiers: none when one of them is beyond its range. -/
def allIds (n : Nat) : List Nat → Option (List (Fin n))
  | [] => some []
  | k :: rest =>
    match toId n k, allIds n rest with
    | some i, some is => some (i :: is)
    | _, _ => none

/-! ## Handling a request (R188) -/

/-- What an owner gives back: the part after the request, the status and the reply fields. -/
structure Handled where
  state : State
  status : Status
  fields : ReplyFields
  deriving DecidableEq, Repr

/-- A refused request: it changes nothing (R188). -/
def refuse (s : State) (status : Status) : Handled := ⟨s, status, .none⟩

/-- An accepted request without reply fields. -/
def accept (s : State) : Handled := ⟨s, .ok, .none⟩

/-- The reply placed in the reply queue (R188, R190). -/
def State.reply (s : State) (r : Reply) : State := { s with link := s.link.placeReply r }

/-- The oldest request leaves the buffer (R188). -/
def State.takeBuffered (s : State) : State := { s with link := { s.link with buffer := s.link.buffer.drop 1 } }

/-- The request's structure judged, then its owner asked, then its reply placed behind the reports (R188). -/
def respond {α : Type} (code tag : Byte) (q : Payload α) (owner : α → State → Handled) (s : State) : State :=
  match q with
  | .malformed => s.reply ⟨code, tag, .length, .none⟩
  | .fields f => (owner f s).state.reply ⟨code, tag, (owner f s).status, (owner f s).fields⟩

/-- A request command: the handler's block event at which the request is handled (R188).
With an empty inbound buffer the request's frame arrives and is handled at once, so it needs a reply place (R186); otherwise the event
takes the request at the head of the buffer, which must be this one. A paused handler takes none. In the remaining cases there is no
such event and nothing changes (DESIGN CHOICE, log 4). -/
def serve {α : Type} [DecidableEq α] (code tag : Byte) (fields : Parser α) (q : Payload α) (owner : α → State → Handled) (s : State) : State :=
  if s.link.paused then s
  else
    match s.link.buffer with
    | [] => if Config.replyPlaces ≤ s.link.places then s.linkError .overrun else respond code tag q owner s
    | r :: _ => if r.code = code ∧ r.tag = tag ∧ readPayload fields r.payload = q
        then respond code tag q owner s.takeBuffered else s

/-- The codes of Table 9-5 that name a request. -/
def requestCodes : List Byte :=
  [0x01, 0x02, 0x03, 0x04, 0x05, 0x06, 0x10, 0x11, 0x12, 0x13, 0x14, 0x15, 0x16, 0x20, 0x21, 0x22, 0x30, 0x31, 0x32, 0x33, 0x34,
   0x38, 0x39, 0x40, 0x41, 0x42, 0x43, 0x70, 0x71]

end Sys2Proof.Machine
end

