-- ==== Sys2Proof/Machine/Echo.lean ====
section
/-! DEFINITION. Line echo cancellation: the canceller's block event (R98 to R113), its opening and closing (R92, R96, R97, R119), and
the commands EC_BLOCK_EVENT, SEARCH_WINDOW_END, ERLE_WINDOW_END and EC_CONFIG (R114 to R117). -/

namespace Sys2Proof.Machine

/-! ## The reference history (R98) -/

/-- The newest block of the history that the canceller may take as its aligned block, the send block of the period before last: the
send block of the period in progress and that of the period before stand ahead of it once the former has joined (R98). -/
def Canceller.aligned (c : Canceller) : List Block := c.history.drop (if c.joined then 2 else 1)

/-- Reference block d (R98). -/
def Canceller.reference (c : Canceller) (d : Nat) : Block := c.aligned.getD d zeroBlock

/-- The reference stream from the last sample of reference block `bulkDelay` backwards in time (R98). -/
def Canceller.stream (c : Canceller) : List Sample := (c.aligned.drop c.bulkDelay).flatMap List.reverse

/-! ## The classification of a block (R99 to R102) -/

/-- The canceller's filter runs (Table 5-2). -/
def Canceller.filters (c : Canceller) : Bool := c.state = .converging || c.state = .converged || c.state = .frozen

/-- The block is reference-active (R99). -/
def Canceller.referenceActive (c : Canceller) : Bool := 64 ≤ energy (c.reference c.bulkDelay)

/-- The peak magnitude over reference blocks D to D + 2 × S (R100). -/
def Canceller.referencePeak (c : Canceller) : Nat :=
  peak ((List.range (2 * c.segments.length + 1)).flatMap fun i => c.reference (c.bulkDelay + i))

/-- The block is a double-talk detection (R100). -/
def Canceller.detects (c : Canceller) (rx : Block) : Bool := c.segments ≠ [] && c.referencePeak < 2 * peak rx

/-- What the canceller finds of a block (R99 to R102). -/
structure Findings where
  gap : Bool
  settle : Bool
  active : Bool
  doubleTalk : Bool
  deriving DecidableEq, Repr

/-- The findings for a receive block with its validity mark. -/
def Canceller.judge (c : Canceller) (rx : Block) (valid : Bool) : Findings where
  gap := !valid || decide (0 < c.gap)
  settle := decide (0 < c.settle)
  active := c.referenceActive
  doubleTalk := c.segments ≠ [] && (c.detects rx || decide (0 < c.doubleTalk))

/-- The three counts after the judgement (R100 to R102). A double-talk count left above 0 by the loss of the last segment is 0 after the
next block (DESIGN CHOICE, log 38). -/
def Canceller.countDown (c : Canceller) (rx : Block) (valid : Bool) : Canceller :=
  { c with
    gap := if valid then c.gap - 1 else Config.gapBlocks
    settle := c.settle - 1
    doubleTalk := if c.segments = [] then 0 else if c.detects rx then Config.doubleTalkBlocks else c.doubleTalk - 1 }

/-! ## The filter (R106 to R108, R112, R113) -/

/-- The filter estimate (R106). -/
def estimate (taps span : List Sample) : Sample :=
  sat16 (((List.zipWith (fun h x : Sample => h.toInt * x.toInt) taps span).foldl (· + ·) 0 + 16384) / 32768)

/-- One coefficient's update (R108). -/
def updateTap (e : Int) (shift power : Nat) (h x : Sample) : Sample :=
  sat16 (h.toInt + (e * x.toInt * (2 ^ (15 - shift) : Nat)).tdiv ((power + 65536 : Nat) : Int))

/-- How the canceller treats every sample of a block. -/
structure BlockPlan where
  filters : Bool
  adapts : Bool
  shift : Nat
  /-- The power below which a sample does not adapt (R107). -/
  floor : Nat
  taps : Nat
  target : Nat
  deriving DecidableEq, Repr

/-- The canceller inside a block: coefficients, NLP gain, and the outputs and errors so far, newest first. -/
structure EcWork where
  taps : List Sample
  gain : Nat
  out : List Sample
  errors : List Sample
  deriving DecidableEq, Repr

/-- One sample: estimate and error, adaptation, the NLP gain's step, the output (R103 step 3). The output is formed with the gain
after its step, in the order of R103 (DESIGN CHOICE, log 15). -/
def EcWork.step (b : BlockPlan) (w : EcWork) (y : Sample) (span : List Sample) : EcWork :=
  let e : Sample := if b.filters then sat16 (y.toInt - (estimate w.taps span).toInt) else y
  let power := sumSquares span
  let taps := if b.adapts ∧ b.floor ≤ power then List.zipWith (updateTap e.toInt b.shift power) w.taps span else w.taps
  let gain := stepToward w.gain b.target Config.nlpStep
  ⟨taps, gain, scale e gain :: w.out, e :: w.errors⟩

/-- The samples of a block in time order: n counts the samples still to come, so the span of the sample taken now begins n − 1 samples
back from the end of its reference block (R98, R106). -/
def EcWork.run (b : BlockPlan) (stream : List Sample) (w : EcWork) : List Sample → EcWork
  | [] => w
  | y :: ys => EcWork.run b stream (w.step b y ((stream.drop ys.length).take b.taps)) ys

/-- The canceller's step size s (R108). -/
def Canceller.shift (c : Canceller) : Nat := if c.state = .converged then 3 else 1

/-- The send is speaking (R112). -/
def State.sendSpeaking (s : State) (l : LegId) (active : Bool) : Bool :=
  match (s.leg l).state, (s.leg l).attached with
  | .idle, _ => false
  | .active, some p => s.talking p || (match s.supervisorOf p with
      | some q =>
        match (s.pos q).supervision with
        | some r => r.mode = .barge && s.talking q
        | none => false
      | none => false)
  | .active, none => false
  | .opened, _ => active
  | .held, _ => active
  | .connecting, _ => active

/-- The treatment of a block (R107, R112). -/
def State.blockPlan (s : State) (l : LegId) (f : Findings) : BlockPlan :=
  let c := (s.leg l).ec
  { filters := c.filters
    adapts := (c.state = .converging || c.state = .converged) && !f.doubleTalk && !f.settle && !f.gap
      && s.highway.state = .inSync
    shift := c.shift
    floor := 64 * (Config.segmentTaps * c.segments.length)
    taps := Config.segmentTaps * c.segments.length
    target := if c.state = .converged ∧ f.doubleTalk = false ∧ s.sendSpeaking l f.active = true
      then c.nlpAttenuation else Config.unity }

/-! ## The search (R104, R105) -/

/-- A report that the canceller makes on its own account. -/
inductive EcNews where
  | state | timeout
  deriving DecidableEq, Repr

/-- A fresh ERLE window with both runs at 0, at an entry to CONVERGING, CONVERGED or FROZEN (R109). -/
def Canceller.enter (c : Canceller) (x : EcState) : Canceller := { c with state := x, erle := .clear, goodRun := 0, poorRun := 0 }

/-- The candidate with the largest sum, the smallest among those that tie (R105). -/
def bestCandidate (sums : List Nat) : Nat :=
  (sums.zipIdx.foldl (fun (best : Nat × Nat) x => if best.1 < x.1 then (x.1, x.2) else best) (sums.headD 0, 0)).2

/-- The search after a block: its window block count, and its counted blocks and sums when the block counts (R104). -/
def Canceller.countSearch (c : Canceller) (rx : Block) (counted : Bool) : SearchProgress :=
  if counted then
    { c.search with
      blocks := c.search.blocks + 1
      counted := c.search.counted + 1
      sums := c.search.sums.zipIdx.map fun x => x.1 + (energy rx / 1024) * (energy (c.reference x.2) / 1024) }
  else { c.search with blocks := c.search.blocks + 1 }

/-- A block accounted to the search, with the judgement of a window that it completes (R104, R105). -/
def Canceller.accountSearch (c : Canceller) (rx : Block) (counted : Bool) : Canceller × Option EcNews :=
  let p := c.countSearch rx counted
  if p.blocks < Config.searchBlocks then ({ c with search := p }, none)
  else if Config.searchCounted ≤ p.counted then
    ({ c with search := p, bulkDelay := bestCandidate p.sums - 1 }.enter .converging, some .state)
  else
    let failed := { SearchProgress.clear with failed := p.failed + 1 }
    if failed.failed < Config.searchFailures then ({ c with search := failed }, none)
    else ({ c with search := failed, bulkDelay := 0 }.enter .converging, some .timeout)

/-! ## The ERLE window (R109 to R111) -/

/-- The runs and the state after a completed window (R110). -/
def Canceller.judgeWindow (c : Canceller) (w : ErleWindow) : Canceller × Option EcNews :=
  if w.qualifying < Config.erleQualifying then (c, none)
  else
    match c.state with
    | .converging =>
      if 64 * (w.se + 1) ≤ w.srx then
        if c.goodRun + 1 < 2 then ({ c with goodRun := c.goodRun + 1 }, none) else (c.enter .converged, some .state)
      else ({ c with goodRun := 0 }, none)
    | .converged =>
      if w.srx < 4 * (w.se + 1) then
        if c.poorRun + 1 < 4 then ({ c with poorRun := c.poorRun + 1 }, none) else (c.enter .converging, some .state)
      else ({ c with poorRun := 0 }, none)
    | .off _ => (c, none)
    | .search => (c, none)
    | .frozen => (c, none)

/-- The window after a block (R109). -/
def ErleWindow.add (w : ErleWindow) (rx errors : Block) (qualifies : Bool) : ErleWindow :=
  if qualifies then ⟨w.blocks + 1, w.qualifying + 1, w.srx + energy rx, w.se + energy errors⟩
  else { w with blocks := w.blocks + 1 }

/-- A block accounted to the ERLE window, with the judgement and the capture of a window that it completes (R109 to R111). -/
def Canceller.accountErle (c : Canceller) (rx errors : Block) (qualifies : Bool) : Canceller × Option EcNews :=
  let w := c.erle.add rx errors qualifies
  if w.blocks < Config.erleBlocks then ({ c with erle := w }, none)
  else
    let count := sat32Count c.windows 1
    { c with erle := .clear, windows := count, stats := some ⟨w.srx, w.se, w.qualifying, count⟩ }.judgeWindow w

/-- A block accounted as the canceller's state calls for (R103 step 4). -/
def Canceller.account (c : Canceller) (rx errors : Block) (valid : Bool) (f : Findings) : Canceller × Option EcNews :=
  match c.state with
  | .off _ => (c, none)
  | .search => c.accountSearch rx (valid && !f.gap && !f.settle && f.active)
  | .converging => c.accountErle rx errors (f.active && !f.doubleTalk && valid && !f.gap)
  | .converged => c.accountErle rx errors (f.active && !f.doubleTalk && valid && !f.gap)
  | .frozen => c.accountErle rx errors (f.active && !f.doubleTalk && valid && !f.gap)

/-! ## The block event (R103) -/

/-- The reports of a canceller's own state changes (R105, R110). -/
def State.ecNews (s : State) (l : LegId) : Option EcNews → State
  | none => s
  | some .state => s.report (.ecState l (s.leg l).ec.state (s.leg l).ec.bulkDelay)
  | some .timeout => s.report (.ecSearchTimeout l (s.leg l).ec.bulkDelay)

/-- The canceller's block event (R103). -/
def State.ecBlock (s : State) (l : LegId) : State :=
  let c := (s.leg l).ec
  let rx := tget s.highway.receive l
  let valid := s.highway.valid
  let f := c.judge rx valid
  let w := EcWork.run (s.blockPlan l f) c.stream ⟨c.taps, c.nlpGain, [], []⟩ rx
  let worked := { c.countDown rx valid with taps := w.taps, nlpGain := w.gain }
  let r := worked.account rx w.errors.reverse valid f
  let t := { s with sources := { s.sources with
    rx := tset s.sources.rx l (if valid then w.out.reverse else zeroBlock) } }.modEc l fun _ => r.1
  t.ecNews l r.2

/-! ## Opening and closing (R92, R96, R119) -/

/-- The open column of Table 5-3 (R96), OFF for the cause given until a grant starts the canceller. -/
def Canceller.openColumn (c : Canceller) (cause : OffCause) (mode : DelayMode) (d : Nat) : Canceller :=
  { c with
    state := .off cause, segments := [], taps := [], mode := mode, fixedDelay := d
    bulkDelay := match mode with | .fixed => d | .auto => 0
    nlpAttenuation := 1024, nlpGain := Config.unity, search := .clear, doubleTalk := 0, settle := 0
    erle := .clear, goodRun := 0, poorRun := 0, windows := 0, stats := none }

/-- The grant that R92 gives for a tail when F segments are free. -/
def openGrant (free tail : Nat) : Nat := if tail ≤ free then tail else if 2 ≤ free then free else 0

/-- A leg's canceller is opened, with its grant, its shortfall, its EC_TAPS report and the pass over a queue that was empty
(R92, R94, R96). -/
def State.openEc (s : State) (l : LegId) (tail : Nat) (mode : DelayMode) (d : Nat) : State :=
  if tail = 0 then s.modEc l fun c => c.openColumn .disabled mode d
  else
    let n := openGrant s.pool.free.length tail
    let t := (s.modEc l fun c => c.openColumn .noTaps mode d).grantSegments l n
    let t := if n < tail then t.setShortfall l (tail - n) else t
    (t.report (.ecTaps l n (tail - n))).topUpPass

/-- The canceller as a close leaves it (R119). -/
def Canceller.close (c : Canceller) : Canceller :=
  { c with
    state := .off .idle, segments := [], taps := [], search := .clear, doubleTalk := 0, settle := 0
    erle := .clear, goodRun := 0, poorRun := 0, windows := 0, stats := none }

/-- A leg's canceller is closed: its segments return, its shortfall entry leaves (R95, R119). The pass comes after it. -/
def State.closeEc (s : State) (l : LegId) : State :=
  ((s.cutSegments l 0).dropShortfall l).modEc l Canceller.close

/-! ## EC_CONFIG (R114 to R117) -/

/-- A delay mode as an owner reads it, the delay clamped to 32 blocks, and 0 for AUTO (R36, R114, Table 5-3). -/
def delayOf : DelayField → Option (DelayMode × Nat)
  | .auto => some (.auto, 0)
  | .fixed d => some (.fixed, min d Config.maxDelay)
  | .other _ => none

/-- A tail in an accepted EC_CONFIG (R115). -/
def State.setTail (s : State) (l : LegId) (tail : Nat) : State :=
  let held := (s.leg l).ec.segments.length
  let t :=
    if tail < held then (s.cutSegments l tail).dropShortfall l
    else if tail = held then s.dropShortfall l
    else (s.setShortfall l (tail - held)).modEc l fun c =>
      if c.state = .off .disabled then { c with state := .off .noTaps } else c
  let t := if tail = 0 then t.modEc l fun c => { c with state := .off .disabled } else t
  t.topUpPass

/-- The actions of EC_CONFIG, in the order of R114. -/
inductive EcAction where
  | none | reset | freeze | unfreeze
  deriving DecidableEq, Repr

/-- The action that a byte names (R114). -/
def actionOf (b : Nat) : Option EcAction :=
  if b = 0 then some .none else if b = 1 then some .reset else if b = 2 then some .freeze
  else if b = 3 then some .unfreeze else Option.none

/-- The action's effect on the canceller (R116, R117). -/
def Canceller.act (c : Canceller) : EcAction → Canceller
  | .none => c
  | .reset =>
    let cleared := { c with
      taps := c.taps.map fun _ => 0, search := .clear, doubleTalk := 0, settle := 0
      erle := .clear, goodRun := 0, poorRun := 0, stats := none }
    if c.segments = [] then cleared else cleared.startPoint
  | .freeze => if c.state = .converging ∨ c.state = .converged then c.enter .frozen else c
  | .unfreeze => if c.state = .frozen then c.enter .converging else c

/-- FREEZE is refused for the canceller, or by a tail of 0 in the same request (R114). -/
def Canceller.cannotFreeze (c : Canceller) (tail : Option Nat) : Bool :=
  !(c.state = .converging || c.state = .converged) || tail = some 0

/-- An accepted EC_CONFIG: its parts in the order of R114. -/
def State.ecConfigure (s : State) (l : LegId) (tail : Option Nat) (delay : Option (DelayMode × Nat)) (nlp : Option Nat)
    (action : EcAction) : State :=
  let t := match nlp with | some a => s.modEc l fun c => { c with nlpAttenuation := clamp 0 16384 a } | none => s
  let t := match delay with
    | some d => t.modEc l fun c => { c with mode := d.1, fixedDelay := d.2 }
    | none => t
  let t := match tail with | some n => t.setTail l (min n Config.maxTail) | none => t
  t.modEc l fun c => c.act action

/-- The owner's part of EC_CONFIG (R114); its RANGE checks come ahead of its BUSY checks (DESIGN CHOICE, log 37). -/
def ownEcConfig (f : EcFields) (s : State) : Handled :=
  match toId 64 f.leg, actionOf f.action with
  | some l, some action =>
    match f.delay.map delayOf with
    | some none => refuse s .range
    | some (some d) => decide' l action (some d)
    | none => decide' l action none
  | _, _ => refuse s .range
where
  decide' (l : LegId) (action : EcAction) (delay : Option (DelayMode × Nat)) : Handled :=
    if (s.leg l).state = .idle then refuse s .busy
    else if action = .freeze ∧ (s.leg l).ec.cannotFreeze f.tail = true then refuse s .busy
    else accept (s.ecConfigure l f.tail delay f.nlp action)

/-! ## The commands -/

/-- EC_BLOCK_EVENT (R103). -/
def execEcBlockEvent (l : LegId) (s : State) : Result := .next (s.ecBlock l)

/-- SEARCH_WINDOW_END: the block event that brings the window block count to 250 in SEARCH (R105); otherwise there is no such event
(log 1). -/
def execSearchWindowEnd (l : LegId) (s : State) : Result :=
  .next (if (s.leg l).ec.state = .search ∧ Config.searchBlocks ≤ (s.leg l).ec.search.blocks + 1 then s.ecBlock l else s)

/-- ERLE_WINDOW_END: the block event that brings the ERLE window block count to 25 (R109, R110); otherwise there is no such event
(log 1). -/
def execErleWindowEnd (l : LegId) (s : State) : Result :=
  .next (if (s.leg l).ec.filters = true ∧ Config.erleBlocks ≤ (s.leg l).ec.erle.blocks + 1 then s.ecBlock l else s)

/-- EC_CONFIG (R114). -/
def execEcConfig (tag : Byte) (q : Payload EcFields) (s : State) : Result := .next (serve 0x16 tag ecFields q ownEcConfig s)

end Sys2Proof.Machine
end

