-- ==== Sys2Proof/Machine/Suppressor.lean ====
section
/-! DEFINITION. The uplink noise suppressor: energy, speech decision, noise floor, voice activity state and suppression gain of a drawn
block (R75 to R89). -/

namespace Sys2Proof.Machine

/-- The speech decision (R78). -/
def Suppressor.isSpeech (n : Suppressor) (cfg : PositionConfig) (e : Nat) : Bool := n.floor * cfg.nsRatio ≤ e

/-- The noise floor after a block of energy e (R79). -/
def nextFloor (floor e : Nat) (speech : Bool) : Nat :=
  if e < floor then max 16 e
  else if speech then floor
  else min 67108864 (floor + floor / 256 + 1)

/-- The voice activity state and hangover count after a drawn block (R80, R81, Table 4-3). -/
def nextVad (vad : Vad) (count hangover : Nat) (speech : Bool) : Vad × Nat :=
  if speech then (.speech, 0)
  else
    match vad with
    | .quiet => (.quiet, count)
    | .speech => if hangover = 0 then (.quiet, 0) else (.hangover, hangover)
    | .hangover => if count ≤ 1 then (.quiet, 0) else (.hangover, count - 1)

/-- The suppression gain after a sample (R82). -/
def nextGain (g target attack release : Nat) : Nat :=
  if g < target then min (g + attack) target
  else if target < g then max (g - release) target
  else g

/-- The samples of a drawn block scaled one by one, and the gain after them (R82). -/
def suppress (target attack release : Nat) : Nat → List Sample → List Sample × Nat
  | g, [] => ([], g)
  | g, x :: xs =>
    match suppress target attack release (nextGain g target attack release) xs with
    | (out, last) => (scale x g :: out, last)

/-- A drawn block through the suppressor: its state after the block, MIC(p), and whether the block is a speech onset (R77 to R83, R87). -/
def Suppressor.analyse (n : Suppressor) (cfg : PositionConfig) (raw : Block) : Suppressor × Block × Bool :=
  let e := energy raw
  let speech := n.isSpeech cfg e
  let next := nextVad n.vad n.hangover cfg.nsHangover speech
  let target := if next.1 = .quiet then cfg.nsAttenuation else Config.unity
  let r := suppress target cfg.nsAttack cfg.nsRelease n.gain raw
  let onset := speech && n.vad ≠ .speech
  if cfg.nsEnable then (⟨nextFloor n.floor e speech, next.1, next.2, r.2⟩, r.1, onset)
  else (⟨nextFloor n.floor e speech, next.1, next.2, Config.unity⟩, raw, onset)

/-- The change a departure from LIVE makes (R84). -/
def Suppressor.leave (n : Suppressor) : Suppressor := { n with vad := .quiet, hangover := 0 }

end Sys2Proof.Machine
end

