-- ==== Sys2Proof/Machine/Ports.lean ====
section
/-! DEFINITION. Headset ports: the headset link, the port states, the elastic buffers, parity concealment, buttons and the release
sequence (R1 to R23), and the port's events. -/

namespace Sys2Proof.Machine

/-! ## Buttons (R18 to R21) -/

/-- The four buttons. -/
inductive Button where
  | mute | volUp | volDown | talk
  deriving DecidableEq, Repr

/-- One button's value. -/
def buttonOf {α : Type} (b : Buttons α) : Button → α
  | .mute => b.mute
  | .volUp => b.volUp
  | .volDown => b.volDown
  | .talk => b.talk

/-- The buttons with one value replaced. -/
def setButton {α : Type} (b : Buttons α) (x : α) : Button → Buttons α
  | .mute => { b with mute := x }
  | .volUp => { b with volUp := x }
  | .volDown => { b with volDown := x }
  | .talk => { b with talk := x }

/-- The volume after a press of VOL_UP (R20). -/
def volumeUp (v : Nat) : Nat := min 32767 (v + v / 8 + 1)

/-- The volume after a press of VOL_DOWN (R20). -/
def volumeDown (v : Nat) : Nat := max 1024 (v - v / 8)

/-- A press of a volume button acts in LOCAL and is reported in either mode (R20). -/
def State.volumePress (s : State) (p : PosId) (up : Bool) : State :=
  let v := (s.pos p).earVolume
  let after := match (s.pos p).config.volumeMode with
    | .localVolume => if up then volumeUp v else volumeDown v
    | .reportOnly => v
  (s.modPos p fun x => { x with earVolume := after }).report (.volumeButton p up after)

/-- The action of the MUTE button (R19). -/
def State.muteButton (s : State) (p : PosId) (pressed : Bool) : State :=
  match (s.pos p).config.muteMode with
  | .toggle => if pressed then s.setMute p (!(s.pos p).mute) .button else s
  | .push => s.setMute p pressed .button
  | .off => s

/-- A press or a release of a button (R18 to R21). -/
def State.buttonAct (s : State) (p : PosId) (b : Button) (pressed : Bool) : State :=
  match b with
  | .mute => s.muteButton p pressed
  | .volUp => if pressed then s.volumePress p true else s
  | .volDown => if pressed then s.volumePress p false else s
  | .talk => s.report (.talkButton p pressed)

/-- One button of a good frame: its run toward a change, and the change at the fourth frame (R18). -/
def State.debounce (s : State) (p : PosId) (b : Button) (shown : Bool) : State :=
  let d := buttonOf (s.pos p).port.buttons b
  let put (x : Debounce) : State := s.modPort p fun y => { y with buttons := setButton y.buttons x b }
  if shown = d.pressed then put { d with run := 0 }
  else if d.run + 1 < Config.debounceFrames then put { d with run := d.run + 1 }
  else (put ⟨shown, 0⟩).buttonAct p b shown

/-- The control slot of a good frame (R18). That the buttons of one frame act and report in the order MUTE, VOL_UP, VOL_DOWN, TALK is the
model's choice (DESIGN CHOICE, log 29). -/
def State.controlSlot (s : State) (p : PosId) (shown : Buttons Bool) : State :=
  [Button.mute, .volUp, .volDown, .talk].foldl (fun t b => t.debounce p b (buttonOf shown b)) s

/-- A pressed button taken as released when the port leaves LIVE (R18). -/
def State.releaseButton (s : State) (p : PosId) (b : Button) : State :=
  if (buttonOf (s.pos p).port.buttons b).pressed then
    (s.modPort p fun y => { y with buttons := setButton y.buttons .released b }).buttonAct p b false
  else s.modPort p fun y => { y with buttons := setButton y.buttons .released b }

/-- Each pressed button taken as released (R18), in the order of `State.controlSlot` (DESIGN CHOICE, log 29). -/
def State.releaseButtons (s : State) (p : PosId) : State :=
  [Button.mute, .volUp, .volDown, .talk].foldl (fun t b => t.releaseButton p b) s

/-! ## Transitions -/

/-- A new acquisition (R4, R9, R10, R11). -/
def Port.acquire (x : Port) : Port :=
  { x with
    state := .acquiring, interval := none, previous := none, measured := false, noFrames := false, rateFault := false }

/-- Entry to ABSENT (R3, R5). -/
def Port.enterAbsent (x : Port) : Port :=
  { x with state := .absent, insertCount := 0, unplugCount := 0, window := none }

/-- What leaving LIVE does to the link: both buffers emptied and the priming ended (R12, R15). -/
def Port.leaveLive (x : Port) : Port :=
  { x with
    uplink := { x.uplink with samples := [] }, downlink := { x.downlink with samples := [] }, priming := false }

/-- Entry to LIVE, before its report (R8, R84). -/
def Position.enterLive (x : Position) : Position :=
  { x with
    ns := .initial
    port := { x.port with
      state := .live
      uplink := { x.port.uplink with samples := [] }
      priming := true
      downlink := { x.port.downlink with samples := List.replicate Config.downlinkLoad 0 }
      badRun := 0
      lastGood := none
      buttons := ⟨.released, .released, .released, .released⟩
      window := none
      qualCount := 0 } }

/-- Entry to LIVE (R8). -/
def State.enterLive (s : State) (p : PosId) : State := (s.modPos p Position.enterLive).report (.portLive p)

/-- A LIVE port's buttons, buffers and suppressor as it leaves LIVE; nothing for a port in another state (R12, R15, R18, R84). -/
def State.leaveLive (s : State) (p : PosId) : State :=
  if s.isLive p then
    (s.releaseButtons p).modPos p fun x => { x with port := x.port.leaveLive, ns := x.ns.leave }
  else s

/-! ## The release sequence (R23) -/

/-- Step 1: the whisper queue is flushed, each entry reported (R23, R174). All its WHISPER_ABORTED reports are made before the head's
request is undone, with the grants and reports that this can set off (DESIGN CHOICE, log 34). -/
def State.releaseWhispers (s : State) (p : PosId) : State :=
  match (s.pos p).whisper.entries with
  | [] => s
  | ws =>
    let t := s.modWhisper p fun q => { q with entries := [] }
    (ws.foldl (fun t w => t.report (.whisperAborted (w.reportOf p (some .release)))) t).headRemoved p

/-- The state a CONNECTING leg returns to. -/
def Leg.originState (x : Leg) : LegState :=
  match x.origin with
  | some .held => .held
  | some .opened => .opened
  | none => .opened

/-- A CONNECTING leg returns to its origin and its position is freed (R43, R46). -/
def State.abortConnect (s : State) (l : LegId) : State :=
  (s.detach l).modLeg l fun x => { x with state := x.originState, origin := none }

/-- Step 2: a leg CONNECTING to the position returns to its origin (R46). -/
def State.releaseConnecting (s : State) (p : PosId) : State :=
  match (s.pos p).leg with
  | some l => if (s.leg l).state = .connecting then (s.abortConnect l).report (.connectAborted l p) else s
  | none => s

/-- An ACTIVE or OPEN leg goes HELD on a plan or none; from ACTIVE its position is freed and its canceller given notice
(R37, R39, R45, R47). -/
def State.holdLeg (s : State) (l : LegId) (plan : Option PlanId) : State :=
  let t := if (s.leg l).state = .active then (s.detach l).notice l else s
  (t.modLeg l fun x => { x with state := .held }).beginSession l plan

/-- The fallback plan of a position, none when it names a plan not defined at this moment (R23, R45). -/
def State.fallbackPlan (s : State) (p : PosId) : Option PlanId :=
  match (s.pos p).config.fallback with
  | some h => if (s.plan h).record.isSome then some h else none
  | none => none

/-- Step 3: a leg ACTIVE on the position goes on automatic hold (R45). -/
def State.releaseActive (s : State) (p : PosId) (cause : ReleaseCause) : State :=
  match (s.pos p).leg with
  | some l =>
    if (s.leg l).state = .active then
      (s.holdLeg l (s.fallbackPlan p)).report (.legState l .held cause (s.leg l).last (s.fallbackPlan p))
    else s
  | none => s

/-- A supervision ends: the record becomes absent; one ended in BARGE on an agent with an ACTIVE leg gives that leg the barge-end
notice (R179, R180). -/
def State.endSupervision (s : State) (q : PosId) : State :=
  match (s.pos q).supervision with
  | none => s
  | some r =>
    let t := s.modPos q fun x => { x with supervision := none }
    if r.mode = .barge then match s.activeLeg r.agent with | some l => t.notice l | none => t else t

/-- The supervision kept by a position ends and is reported with the cause of the release sequence (R180). -/
def State.releaseRecord (s : State) (q : PosId) (cause : ReleaseCause) : State :=
  match (s.pos q).supervision with
  | none => s
  | some r => (s.endSupervision q).report (.supervisionEnded q r.agent r.mode cause)

/-- Step 4: a supervision in which the position is supervisor or supervised agent ends (R180). -/
def State.releaseSupervision (s : State) (p : PosId) (cause : ReleaseCause) : State :=
  let t := s.releaseRecord p cause
  match t.supervisorOf p with
  | some q => t.releaseRecord q cause
  | none => t

/-- The release sequence: its five steps in order (R23). -/
def State.releaseSequence (s : State) (p : PosId) (cause : ReleaseCause) : State :=
  let t := ((s.releaseWhispers p).releaseConnecting p).releaseActive p cause
  let t := (t.releaseSupervision p cause).setMute p false .release
  t.modPos p fun x => { x with earVolume := x.config.earVolume }

/-! ## Unplug, expiry and lock loss -/

/-- The unplug takes the port: the release sequence when R5 calls for it, then ABSENT and HEADSET_REMOVED (R5). -/
def State.takeUnplug (s : State) (p : PosId) : State :=
  let x := (s.pos p).port
  let t := s.leaveLive p
  let runs := x.state = .live ∨ x.state = .lost
    ∨ ((x.state = .acquiring ∨ x.state = .qualifying) ∧ x.window.isSome = true)
  let t := if runs then t.releaseSequence p .unplug else t
  ((t.modPort p Port.enterAbsent).report (.headsetRemoved p)).finish s

/-- The recovery window expires (R11). -/
def State.takeExpiry (s : State) (p : PosId) : State :=
  let t := (s.modPort p fun x => { x with window := none }).releaseSequence p .linkLost
  ((t.report (.portRecoveryExpired p)).modPort p Port.acquire).finish s

/-- Lock loss in LIVE (R9). -/
def State.takeLockLoss (s : State) (p : PosId) : State :=
  let t := (s.leaveLive p).modPort p fun x => { x with
    state := .lost, missing := 0, parityCount := 0, parityAlert := false, window := some 0 }
  (t.report (.portLost p)).finish s

/-! ## Up-frames -/

/-- The offset in ppm that an interval of 256 frames gives: truncated toward zero and saturated (R6). -/
def measureOffset (elapsed : Nat) : Int :=
  let nominal : Int := Config.measureFrames * Config.clockUnitsPerFrame
  sat16Int (((nominal - elapsed) * 1000000).tdiv elapsed)

/-- The offset lies within −300..+300 ppm (R6). -/
def inRange (m : Int) : Bool := -Config.ppmLimit ≤ m && m ≤ Config.ppmLimit

/-- Two measurements form a qualifying pair (R6). -/
def qualifies (hysteresis : Nat) (m before : Int) : Bool :=
  (m - before).natAbs ≤ hysteresis && inRange m && inRange before

/-- Entry to QUALIFYING; with Q at 0 the port passes straight through to LIVE (R8, R9). -/
def State.enterQualifying (s : State) (p : PosId) (time : Nat) : State :=
  let t := s.modPort p fun x => { x with state := .qualifying, qualCount := 0, missing := 0, timing := some time }
  if (s.pos p).config.qualification = 0 then t.enterLive p else t

/-- A measurement closes: kept as the last offset, reported once when out of range, and judged with the one before (R6, R7). -/
def State.closeMeasurement (s : State) (p : PosId) (time elapsed : Nat) : State :=
  let m := measureOffset elapsed
  let before := (s.pos p).port.previous
  let t := s.modPort p fun x => { x with
    lastOffset := m, measured := true, previous := some m, interval := some ⟨time, 0⟩ }
  let t := if inRange m = false ∧ (s.pos p).port.rateFault = false then
      (t.modPort p fun x => { x with rateFault := true }).report (.rateFault p m)
    else t
  match before with
  | some b => if qualifies (s.pos p).config.hysteresis m b then t.enterQualifying p time else t
  | none => t

/-- An up-frame counted in ACQUIRING (R1, R6, R7). -/
def State.countFrame (s : State) (p : PosId) (time : Nat) : State :=
  let t := s.modPort p fun x => { x with noFrames := false, frameSeen := true }
  match (s.pos p).port.interval with
  | none => t.modPort p fun x => { x with interval := some ⟨time, 0⟩ }
  | some i =>
    if i.frames + 1 < Config.measureFrames then
      t.modPort p fun x => { x with interval := some { i with frames := i.frames + 1 } }
    else t.closeMeasurement p time (time - i.openedAt)

/-- The samples that replace a bad frame's: the last good frame's in the first two of a run, zeros after that (R16). -/
def Port.concealed (x : Port) : List Sample :=
  if x.badRun < 2 then x.lastGood.getD (List.replicate Config.frameSamples 0) else List.replicate Config.frameSamples 0

/-- A good up-frame in LIVE (R1, R12, R16, R18). -/
def State.goodFrame (s : State) (p : PosId) (f : UpFrame) : State :=
  let t := (s.modPort p fun x => { x with
    uplink := (let free := Config.elasticPlaces - x.uplink.samples.length
      if f.samples.length ≤ free then { x.uplink with samples := x.uplink.samples ++ f.samples }
      else { x.uplink with
        samples := x.uplink.samples ++ f.samples.take free, overruns := sat16Count x.uplink.overruns 1 })
    badRun := 0, lastGood := some f.samples }).controlSlot p f.buttons
  if (t.pos p).port.buttons.talk.pressed = (s.pos p).port.buttons.talk.pressed then t else t.finish s

/-- A bad up-frame in LIVE: concealed and counted, with the alert when the count reaches the threshold (R16, R17). -/
def State.badFrame (s : State) (p : PosId) : State :=
  let count := sat16Count (s.pos p).port.parityCount 1
  let alert := (s.pos p).config.parityThreshold ≤ count ∧ (s.pos p).port.parityAlert = false
  let t := s.modPort p fun x => { x with
    uplink := (let free := Config.elasticPlaces - x.uplink.samples.length
      if x.concealed.length ≤ free then { x.uplink with samples := x.uplink.samples ++ x.concealed }
      else { x.uplink with
        samples := x.uplink.samples ++ x.concealed.take free, overruns := sat16Count x.uplink.overruns 1 })
    badRun := x.badRun + 1
    parityCount := count }
  if alert then (t.modPort p fun x => { x with parityAlert := true }).report (.parityAlert p count) else t

/-- The parity of an up-frame is good (R1). -/
def goodParity (f : UpFrame) : Bool :=
  evenParity f.samples [f.buttons.mute, f.buttons.volUp, f.buttons.volDown, f.buttons.talk] f.parity

/-- The frame timing re-aligned and the missing-frame count reset (R9). -/
def Port.realign (x : Port) (time : Nat) : Port := { x with timing := some time, missing := 0, frameSeen := true }

/-- An up-frame arrives (R1). -/
def State.upFrame (s : State) (p : PosId) (f : UpFrame) (time : Nat) : State :=
  match (s.pos p).port.state with
  | .disabled => s
  | .absent => s
  | .detected => s
  | .acquiring => s.countFrame p time
  | .qualifying => s.modPort p fun x => x.realign time
  | .live =>
    let t := s.modPort p fun x => x.realign time
    if goodParity f then t.goodFrame p f else t.badFrame p
  | .lost => s.modPort p fun x => { x.acquire with frameSeen := true }

/-! ## Down-frames -/

/-- Sixteen samples taken from the downlink buffer, completed when it holds fewer (R15). -/
def Elastic.takeFrame (b : Elastic) : Elastic × List Sample :=
  if Config.frameSamples ≤ b.samples.length then
    ({ b with samples := b.samples.drop Config.frameSamples }, b.samples.take Config.frameSamples)
  else
    ({ b with samples := [], underruns := sat16Count b.underruns 1 },
      b.samples ++ List.replicate (Config.frameSamples - b.samples.length) (b.samples.getLast?.getD 0))

/-- A down-frame with its lamps and its parity bit (R2). -/
def State.makeDownFrame (s : State) (p : PosId) (samples : List Sample) : DownFrame where
  samples := samples
  muteLamp := s.muteLamp p
  busyLamp := s.busyLamp p
  parity := !evenParity samples [s.muteLamp p, s.busyLamp p] false

/-- A down-frame is sent, in QUALIFYING and LIVE (R2, R15). -/
def State.downFrame (s : State) (p : PosId) : State :=
  match (s.pos p).port.state with
  | .qualifying => s.modPort p fun x => { x with
      downFrame := some (s.makeDownFrame p (List.replicate Config.frameSamples 0)) }
  | .live => s.modPort p fun x => { x with
      downlink := x.downlink.takeFrame.1, downFrame := some (s.makeDownFrame p x.downlink.takeFrame.2) }
  | .disabled => s
  | .absent => s
  | .detected => s
  | .acquiring => s
  | .lost => s

/-! ## Missing frames -/

/-- An expected frame time passes with no up-frame starting (R9). -/
def State.frameMissed (s : State) (p : PosId) : State :=
  let count := (s.pos p).port.missing + 1
  match (s.pos p).port.state with
  | .qualifying =>
    if Config.missingLimit ≤ count then s.modPort p fun x => { x.acquire with missing := 0 }
    else s.modPort p fun x => { x with missing := count }
  | .live =>
    if Config.missingLimit ≤ count then s.takeLockLoss p
    else s.modPort p fun x => { x with missing := count }
  | .disabled => s
  | .absent => s
  | .detected => s
  | .acquiring => s
  | .lost => s

/-! ## The port's block event -/

/-- What a draw from the uplink buffer gives: the buffer, the raw block, and whether a sample came from the buffer (R13, R76). -/
def Elastic.draw (b : Elastic) : Elastic × Block × Bool :=
  let fill := b.samples.length
  let short (counted : Elastic) : Elastic × Block × Bool :=
    ({ counted with samples := [] },
      b.samples ++ List.replicate (Config.blockSamples - fill) (b.samples.getLast?.getD 0), 0 < fill)
  let under : Elastic := { b with underruns := sat16Count b.underruns 1 }
  let slip : Elastic := { b with slips := sat16Count b.slips 1 }
  if (Config.slipHigh : Int) ≤ (fill : Int) - 32 then
    ({ slip with samples := b.samples.drop 65 }, (b.samples.drop 1).take 64, true)
  else if (fill : Int) - 32 ≤ (Config.slipLow : Int) then
    if fill < 63 then short under
    else ({ slip with samples := b.samples.drop 63 }, b.samples.take 63 ++ ((b.samples.take 63).getLast?).toList, true)
  else if fill < Config.blockSamples then short under
  else ({ b with samples := b.samples.drop 64 }, b.samples.take 64, true)

/-- MIC(p) for the period. -/
def State.putMic (s : State) (p : PosId) (b : Block) : State :=
  { s with sources := { s.sources with mic := tset s.sources.mic p b } }

/-- A speech onset reaches the position's whisper queue (R87, R172). -/
def State.speechOnset (s : State) (p : PosId) : State :=
  match (s.pos p).whisper.entries, (s.pos p).whisper.head with
  | w :: _, .granted e =>
    match w.kind with
    | .prompt true _ => if (s.eng e).state = .playing then (s.run [.stop e .stopped]).finish s else s
    | .prompt false _ => s
    | .call _ => s
  | _, _ => s

/-- The LIVE port draws the raw block and the suppressor makes MIC(p) of it (R13, R76). -/
def State.drawMic (s : State) (p : PosId) : State :=
  let x := (s.pos p).port
  if x.priming ∧ x.uplink.samples.length < Config.primingFill then s.putMic p zeroBlock
  else
    let d := x.uplink.draw
    let t := s.modPort p fun y => { y with uplink := d.1, priming := false }
    if d.2.2 then
      let r := (s.pos p).ns.analyse (s.pos p).config d.2.1
      let t := (t.modPos p fun y => { y with ns := r.1 }).putMic p r.2.1
      if r.2.2 then t.speechOnset p else t
    else t.putMic p zeroBlock

/-- The two orders in which transitions that fall at one block event may be taken (R11). -/
inductive EventOrder where
  | unplugFirst | expiryFirst | liveFirst
  deriving DecidableEq, Repr

/-- The presence line sampled in DETECTED, ACQUIRING, QUALIFYING, LIVE or LOST (R5). -/
def Port.sampleUnplug (x : Port) (presence : Bool) : Port :=
  { x with presence := presence, unplugCount := if presence then 0 else x.unplugCount + 1 }

/-- The sampling has made an unplug that has not been taken (R5). -/
def State.unplugDue (s : State) (p : PosId) : Bool :=
  Config.unplugBlocks ≤ (s.pos p).port.unplugCount && (s.pos p).port.state ≠ .absent && (s.pos p).port.state ≠ .disabled

/-- An unplug that is due is taken. -/
def State.unplugIfDue (s : State) (p : PosId) : State := if s.unplugDue p then s.takeUnplug p else s

/-- The window's count has reached R (R10, R11). -/
def State.expiryDue (s : State) (p : PosId) : Bool :=
  match (s.pos p).port.window with
  | some c => (s.pos p).config.recovery ≤ c
  | none => false

/-- An expiry that is due is taken. -/
def State.expiryIfDue (s : State) (p : PosId) : State := if s.expiryDue p then s.takeExpiry p else s

/-- The qualification count has reached Q (R8). -/
def State.liveDue (s : State) (p : PosId) : Bool :=
  (s.pos p).port.state = .qualifying && (s.pos p).config.qualification ≤ (s.pos p).port.qualCount

/-- An entry to LIVE that is due is taken. -/
def State.liveIfDue (s : State) (p : PosId) : State := if s.liveDue p then s.enterLive p else s

/-- The counts that the block event raises: the window's and the qualification's (R8, R10). -/
def Port.countBlock (x : Port) : Port :=
  { x with
    window := x.window.map (· + 1)
    qualCount := if x.state = .qualifying then x.qualCount + 1 else x.qualCount }

/-- The no-frames indication at a block event in ACQUIRING (R7); the next block event looks back to this one. -/
def Port.judgeFrames (x : Port) : Port :=
  let y := if x.state = .acquiring ∧ x.frameSeen = false
    then { x with noFrames := true, interval := none, previous := none } else x
  { y with frameSeen := false }

/-- The transitions that fall at the block event, in one of the orders that the manual leaves open (R11, log 3). -/
def State.transitions (s : State) (p : PosId) : EventOrder → State
  | .unplugFirst => ((s.unplugIfDue p).expiryIfDue p).liveIfDue p
  | .expiryFirst => ((s.expiryIfDue p).unplugIfDue p).liveIfDue p
  | .liveFirst => ((s.liveIfDue p).unplugIfDue p).expiryIfDue p

/-- The block event of a port (R4, R5, R7, R8, R10, R11, R13). A LIVE port whose sampling makes the unplug draws nothing, and its MIC block
is zeros (DESIGN CHOICE, log 30). -/
def State.portBlock (s : State) (order : EventOrder) (p : PosId) (presence : Bool) : State :=
  match (s.pos p).port.state with
  | .disabled => s.putMic p zeroBlock
  | .absent =>
    let t := (s.modPort p fun x => { x with
      presence := presence, insertCount := if presence then x.insertCount + 1 else 0 }).putMic p zeroBlock
    if Config.insertionBlocks ≤ (t.pos p).port.insertCount then
      (t.modPort p fun x => { x with state := .detected }).report (.headsetInserted p)
    else t
  | .detected =>
    let t := (s.modPort p fun x => { (x.sampleUnplug presence) with frameSeen := false }).putMic p zeroBlock
    if t.unplugDue p then t.takeUnplug p else t.modPort p Port.acquire
  | .acquiring =>
    ((s.modPort p fun x => ((x.sampleUnplug presence).countBlock).judgeFrames).putMic p zeroBlock).transitions p order
  | .qualifying =>
    ((s.modPort p fun x => ((x.sampleUnplug presence).countBlock).judgeFrames).putMic p zeroBlock).transitions p order
  | .lost =>
    ((s.modPort p fun x => ((x.sampleUnplug presence).countBlock).judgeFrames).putMic p zeroBlock).transitions p order
  | .live =>
    let t := s.modPort p fun x => (x.sampleUnplug presence).judgeFrames
    if t.unplugDue p then (t.putMic p zeroBlock).takeUnplug p else t.drawMic p

/-! ## The commands -/

/-- UP_FRAME (R1). -/
def execUpFrame (p : PosId) (f : UpFrame) (time : Nat) (s : State) : Result := .next (s.upFrame p f time)

/-- DOWN_FRAME (R2). -/
def execDownFrame (p : PosId) (s : State) : Result := .next (s.downFrame p)

/-- EXPECTED_FRAME_MISSED (R9). -/
def execExpectedFrameMissed (p : PosId) (s : State) : Result := .next (s.frameMissed p)

/-- LOCK_LOSS: the expected frame time that brings the missing-frame count to 4 (R9); at any other count there is no such event
(log 1). -/
def execLockLoss (p : PosId) (s : State) : Result :=
  .next (if Config.missingLimit ≤ (s.pos p).port.missing + 1 then s.frameMissed p else s)

/-- PORT_BLOCK_EVENT (R13). -/
def execPortBlockEvent (p : PosId) (presence : Bool) (s : State) : Result := .next (s.portBlock .unplugFirst p presence)

/-- HEADSET_INSERTED: the sampling that brings the insertion count to 12 (R4); otherwise there is no such event (log 1). -/
def execHeadsetInserted (p : PosId) (s : State) : Result :=
  .next (if (s.pos p).port.state = .absent ∧ Config.insertionBlocks ≤ (s.pos p).port.insertCount + 1
    then s.portBlock .unplugFirst p true else s)

/-- ACQUISITION_START: the block event after DETECTED was entered (R4); in another state there is no such event (log 1). -/
def execAcquisitionStart (p : PosId) (presence : Bool) (s : State) : Result :=
  .next (if (s.pos p).port.state = .detected then s.portBlock .unplugFirst p presence else s)

/-- The port watches for an unplug (Table 1-1). -/
def Port.watched (x : Port) : Bool := x.state ≠ .absent && x.state ≠ .disabled

/-- UNPLUG: the sampling that brings the unplug count to 2 (R5); otherwise there is no such event (log 1). -/
def execUnplug (p : PosId) (s : State) : Result :=
  .next (if (s.pos p).port.watched = true ∧ Config.unplugBlocks ≤ (s.pos p).port.unplugCount + 1
    then s.portBlock .unplugFirst p false else s)

/-- PORT_LIVE: the block event that brings the qualification count to Q (R8); otherwise there is no such event (log 1). -/
def execPortLive (p : PosId) (presence : Bool) (s : State) : Result :=
  .next (if (s.pos p).port.state = .qualifying ∧ (s.pos p).config.qualification ≤ (s.pos p).port.qualCount + 1
    then s.portBlock .liveFirst p presence else s)

/-- RECOVERY_WINDOW_EXPIRY: the block event that brings the window's count to R (R11); otherwise there is no such event (log 1). -/
def execRecoveryWindowExpiry (p : PosId) (presence : Bool) (s : State) : Result :=
  .next (match (s.pos p).port.window with
    | some c => if (s.pos p).config.recovery ≤ c + 1 then s.portBlock .expiryFirst p presence else s
    | none => s)

/-- HANGOVER_END: the block event whose non-speech block ends the hangover (R81); otherwise there is no such event (log 1). -/
def execHangoverEnd (p : PosId) (presence : Bool) (s : State) : Result :=
  let t := s.portBlock .unplugFirst p presence
  .next (if (s.pos p).ns.vad ≠ .quiet ∧ (t.pos p).ns.vad = .quiet ∧ t.isLive p then t else s)

end Sys2Proof.Machine
end

