-- ==== Sys2Proof/Machine/Positions.lean ====
section
/-! DEFINITION. The host's requests about positions: PORT_ENABLE, PORT_DISABLE, POSITION_CONFIG, POSITION_MUTE, POSITION_STATUS and
POSITION_STATS (R3, R22, R24 to R27). -/

namespace Sys2Proof.Machine

/-- An owner that needs a position: an identifier beyond P31 is refused with RANGE (R189). -/
def withPosition (n : Nat) (s : State) (f : PosId → Handled) : Handled :=
  match toId 32 n with
  | some p => f p
  | none => refuse s .range

/-! ## Enable and disable (R3) -/

/-- PORT_ENABLE: a DISABLED port goes to ABSENT (R3). -/
def State.enablePort (s : State) (p : PosId) : State :=
  if (s.pos p).port.state = .disabled then s.modPort p Port.enterAbsent else s

/-- Entry to DISABLED: any recovery window ends (R3). -/
def Port.enterDisabled (x : Port) : Port := { x with state := .disabled, window := none, insertCount := 0, unplugCount := 0 }

/-- PORT_DISABLE: the release sequence first, when a headset was there, then DISABLED (R3). -/
def State.disablePort (s : State) (p : PosId) : State :=
  match (s.pos p).port.state with
  | .disabled => s
  | .absent => s.modPort p Port.enterDisabled
  | _ => ((((s.leaveLive p).releaseSequence p .portDisabled).modPort p Port.enterDisabled)).finish s

/-- The owner's part of PORT_ENABLE. -/
def ownPortEnable (n : Nat) (s : State) : Handled := withPosition n s fun p => accept (s.enablePort p)

/-- The owner's part of PORT_DISABLE. -/
def ownPortDisable (n : Nat) (s : State) : Handled := withPosition n s fun p => accept (s.disablePort p)

/-! ## Configuration (R24) -/

/-- The mute mode that a byte names (R19). -/
def muteModeOf (b : Nat) : Option MuteMode :=
  if b = 0 then some .toggle else if b = 1 then some .push else if b = 2 then some .off else none

/-- The volume mode that a byte names (R20). -/
def volumeModeOf (b : Nat) : Option VolumeMode :=
  if b = 0 then some .localVolume else if b = 1 then some .reportOnly else none

/-- The record as stored: every numeric field clamped to its range of Table 1-4; none when an enumerated field names no setting or the
fallback plan lies beyond H15 (R24). -/
def storedRecord (r : RecordFields) : Option PositionConfig := do
  let nsEnable ← flagOf r.nsEnable
  let fallback ← optionalId 16 r.fallback
  let muteMode ← muteModeOf r.muteMode
  let volumeMode ← volumeModeOf r.volumeMode
  let pushToTalk ← flagOf r.pushToTalk
  return {
    earVolume := clamp 1024 32767 r.earVolume
    sidetone := clamp 0 8192 r.sidetone
    limiterLevel := clamp 1024 32767 r.limiterLevel
    limiterRelease := clamp 1 64 r.limiterRelease
    nsEnable
    nsRatio := clamp 2 64 r.nsRatio
    nsHangover := clamp 0 500 r.nsHangover
    nsAttenuation := clamp 0 16384 r.nsAttenuation
    nsAttack := clamp 1 4096 r.nsAttack
    nsRelease := clamp 1 4096 r.nsRelease
    whisperGap := clamp 0 500 r.whisperGap
    whisperDuck := clamp 0 16384 r.whisperDuck
    whisperDeadline := clamp 25 2500 r.whisperDeadline
    fallback
    muteMode
    volumeMode
    pushToTalk
    qualification := clamp 0 250 r.qualification
    recovery := clamp 25 2500 r.recovery
    parityThreshold := clamp 1 65535 r.parityThreshold
    hysteresis := clamp 1 100 r.hysteresis }

/-- The record replaced, the current ear volume with it, and the destinations re-derived (R24). -/
def State.configure (s : State) (p : PosId) (c : PositionConfig) : State :=
  (s.modPos p fun x => { x with config := c, earVolume := c.earVolume }).finish s

/-- The owner's part of POSITION_CONFIG (R24). -/
def ownPositionConfig (f : ConfigFields) (s : State) : Handled :=
  withPosition f.position s fun p =>
    match storedRecord f.record with
    | some c => accept (s.configure p c)
    | none => refuse s .range

/-- The owner's part of POSITION_MUTE (R22). -/
def ownPositionMute (f : MuteFields) (s : State) : Handled :=
  withPosition f.position s fun p =>
    match flagOf f.value with
    | some v => accept (s.setMute p v .host)
    | none => refuse s .range

/-! ## Status and statistics (R26, R27) -/

/-- A position's part in a supervision (R26). -/
def State.superView (s : State) (p : PosId) : Option SuperView :=
  match (s.pos p).supervision with
  | some r => some (.supervises r.agent r.mode)
  | none =>
    match s.supervisorOf p with
    | some q => (s.pos q).supervision.map fun r => .supervisedBy q r.mode
    | none => none

/-- The attached or connecting leg and whether it is ACTIVE (R26). -/
def State.legView (s : State) (p : PosId) : Option (LegId × Bool) :=
  (s.pos p).leg.map fun l => (l, (s.leg l).state = .active)

/-- The reply fields of POSITION_STATUS (R26). -/
def State.positionStatus (s : State) (p : PosId) : PositionStatus :=
  let x := s.pos p
  { state := x.port.state
    presence := x.port.presence
    noFrames := x.port.noFrames
    lastOffset := x.port.lastOffset
    measured := x.port.measured
    windowLeft := x.port.window.map (x.config.recovery - ·)
    qualLeft := if x.port.state = .qualifying then some (x.config.qualification - x.port.qualCount) else none
    buttons := ⟨x.port.buttons.mute.pressed, x.port.buttons.volUp.pressed, x.port.buttons.volDown.pressed,
      x.port.buttons.talk.pressed⟩
    mute := x.mute
    configuredVolume := x.config.earVolume
    currentVolume := x.earVolume
    config := x.config
    muteLamp := s.muteLamp p
    busyLamp := s.busyLamp p
    leg := s.legView p
    supervision := s.superView p
    whisperEntries := x.whisper.entries.length
    vad := x.ns.vad
    parityAlert := x.port.parityAlert }

/-- The reply fields of POSITION_STATS (R27). -/
def Position.stats (x : Position) : PositionStats where
  parityCount := x.port.parityCount
  parityAlert := x.port.parityAlert
  uplinkSlips := x.port.uplink.slips
  uplinkUnderruns := x.port.uplink.underruns
  uplinkOverruns := x.port.uplink.overruns
  downlinkSlips := x.port.downlink.slips
  downlinkUnderruns := x.port.downlink.underruns
  downlinkOverruns := x.port.downlink.overruns
  shocks := x.limiter.shocks

/-- The counts that POSITION_STATS returns set to zero, with the parity alert flag (R27). -/
def Position.clearStats (x : Position) : Position :=
  { x with
    limiter := { x.limiter with shocks := 0 }
    port := { x.port with
      parityCount := 0
      parityAlert := false
      uplink := ⟨x.port.uplink.samples, 0, 0, 0⟩
      downlink := ⟨x.port.downlink.samples, 0, 0, 0⟩ } }

/-- The owner's part of POSITION_STATUS (R26). -/
def ownPositionStatus (n : Nat) (s : State) : Handled :=
  withPosition n s fun p => ⟨s, .ok, .positionStatus (s.positionStatus p)⟩

/-- The owner's part of POSITION_STATS (R27). -/
def ownPositionStats (n : Nat) (s : State) : Handled :=
  withPosition n s fun p => ⟨s.modPos p Position.clearStats, .ok, .positionStats (s.pos p).stats⟩

/-! ## The commands -/

/-- PORT_ENABLE (R3). -/
def execPortEnable (tag : Byte) (q : Payload Nat) (s : State) : Result := .next (serve 0x01 tag wordField q ownPortEnable s)

/-- PORT_DISABLE (R3). -/
def execPortDisable (tag : Byte) (q : Payload Nat) (s : State) : Result := .next (serve 0x02 tag wordField q ownPortDisable s)

/-- POSITION_CONFIG (R24). -/
def execPositionConfig (tag : Byte) (q : Payload ConfigFields) (s : State) : Result :=
  .next (serve 0x03 tag configFields q ownPositionConfig s)

/-- POSITION_MUTE (R22). -/
def execPositionMute (tag : Byte) (q : Payload MuteFields) (s : State) : Result :=
  .next (serve 0x04 tag muteFields q ownPositionMute s)

/-- POSITION_STATUS (R26). -/
def execPositionStatus (tag : Byte) (q : Payload Nat) (s : State) : Result :=
  .next (serve 0x05 tag wordField q ownPositionStatus s)

/-- POSITION_STATS (R27). -/
def execPositionStats (tag : Byte) (q : Payload Nat) (s : State) : Result :=
  .next (serve 0x06 tag wordField q ownPositionStats s)

end Sys2Proof.Machine
end

