-- ==== Sys2Proof/Machine/Whisper.lean ====
section
/-! DEFINITION. Whisper prompts and supervision: WHISPER_PROMPT, WHISPER_FLUSH, the queue's block event under GAP_END and
WHISPER_DEADLINE_EXPIRY, SUPERVISE and SUPERVISE_END (R164 to R181). The queue's other events stand in Cascade.lean. -/

namespace Sys2Proof.Machine

/-! ## Entries placed in a queue -/

/-- The entry is a PROMPT. -/
def WhisperEntry.isPrompt (w : WhisperEntry) : Bool :=
  match w.kind with
  | .prompt _ _ => true
  | .call _ => false

/-- A PROMPT appended; it comes to request at once when the queue was idle (R165, R167). -/
def State.appendPrompt (s : State) (p : PosId) (w : WhisperEntry) : State :=
  ((s.modWhisper p fun q => { q with entries := q.entries ++ [w] }).run [.whisperNext p]).finish s

/-- The list without its last PROMPT that has not begun, and that PROMPT (R166). -/
def dropNewestPrompt (ws : List WhisperEntry) : Option (WhisperEntry × List WhisperEntry) :=
  match ws.reverse.find? (fun w => w.isPrompt && !w.begun) with
  | none => none
  | some w => some (w, (ws.reverse.eraseP fun x => x.isPrompt && !x.begun).reverse)

/-- The list with a CALL_WHISPER behind every begun entry and ahead of the others (R166). -/
def placeBehindBegun (w : WhisperEntry) (ws : List WhisperEntry) : List WhisperEntry :=
  ws.takeWhile (·.begun) ++ w :: ws.dropWhile (·.begun)

/-- A full queue makes room for a CALL_WHISPER: its newest waiting PROMPT is skipped with cause FULL (R41, R166). -/
def State.makeRoom (s : State) (p : PosId) : State :=
  if (s.pos p).whisper.entries.length < Config.whisperEntries then s
  else
    match dropNewestPrompt (s.pos p).whisper.entries with
    | some (w, rest) =>
      (s.modWhisper p fun q => { q with entries := rest }).report (.whisperSkipped (w.reportOf p (some .full)))
    | none => s

/-- A CALL_WHISPER placed by an accepted connect; a head PROMPT that it displaces has its request undone, and the CALL_WHISPER comes
to request when no gap runs (R166, R167). -/
def State.placeCallWhisper (s : State) (l : LegId) (p : PosId) (clip : ClipId) : State :=
  let t := s.makeRoom p
  let begun := match (t.pos p).whisper.entries with | w :: _ => w.begun | [] => false
  let t := t.modWhisper p fun q => { q with entries := placeBehindBegun ⟨.call l, clip, false⟩ q.entries }
  (if begun then t else t.undoHead p).run [.whisperNext p]

/-! ## Requests -/

/-- The owner's part of WHISPER_PROMPT, its checks in the order of R165; a stop-on-speech byte that names no value is refused in the first
(DESIGN CHOICE, log 37). -/
def ownWhisperPrompt (f : PromptFields) (s : State) : Handled :=
  match toId 32 f.position, toId 256 f.clip, flagOf f.stopOnSpeech with
  | some p, some c, some stop =>
    if s.isLive p = false then refuse s .busy
    else if Config.whisperEntries ≤ (s.pos p).whisper.entries.length then refuse s .queueFull
    else accept (s.appendPrompt p ⟨.prompt stop f.hostTag, c, false⟩)
  | _, _, _ => refuse s .range

/-- Every PROMPT removed and reported; a flushed head then has its request undone, after all the reports (R173; DESIGN CHOICE, log 34). -/
def State.flushPrompts (s : State) (p : PosId) : State :=
  let ws := (s.pos p).whisper.entries
  let t := s.modWhisper p fun q => { q with entries := q.entries.filter fun w => !w.isPrompt }
  let t := (ws.filter WhisperEntry.isPrompt).foldl (fun t w => t.report (.whisperAborted (w.reportOf p (some .flush)))) t
  match ws with
  | [] => t
  | w :: _ => (if w.isPrompt then t.headRemoved p else t).finish s

/-- The owner's part of WHISPER_FLUSH (R173). -/
def ownWhisperFlush (n : Nat) (s : State) : Handled := withPosition n s fun p => accept (s.flushPrompts p)

/-! ## The queue's block event (R168, R169) -/

/-- The block event while a gap runs: the count rises, and at the gap value the gap ends and the head comes to request (R168). -/
def State.gapBlock (s : State) (p : PosId) : State :=
  match (s.pos p).whisper.gap with
  | none => s
  | some c =>
    if (s.pos p).config.whisperGap ≤ c + 1 then
      ((s.modWhisper p fun q => { q with gap := none }).run [.whisperNext p]).finish s
    else s.modWhisper p fun q => { q with gap := some (c + 1) }

/-- The block event while the head request waits: the count rises, and at the deadline the request is withdrawn and the entry ends
skipped (R169). -/
def State.deadlineBlock (s : State) (p : PosId) : State :=
  match (s.pos p).whisper.head with
  | .none => s
  | .granted _ => s
  | .waiting c =>
    if (s.pos p).config.whisperDeadline ≤ c + 1 then
      ((s.withdraw (.whisper p)).run [.whisperEnd p .skipped (some .deadline), .whisperNext p]).finish s
    else s.modWhisper p fun q => { q with head := .waiting (c + 1) }

/-! ## Supervision (R177 to R180) -/

/-- The mode that a byte names (Table 8-4). -/
def superModeOf (b : Nat) : Option SuperMode :=
  if b = 0 then some .monitor else if b = 1 then some .coach else if b = 2 then some .barge else none

/-- A supervision record set, with the barge start or end notice to the agent's ACTIVE leg (R178, R179). -/
def State.setSupervision (s : State) (q a : PosId) (mode : SuperMode) (wasBarge : Bool) : State :=
  let t := s.modPos q fun x => { x with supervision := some ⟨a, mode⟩ }
  let t := if wasBarge ≠ decide (mode = .barge) then
      match s.activeLeg a with
      | some l => t.notice l
      | none => t
    else t
  t.finish s

/-- The conditions under which a supervision may begin (R178). -/
def State.maySupervise (s : State) (q a : PosId) : Bool :=
  s.isLive q && s.isLive a && q ≠ a && (s.pos q).leg = none && !s.isSupervised q && !s.isSupervisor a && !s.isSupervised a

/-- The owner's part of SUPERVISE (R178). -/
def ownSupervise (f : SuperviseFields) (s : State) : Handled :=
  match toId 32 f.supervisor, toId 32 f.agent, superModeOf f.mode with
  | some q, some a, some mode =>
    match (s.pos q).supervision with
    | some r =>
      if r.agent = a then
        if r.mode = mode then accept s else accept (s.setSupervision q a mode (r.mode = .barge))
      else refuse s .busy
    | none => if s.maySupervise q a then accept (s.setSupervision q a mode false) else refuse s .busy
  | _, _, _ => refuse s .range

/-- The owner's part of SUPERVISE_END (R180). -/
def ownSuperviseEnd (n : Nat) (s : State) : Handled := withPosition n s fun q =>
  accept (if s.isSupervisor q then (s.endSupervision q).finish s else s)

/-! ## The commands -/

/-- WHISPER_PROMPT (R165). -/
def execWhisperPrompt (tag : Byte) (q : Payload PromptFields) (s : State) : Result :=
  .next (serve 0x40 tag promptFields q ownWhisperPrompt s)

/-- WHISPER_FLUSH (R173). -/
def execWhisperFlush (tag : Byte) (q : Payload Nat) (s : State) : Result :=
  .next (serve 0x41 tag wordField q ownWhisperFlush s)

/-- GAP_END: the queue's block event while a gap runs (R168); with no gap running it advances nothing (log 1). -/
def execGapEnd (p : PosId) (s : State) : Result := .next (s.gapBlock p)

/-- WHISPER_DEADLINE_EXPIRY: the queue's block event while the head request waits (R169); with no request waiting it advances nothing
(log 1). -/
def execWhisperDeadlineExpiry (p : PosId) (s : State) : Result := .next (s.deadlineBlock p)

/-- SUPERVISE (R178). -/
def execSupervise (tag : Byte) (q : Payload SuperviseFields) (s : State) : Result :=
  .next (serve 0x42 tag superviseFields q ownSupervise s)

/-- SUPERVISE_END (R180). -/
def execSuperviseEnd (tag : Byte) (q : Payload Nat) (s : State) : Result :=
  .next (serve 0x43 tag wordField q ownSuperviseEnd s)

end Sys2Proof.Machine
end

