-- ==== Sys2Proof/Machine/Legs.lean ====
section
/-! DEFINITION. The host's requests about legs: LEG_OPEN, LEG_HOLD, LEG_CONNECT, LEG_CANCEL_CONNECT, LEG_CLOSE and LEG_STATUS
(R36 to R48). -/

namespace Sys2Proof.Machine

/-- An owner that needs a leg: an identifier beyond L63 is refused with RANGE (section 2.2). -/
def withLeg (n : Nat) (s : State) (f : LegId → Handled) : Handled :=
  match toId 64 n with
  | some l => f l
  | none => refuse s .range

/-! ## Opening (R36) -/

/-- An IDLE leg opened (R36, R92, R96). -/
def State.openLeg (s : State) (l : LegId) (tail : Nat) (mode : DelayMode) (d : Nat) : State :=
  ((s.modLeg l fun x => { x with
    state := .opened, attached := none, origin := none, session := none, resume := none, last := none }).openEc
      l tail mode d).finish s

/-- The owner's part of LEG_OPEN (R36); a delay mode that names no setting is refused ahead of the leg's state (DESIGN CHOICE, log 37). -/
def ownLegOpen (f : OpenFields) (s : State) : Handled :=
  match toId 64 f.leg, delayOf f.delay with
  | some l, some d =>
    if (s.leg l).state = .idle then accept (s.openLeg l (min f.tail Config.maxTail) d.1 d.2) else refuse s .busy
  | _, _ => refuse s .range

/-! ## Holding (R37, R38) -/

/-- The plan that a request names: none for no plan, refused when it lies beyond H15 or is not defined (R37). -/
def State.namedPlan (s : State) : Option Nat → Option (Option PlanId)
  | none => some none
  | some n =>
    match toId 16 n with
    | some h => if (s.plan h).record.isSome then some (some h) else none
    | none => none

/-- A HELD leg's session replaced: on the same plan the old session's request is undone with the use count standing, and on another plan
the old session ends, without resume capture, before the new one begins (R38, R161). -/
def State.replaceSession (s : State) (l : LegId) (plan : Option PlanId) : State :=
  match (s.leg l).session with
  | none => s.beginSession l plan
  | some x =>
    if x.plan = plan then
      let t := s.modLeg l fun y => { y with session := none }
      let t := match x.request with
        | none => t
        | some r =>
          match r.engine with
          | none => t.withdraw (.leg l)
          | some e => t.run [.stop e .stopped]
      t.enterSession l plan
    else (s.run [.sessionEnd l false]).beginSession l plan

/-- The owner's part of LEG_HOLD: the plan is judged before the state of the leg (R37, R38). -/
def ownLegHold (f : HoldFields) (s : State) : Handled :=
  withLeg f.leg s fun l =>
    match s.namedPlan f.plan with
    | none => refuse s .range
    | some plan =>
      match (s.leg l).state with
      | .idle => refuse s .busy
      | .connecting => refuse s .busy
      | .opened => accept ((s.holdLeg l plan).finish s)
      | .active => accept ((s.holdLeg l plan).finish s)
      | .held => accept ((s.replaceSession l plan).finish s)

/-! ## Connecting (R40, R41, R43) -/

/-- The conditions under which a connect is accepted (R40). -/
def State.mayConnect (s : State) (l : LegId) (p : PosId) : Bool :=
  ((s.leg l).state = .opened || (s.leg l).state = .held) && s.isLive p && (s.pos p).leg = none && !s.isSupervisor p

/-- A connect without a whisper: the leg goes ACTIVE at once (R40). -/
def State.connectNow (s : State) (l : LegId) (p : PosId) : State := (s.run [.legActive l p]).finish s

/-- The origin that a connect records (R35). -/
def LegState.asOrigin : LegState → Option Origin
  | .opened => some .opened
  | .held => some .held
  | .idle => none
  | .connecting => none
  | .active => none

/-- A connect with a whisper: the position is reserved and a CALL_WHISPER placed in its queue (R41). -/
def State.connectWhisper (s : State) (l : LegId) (p : PosId) (clip : ClipId) : State :=
  let t := (s.modLeg l fun x => { x with state := .connecting, origin := x.state.asOrigin }).attach l p
  (t.placeCallWhisper l p clip).finish s

/-- The owner's part of LEG_CONNECT: identifiers first, then the conditions of R40. -/
def ownLegConnect (f : ConnectFields) (s : State) : Handled :=
  match toId 64 f.leg, toId 32 f.position, optionalId 256 f.clip with
  | some l, some p, some clip =>
    if s.mayConnect l p then
      match clip with
      | none => accept (s.connectNow l p)
      | some c => accept (s.connectWhisper l p c)
    else refuse s .busy
  | _, _, _ => refuse s .range

/-- A connect cancelled: the leg returns to its origin and its CALL_WHISPER leaves the queue with no report (R43). -/
def State.cancelConnect (s : State) (l : LegId) : State :=
  match (s.leg l).attached with
  | some p => ((s.abortConnect l).removeCallWhisper l p).finish s
  | none => s

/-- The owner's part of LEG_CANCEL_CONNECT (R43). -/
def ownLegCancelConnect (n : Nat) (s : State) : Handled :=
  withLeg n s fun l => if (s.leg l).state = .connecting then accept (s.cancelConnect l) else refuse s .busy

/-! ## Closing (R44) -/

/-- Every feed whose source is RX(l) and the whole list of SEND(l) are removed without fade (R44, R63). -/
def State.dropLegFeeds (s : State) (l : LegId) : State :=
  { s with
    ears := tmap (fun _ fs => fs.filter fun f => f.source ≠ .rx l) s.ears
    sends := tset (tmap (fun _ fs => fs.filter fun f => f.source ≠ .rx l) s.sends) l [] }

/-- A leg's CALL_WHISPER removed when it is CONNECTING (R44). -/
def State.closeWhisper (s : State) (l : LegId) : State :=
  match (s.leg l).state, (s.leg l).attached with
  | .connecting, some p => s.removeCallWhisper l p
  | _, _ => s

/-- A leg closed, whatever its state (R44, R119). -/
def State.closeLeg (s : State) (l : LegId) : State :=
  let t := ((s.dropLegFeeds l).closeWhisper l).detach l
  let t := t.run [.sessionEnd l false]
  let t := t.closeEc l
  t.modLeg l fun x => { x with state := .idle, attached := none, origin := none, session := none, resume := none, last := none }

/-- The owner's part of LEG_CLOSE: an IDLE leg stays as it is; otherwise the close, and the top-up pass once the list and the queue are
up to date (R44, R95). -/
def ownLegClose (n : Nat) (s : State) : Handled :=
  withLeg n s fun l => accept (if (s.leg l).state = .idle then s else ((s.closeLeg l).topUpPass).finish s)

/-! ## Status (R48, R118, R163) -/

/-- A session as LEG_STATUS shows it (R163). -/
def State.sessionView (s : State) (x : Session) : SessionView where
  plan := x.plan
  phase := x.phase
  countdown := x.countdown
  nextIndex := x.nextIndex
  request := x.request.map fun r => ⟨r.clip, r.place, r.engine.map fun e => (e, (s.eng e).state)⟩

/-- The reply fields of LEG_STATUS (R48). -/
def State.legStatus (s : State) (l : LegId) : LegStatus :=
  let x := s.leg l
  { state := x.state
    attached := x.attached
    origin := x.origin
    last := x.last
    session := x.session.map s.sessionView
    resume := x.resume
    ecState := x.ec.state
    held := x.ec.segments.length
    owed := s.owed l
    bulkDelay := x.ec.bulkDelay
    mode := x.ec.mode
    fixedDelay := x.ec.fixedDelay
    nlpAttenuation := x.ec.nlpAttenuation
    stats := x.ec.stats
    valid := s.highway.valid }

/-- The owner's part of LEG_STATUS (R48). -/
def ownLegStatus (n : Nat) (s : State) : Handled := withLeg n s fun l => ⟨s, .ok, .legStatus (s.legStatus l)⟩

/-! ## The commands -/

/-- LEG_OPEN (R36). -/
def execLegOpen (tag : Byte) (q : Payload OpenFields) (s : State) : Result := .next (serve 0x10 tag openFields q ownLegOpen s)

/-- LEG_HOLD (R37, R38). -/
def execLegHold (tag : Byte) (q : Payload HoldFields) (s : State) : Result := .next (serve 0x11 tag holdFields q ownLegHold s)

/-- LEG_CONNECT (R40, R41). -/
def execLegConnect (tag : Byte) (q : Payload ConnectFields) (s : State) : Result :=
  .next (serve 0x12 tag connectFields q ownLegConnect s)

/-- LEG_CANCEL_CONNECT (R43). -/
def execLegCancelConnect (tag : Byte) (q : Payload Nat) (s : State) : Result :=
  .next (serve 0x13 tag wordField q ownLegCancelConnect s)

/-- LEG_CLOSE (R44). -/
def execLegClose (tag : Byte) (q : Payload Nat) (s : State) : Result := .next (serve 0x14 tag wordField q ownLegClose s)

/-- LEG_STATUS (R48). -/
def execLegStatus (tag : Byte) (q : Payload Nat) (s : State) : Result := .next (serve 0x15 tag wordField q ownLegStatus s)

end Sys2Proof.Machine
end

