-- ==== Sys2Proof/Machine/Reset.lean ====
section
/-! DEFINITION. The two resets: what hardware reset and soft reset leave in every block (R28, R49, R63, R71, R90, R119, R121, R145, R146,
R164, R177, R194, R195), and the command HARDWARE_RESET. SOFT_RESET stands in Link.lean, beside the end of a message. -/

namespace Sys2Proof.Machine

/-! ## Hardware reset (R195) -/

/-- The operations of the memory port that a hardware reset cuts off: an erase in progress or suspended, and a block program or a
directory update in progress, leave their bytes with free values (log 22, log 41). -/
def State.cutOff (s : State) : State :=
  match s.memory.op with
  | some (.program slab offset samples _) =>
    s.abandonErase.leaveUnfinished (addressesFrom (slab * Config.slabBytes + offset * 2) (2 * samples.length))
  | some (.update c image) => s.abandonErase.leaveUnfinished (addressesFrom (Config.entryStride * c.val) image.length)
  | some (.erase _) => s.abandonErase
  | some (.fetch _ _) => s.abandonErase
  | none => s.abandonErase

/-- Hardware reset: every block at its initial values, RESTARTED placed as the first report; the flash keeps its contents but for the
operations cut off, and the commands that wait are the model's own (log 22). -/
def State.hardwareReset (s : State) : State :=
  { State.reset with pending := s.pending, flash := s.cutOff.flash, unfinishedOps := s.cutOff.unfinishedOps }.report .restarted

/-- HARDWARE_RESET (R195). -/
def execHardwareReset (s : State) : Result := .next s.hardwareReset

/-! ## Soft reset -/

/-- A position after soft reset: no leg, no supervision, an empty whisper queue, mute clear, the configured ear volume, the limiter gain
at 16384; every link-level item is kept (R28, R71, R164, R177). -/
def Position.softReset (x : Position) : Position :=
  { x with
    mute := false
    earVolume := x.config.earVolume
    limiter := { x.limiter with gain := Config.unity }
    leg := none
    supervision := none
    whisper := .empty }

/-- A leg after soft reset: closed when it was not IDLE (R49, R119). -/
def Leg.softReset (x : Leg) : Leg :=
  if x.state = .idle then x
  else { Leg.reset with ec := x.ec.close }

/-- A clip after soft reset: no engine on it, and EMPTY when it was RETIRING (R121, R145). -/
def Clip.softReset (x : Clip) : Clip := if x.state = .retiring then Clip.empty else { x with useCount := 0 }

/-- A plan after soft reset: its record kept, no users and no stream (R146). -/
def Plan.softReset (x : Plan) : Plan := ⟨x.record, 0, none, false⟩

/-- The clips that a soft reset makes EMPTY, in the order in which it queues their updates: by rising number (DESIGN CHOICE, log 32). -/
def State.retiring (s : State) : List ClipId := (List.finRange 256).filter fun c => (s.clip c).state = .retiring

/-- The requests that wait in the buffer are answered OVERLOAD in buffer order, the report queue is emptied, and the handler's pause
ends (R194). -/
def Link.softReset (k : Link) : Link :=
  { k with
    replies := k.replies ++ k.buffer.map fun r => ⟨r.code, r.tag, .overload, .none⟩
    buffer := []
    reports := []
    paused := false }

/-- Soft reset of every block but the memory port's queue of updates. The legs close together: no top-up pass runs between them, so none
takes a start point on its way to IDLE (DESIGN CHOICE, log 32). -/
def State.softResetBlocks (s : State) : State :=
  { s with
    positions := tmap (fun _ x => x.softReset) s.positions
    legs := tmap (fun _ x => x.softReset) s.legs
    pool := .reset
    ears := Vector.replicate 32 []
    sends := Vector.replicate 64 []
    plans := tmap (fun _ x => x.softReset) s.plans
    clips := tmap (fun _ x => x.softReset) s.clips
    freeSlabs := s.retiring.foldl (fun free c => returnNumbers (s.clip c).slabs free) s.freeSlabs
    memory := { s.memory with fetches := [] }
    engines := Vector.replicate 24 .idle
    arbiter := { s.arbiter with queue := [], held := [] }
    link := s.link.softReset }

/-- Soft reset: every block at the values its chapter gives, with no reports; the updates of the clips that became EMPTY are queued, by
rising clip number (R121, R145, R194; DESIGN CHOICE, log 32). -/
def State.softReset (s : State) : State :=
  s.retiring.foldl (fun t c => t.queueUpdate c) s.softResetBlocks.settlePort

end Sys2Proof.Machine
end

