-- ==== Sys2Proof/Machine/Wire.lean ====
section
/-! DEFINITION. The bytes of messages: the check (R183), the layout of fields (R184, Table 9-7), and the frames of replies and reports
(Table 9-1, Table 9-5, R188, R191). Field orders that the manual does not list outright are marked in log 17. -/

namespace Sys2Proof.Machine

/-! ## The check (R183) -/

/-- One bit of the division by x^16 + x^12 + x^5 + 1. -/
def crcBit (c : BitVec 16) : BitVec 16 := if c.getLsbD 15 then (c <<< 1) ^^^ 0x1021 else c <<< 1

/-- One byte taken into the check, most significant bit first. -/
def crcByte (c : BitVec 16) (b : Byte) : BitVec 16 :=
  (List.range 8).foldl (fun x _ => crcBit x) (c ^^^ (b.zeroExtend 16 <<< 8))

/-- The check over bytes (R183). -/
def crc (bytes : List Byte) : BitVec 16 := bytes.foldl crcByte 0xFFFF

/-! ## Fields (R184) -/

/-- A number in a given count of bytes, least significant byte first. -/
def numberBytes : Nat → Nat → List Byte
  | 0, _ => []
  | n + 1, x => BitVec.ofNat 8 x :: numberBytes n (x / 256)

/-- One byte: an enumerated field. -/
def enumBytes (x : Nat) : List Byte := numberBytes 1 x

/-- A flag: 0 for the value listed first. -/
def flagBytes (b : Bool) : List Byte := enumBytes (if b then 0 else 1)

/-- Two bytes: identifiers, gains, durations, counts. -/
def wordBytes (x : Nat) : List Byte := numberBytes 2 x

/-- Four bytes: lengths, offsets, sums, period counts, window counts. -/
def longBytes (x : Nat) : List Byte := numberBytes 4 x

/-- A signed ppm offset. -/
def signedBytes (x : Int) : List Byte := wordBytes (BitVec.ofInt 16 x).toNat

/-- An optional field with its presence byte. -/
def optionalBytes {α : Type} (f : α → List Byte) : Option α → List Byte
  | none => [0]
  | some x => 1 :: f x

/-- A list with its count. -/
def listBytes {α : Type} (f : α → List Byte) (xs : List α) : List Byte := wordBytes xs.length ++ xs.flatMap f

/-- An identifier. -/
def idBytes {n : Nat} (i : Fin n) : List Byte := wordBytes i.val

/-- The identity (R184). -/
def identityBytes : List Byte := wordBytes Config.vendorCode ++ wordBytes Config.partCode ++ wordBytes Config.revision

/-! ## Enumerated values, in the order their chapters list them -/

/-- Table 1-1. -/
def PortState.place : PortState → Nat
  | .disabled => 0 | .absent => 1 | .detected => 2 | .acquiring => 3 | .qualifying => 4 | .live => 5 | .lost => 6
/-- R19. -/
def MuteMode.place : MuteMode → Nat | .toggle => 0 | .push => 1 | .off => 2
/-- R20. -/
def VolumeMode.place : VolumeMode → Nat | .localVolume => 0 | .reportOnly => 1
/-- Table 4-1. -/
def Vad.place : Vad → Nat | .quiet => 0 | .speech => 1 | .hangover => 2
/-- Table 8-4. -/
def SuperMode.place : SuperMode → Nat | .monitor => 0 | .coach => 1 | .barge => 2
/-- Table 2-1. -/
def HighwayState.place : HighwayState → Nat | .inSync => 0 | .holdover => 1
/-- Table 2-3. -/
def LegState.place : LegState → Nat | .idle => 0 | .opened => 1 | .held => 2 | .connecting => 3 | .active => 4
/-- R35. -/
def Origin.place : Origin → Nat | .opened => 0 | .held => 1
/-- Table 7-3. -/
def Phase.place : Phase → Nat | .greeting => 0 | .background => 1 | .announcing => 2
/-- Table 6-3. -/
def ClipState.place : ClipState → Nat | .empty => 0 | .writing => 1 | .ready => 2 | .damaged => 3 | .retiring => 4
/-- R130. -/
def PortMode.place : PortMode → Nat | .owned => 0 | .releasing => 1 | .released => 2 | .scanning => 3
/-- Table 6-6. -/
def EngineState.place : EngineState → Nat | .free => 0 | .priming => 1 | .playing => 2 | .stopping => 3
/-- Table 9-2. -/
def Status.place : Status → Nat
  | .ok => 0 | .busy => 1 | .range => 2 | .inUse => 3 | .noResource => 4 | .queueFull => 5 | .sequence => 6 | .length => 7
  | .unknown => 8 | .overload => 9
/-- Table 9-7. -/
def ReleaseCause.place : ReleaseCause → Nat | .unplug => 0 | .linkLost => 1 | .portDisabled => 2
/-- Table 9-7. -/
def MuteCause.place : MuteCause → Nat | .button => 0 | .host => 1 | .release => 2
/-- Table 9-7. -/
def ClipCause.place : ClipCause → Nat | .closed => 0 | .abandoned => 1 | .retired => 2 | .discarded => 3
/-- Table 9-7. -/
def WhisperCause.place : WhisperCause → Nat
  | .onset => 0 | .reclaim => 1 | .clip => 2 | .deadline => 3 | .full => 4 | .flush => 5 | .release => 6
/-- Table 9-7. -/
def WhisperOutcome.place : WhisperOutcome → Nat | .played => 0 | .skipped => 1 | .interrupted => 2
/-- Table 9-7. -/
def LinkCause.place : LinkCause → Nat | .length => 0 | .check => 1 | .timeout => 2 | .overrun => 3 | .kind => 4
/-- Table 9-7. -/
def AnnounceKind.place : AnnounceKind → Nat | .greeting => 0 | .announcement => 1
/-- Table 5-2; OFF carries its cause. -/
def EcState.bytes : EcState → List Byte
  | .off .idle => [0, 0]
  | .off .disabled => [0, 1]
  | .off .noTaps => [0, 2]
  | .search => [1]
  | .converging => [2]
  | .converged => [3]
  | .frozen => [4]
/-- R137: whisper head, greeting or announcement, shared stream. -/
def Owner.bytes : Owner → List Byte
  | .whisper p => 0 :: idBytes p
  | .leg l => 1 :: idBytes l
  | .shared h => 2 :: idBytes h
/-- Table 7-1. -/
def Background.bytes : Background → List Byte
  | .absent => [0]
  | .shared c => 1 :: idBytes c
  | .program k => 2 :: idBytes k

/-! ## Reports (R191) -/

/-- The code of a report (Table 9-5). -/
def ReportBody.code : ReportBody → Byte
  | .restarted => 0x80
  | .linkError _ _ => 0x81
  | .headsetInserted _ => 0x88
  | .headsetRemoved _ => 0x89
  | .rateFault _ _ => 0x8A
  | .portLive _ => 0x8B
  | .portLost _ => 0x8C
  | .portRecoveryExpired _ => 0x8D
  | .parityAlert _ _ => 0x8E
  | .muteChanged _ _ _ => 0x8F
  | .volumeButton _ _ _ => 0x90
  | .talkButton _ _ => 0x90
  | .acousticShock _ _ _ => 0x91
  | .highwaySync _ _ => 0x98
  | .legState _ _ _ _ _ => 0x99
  | .connectDone _ _ _ => 0x9A
  | .connectAborted _ _ => 0x9B
  | .ecTaps _ _ _ => 0x9C
  | .ecState _ _ _ => 0x9D
  | .ecSearchTimeout _ _ => 0x9E
  | .clipState _ _ _ _ => 0xA0
  | .memoryReleased => 0xA1
  | .scanDone _ _ _ => 0xA2
  | .engineUnderrun _ _ _ => 0xA3
  | .announcePreempted _ _ _ _ _ => 0xA4
  | .whisperDone _ => 0xA8
  | .whisperSkipped _ => 0xA9
  | .whisperInterrupted _ => 0xAA
  | .whisperAborted _ => 0xAB
  | .supervisionEnded _ _ _ _ => 0xAC

/-- The fields of a whisper report (R170). -/
def WhisperReport.bytes (w : WhisperReport) : List Byte :=
  idBytes w.position ++ idBytes w.clip ++ wordBytes w.tag ++ optionalBytes (fun c => enumBytes c.place) w.cause

/-- The fields of a report, in the order of the rule that makes it. A report of a port, a mute flag or a button begins with its position,
which the rules do not name among its fields, and the list place of ANNOUNCE_PREEMPTED has two bytes (DESIGN CHOICE, log 17). -/
def ReportBody.bytes : ReportBody → List Byte
  | .restarted => identityBytes
  | .linkError cause count => enumBytes cause.place ++ wordBytes count
  | .headsetInserted p => idBytes p
  | .headsetRemoved p => idBytes p
  | .rateFault p offset => idBytes p ++ signedBytes offset
  | .portLive p => idBytes p
  | .portLost p => idBytes p
  | .portRecoveryExpired p => idBytes p
  | .parityAlert p count => idBytes p ++ wordBytes count
  | .muteChanged p cause value => idBytes p ++ enumBytes cause.place ++ flagBytes value
  | .volumeButton p up volume => idBytes p ++ enumBytes (if up then 1 else 2) ++ wordBytes volume
  | .talkButton p pressed => idBytes p ++ enumBytes 3 ++ flagBytes pressed
  | .acousticShock p magnitude count => idBytes p ++ wordBytes magnitude ++ wordBytes count
  | .highwaySync state period => enumBytes state.place ++ longBytes period.toNat
  | .legState l state cause last plan =>
    idBytes l ++ enumBytes state.place ++ enumBytes cause.place ++ optionalBytes idBytes last ++ optionalBytes idBytes plan
  | .connectDone l p outcome => idBytes l ++ idBytes p ++ enumBytes outcome.place
  | .connectAborted l p => idBytes l ++ idBytes p
  | .ecTaps l held owed => idBytes l ++ wordBytes held ++ wordBytes owed
  | .ecState l state delay => idBytes l ++ state.bytes ++ wordBytes delay
  | .ecSearchTimeout l delay => idBytes l ++ wordBytes delay
  | .clipState c state cause sum =>
    idBytes c ++ enumBytes state.place ++ enumBytes cause.place ++ optionalBytes (fun x : BitVec 32 => longBytes x.toNat) sum
  | .memoryReleased => []
  | .scanDone ready damaged discarded => wordBytes ready ++ wordBytes damaged ++ wordBytes discarded
  | .engineUnderrun e owner clip => idBytes e ++ owner.toList.flatMap Owner.bytes ++ clip.toList.flatMap idBytes
  | .announcePreempted l plan clip kind place =>
    idBytes l ++ plan.toList.flatMap idBytes ++ idBytes clip ++ enumBytes kind.place ++ optionalBytes wordBytes place
  | .whisperDone w => w.bytes
  | .whisperSkipped w => w.bytes
  | .whisperInterrupted w => w.bytes
  | .whisperAborted w => w.bytes
  | .supervisionEnded s agent mode cause => idBytes s ++ idBytes agent ++ enumBytes mode.place ++ enumBytes cause.place

/-! ## Reply fields (R188) -/

/-- The configuration record in the order of Table 1-4. -/
def PositionConfig.bytes (c : PositionConfig) : List Byte :=
  wordBytes c.earVolume ++ wordBytes c.sidetone ++ wordBytes c.limiterLevel ++ wordBytes c.limiterRelease ++ flagBytes c.nsEnable
    ++ wordBytes c.nsRatio ++ wordBytes c.nsHangover ++ wordBytes c.nsAttenuation ++ wordBytes c.nsAttack ++ wordBytes c.nsRelease
    ++ wordBytes c.whisperGap ++ wordBytes c.whisperDuck ++ wordBytes c.whisperDeadline ++ optionalBytes idBytes c.fallback
    ++ enumBytes c.muteMode.place ++ enumBytes c.volumeMode.place ++ flagBytes c.pushToTalk ++ wordBytes c.qualification
    ++ wordBytes c.recovery ++ wordBytes c.parityThreshold ++ wordBytes c.hysteresis

/-- A position's part in a supervision (R26). -/
def SuperView.bytes : SuperView → List Byte
  | .supervises agent mode => 0 :: idBytes agent ++ enumBytes mode.place
  | .supervisedBy supervisor mode => 1 :: idBytes supervisor ++ enumBytes mode.place

/-- POSITION_STATUS (R26). -/
def PositionStatus.bytes (f : PositionStatus) : List Byte :=
  enumBytes f.state.place ++ flagBytes f.presence ++ flagBytes f.noFrames ++ signedBytes f.lastOffset ++ flagBytes f.measured
    ++ optionalBytes wordBytes f.windowLeft ++ optionalBytes wordBytes f.qualLeft ++ flagBytes f.buttons.mute
    ++ flagBytes f.buttons.volUp ++ flagBytes f.buttons.volDown ++ flagBytes f.buttons.talk ++ flagBytes f.mute
    ++ wordBytes f.configuredVolume ++ wordBytes f.currentVolume ++ f.config.bytes ++ flagBytes f.muteLamp ++ flagBytes f.busyLamp
    ++ optionalBytes (fun x : LegId × Bool => idBytes x.1 ++ flagBytes x.2) f.leg ++ optionalBytes SuperView.bytes f.supervision
    ++ wordBytes f.whisperEntries ++ enumBytes f.vad.place ++ flagBytes f.parityAlert

/-- POSITION_STATS (R27): the three uplink counts, then the three downlink counts (DESIGN CHOICE, log 17). -/
def PositionStats.bytes (f : PositionStats) : List Byte :=
  wordBytes f.parityCount ++ flagBytes f.parityAlert ++ wordBytes f.uplinkSlips ++ wordBytes f.uplinkUnderruns
    ++ wordBytes f.uplinkOverruns ++ wordBytes f.downlinkSlips ++ wordBytes f.downlinkUnderruns ++ wordBytes f.downlinkOverruns
    ++ wordBytes f.shocks

/-- An engine with its state. -/
def engineStateBytes (x : EngId × EngineState) : List Byte := idBytes x.1 ++ enumBytes x.2.place

/-- A session's current request (R163). Its list place has two bytes (DESIGN CHOICE, log 17). -/
def RequestView.bytes (r : RequestView) : List Byte :=
  idBytes r.clip ++ optionalBytes wordBytes r.place ++ optionalBytes engineStateBytes r.engine

/-- A hold session (R48, R163). Its next announcement index has two bytes (DESIGN CHOICE, log 17). -/
def SessionView.bytes (x : SessionView) : List Byte :=
  optionalBytes idBytes x.plan ++ enumBytes x.phase.place ++ optionalBytes wordBytes x.countdown ++ wordBytes x.nextIndex
    ++ optionalBytes RequestView.bytes x.request

/-- The statistics record (R111). -/
def WindowStats.bytes (w : WindowStats) : List Byte :=
  numberBytes 8 w.srx ++ numberBytes 8 w.se ++ wordBytes w.qualifying ++ longBytes w.windows

/-- LEG_STATUS (R48, R118, R163). Its session is one optional field, and the index of its resume record has two bytes (DESIGN CHOICE,
log 17). -/
def LegStatus.bytes (f : LegStatus) : List Byte :=
  enumBytes f.state.place ++ optionalBytes idBytes f.attached ++ optionalBytes (fun o : Origin => enumBytes o.place) f.origin
    ++ optionalBytes idBytes f.last ++ optionalBytes SessionView.bytes f.session
    ++ optionalBytes (fun r : Resume => idBytes r.plan ++ wordBytes r.index) f.resume
    ++ f.ecState.bytes ++ wordBytes f.held ++ wordBytes f.owed ++ wordBytes f.bulkDelay
    ++ (match f.mode with | .auto => [0] | .fixed => 1 :: wordBytes f.fixedDelay)
    ++ wordBytes f.nlpAttenuation ++ optionalBytes WindowStats.bytes f.stats ++ flagBytes f.valid

/-- The host's fields of a plan (Table 7-1). -/
def PlanRecord.bytes (r : PlanRecord) : List Byte :=
  r.background.bytes ++ wordBytes r.musicLevel ++ optionalBytes idBytes r.greeting ++ listBytes idBytes r.announcements
    ++ wordBytes r.firstDelay ++ wordBytes r.interval ++ wordBytes r.duck ++ flagBytes r.resume ++ optionalBytes idBytes r.fallback

/-- The source of a plan's MUSIC feeds, an optional field, absent for none: a byte for its kind, the engine or the program channel in the
order of R149, then its identifier (R149, R184). -/
def musicSourceBytes : Option Source → List Byte
  | some (.engine e) => 1 :: 0 :: idBytes e
  | some (.program k) => 1 :: 1 :: idBytes k
  | some (.mic _) => [0]
  | some (.rx _) => [0]
  | none => [0]

/-- PLAN_INFO: the defined field, and the rest for a defined plan (R149). -/
def planInfoBytes : Option PlanInfo → List Byte
  | none => flagBytes false
  | some f => flagBytes true ++ f.record.bytes ++ wordBytes f.useCount ++ optionalBytes engineStateBytes f.bound
      ++ flagBytes f.pending ++ musicSourceBytes f.source

/-- An engine on a clip (R129). -/
def EngineView.bytes (v : EngineView) : List Byte :=
  idBytes v.engine ++ v.owner.toList.flatMap Owner.bytes ++ enumBytes v.state.place ++ wordBytes v.underruns

/-- CLIP_INFO (R129); the length is absent for an EMPTY entry (Table 6-2). -/
def ClipInfo.bytes (f : ClipInfo) : List Byte :=
  enumBytes f.entry.state.place ++ optionalBytes longBytes (if f.entry.state = .empty then none else some f.entry.length)
    ++ optionalBytes longBytes f.entry.loopStart ++ listBytes wordBytes f.entry.slabs ++ longBytes f.entry.sum.toNat
    ++ wordBytes f.entry.useCount
    ++ optionalBytes (fun w : Nat × Nat × Bool => longBytes w.1 ++ longBytes w.2.1 ++ flagBytes w.2.2) f.writing
    ++ listBytes EngineView.bytes f.engines

/-- DEVICE_STATUS (R193). -/
def DeviceStatus.bytes (f : DeviceStatus) : List Byte :=
  identityBytes ++ enumBytes f.highway.place ++ longBytes f.period.toNat ++ enumBytes f.memory.place ++ wordBytes f.freeSegments
    ++ wordBytes f.freeSlabs ++ wordBytes f.freeEngines ++ wordBytes f.waiting ++ wordBytes f.linkErrors ++ wordBytes f.lostReports

/-- The reply fields of a request. -/
def ReplyFields.bytes : ReplyFields → List Byte
  | .none => []
  | .positionStatus f => f.bytes
  | .positionStats f => f.bytes
  | .legStatus f => f.bytes
  | .planInfo f => planInfoBytes f
  | .clipInfo f => f.bytes
  | .deviceStatus f => f.bytes

/-! ## Frames (Table 9-1) -/

/-- The bytes from kind through payload. -/
def frameBody (kind code tag : Byte) (payload : List Byte) : List Byte :=
  [kind, code, tag] ++ wordBytes payload.length ++ payload

/-- A whole frame: start marker, body and check. -/
def frame (kind code tag : Byte) (payload : List Byte) : List Byte :=
  Config.startMarker :: frameBody kind code tag payload ++ wordBytes (crc (frameBody kind code tag payload)).toNat

/-- A reply's frame: the status byte, then the reply fields when the status is OK (R188). -/
def Reply.frame (r : Reply) : List Byte :=
  Machine.frame 0x02 r.code r.tag (enumBytes r.status.place ++ if r.status = .ok then r.fields.bytes else [])

/-- A report's frame: tag 0, the period count, then its fields (R191). -/
def Report.frame (r : Report) : List Byte :=
  Machine.frame 0x03 r.body.code 0 (longBytes r.period.toNat ++ r.body.bytes)

end Sys2Proof.Machine
end

