-- ==== Sys2Proof/Machine/Link.lean ====
section
/-! DEFINITION. The control link: receiving frames (R185, R186), sending messages (R192), the byte clock that does both (R182), the
device requests (R193, R194), and the requests that name nothing (R188). -/

namespace Sys2Proof.Machine

/-! ## Receiving (R185, R186) -/

/-- A good request is disposed of: buffered, answered OVERLOAD, or discarded as OVERRUN (R186). -/
def State.dispose (s : State) (r : RequestFrame) : State :=
  if Config.replyPlaces ≤ s.link.places then s.linkError .overrun
  else if s.link.buffer.length < Config.bufferRequests then { s with link := { s.link with buffer := s.link.buffer ++ [r] } }
  else s.reply ⟨r.code, r.tag, .overload, .none⟩

/-- The receiver set. -/
def State.setReceiver (s : State) (r : Receiver) : State := { s with link := { s.link with receiver := r } }

/-- The start time and the collected bytes of the frame being received. -/
def Receiver.frame? : Receiver → Option (BitVec 32 × List Byte)
  | .hunt => none
  | .frame start bytes => some (start, bytes)
  | .check start bytes => some (start, bytes)

/-- The frame being received has run out of time: more than 250 periods since its start marker (R185, log 12). -/
def State.expired (s : State) (start : BitVec 32) : Bool := Config.frameTimeout < (s.highway.period - start).toNat

/-- What a frame's bytes, from kind on, are found to be. -/
inductive FrameFound where
  /-- The frame's last byte has not arrived. -/
  | unfinished
  | error (cause : LinkCause)
  | request (r : RequestFrame)
  deriving DecidableEq, Repr

/-- The payload length that a frame announces (Table 9-1). -/
def announcedLength (bytes : List Byte) : Nat := (bytes.getD 3 0).toNat + 256 * (bytes.getD 4 0).toNat

/-- A frame judged: its length, its check, its kind (R183, R185, R186). -/
def judgeFrame (bytes : List Byte) : FrameFound :=
  let n := announcedLength bytes
  if bytes.length < 5 then .unfinished
  else if Config.maxPayload < n then .error .length
  else if bytes.length < n + 7 then .unfinished
  else if wordBytes (crc (bytes.take (n + 5))).toNat ≠ (bytes.drop (n + 5)).take 2 then .error .check
  else if bytes.getD 0 0 ≠ 0x01 then .error .kind
  else .request ⟨bytes.getD 1 0, bytes.getD 2 0, (bytes.drop 5).take n⟩

/-- The receiver with the bytes collected of an unfinished frame: FRAME up to the last payload byte, then CHECK (R185). -/
def collecting (start : BitVec 32) (bytes : List Byte) : Receiver :=
  if 5 ≤ bytes.length ∧ announcedLength bytes + 5 ≤ bytes.length then .check start bytes else .frame start bytes

/-- A byte received in HUNT: 0xA5 begins a frame at the present period, and any other byte is disregarded (R182, R185). -/
def State.huntByte (s : State) (b : Byte) : State :=
  if b = Config.startMarker then s.setReceiver (.frame s.highway.period []) else s

/-- The bytes collected of a frame, judged as its latest byte arrives: with its last byte the frame is discarded or disposed of, and the
receiver is in HUNT for the next byte (R185, R186). -/
def State.judgeBytes (s : State) (start : BitVec 32) (bytes : List Byte) : State :=
  match judgeFrame bytes with
  | .unfinished => s.setReceiver (collecting start bytes)
  | .error cause => (s.linkError cause).setReceiver .hunt
  | .request r => (s.dispose r).setReceiver .hunt

/-- One byte received. In HUNT it is judged there; in a frame it joins the bytes collected; when the frame's time has run out the frame is
discarded, and the byte is judged in HUNT (R185). -/
def State.takeByte (s : State) (b : Byte) : State :=
  match s.link.receiver.frame? with
  | none => s.huntByte b
  | some f => if s.expired f.1 then ((s.linkError .timeout).setReceiver .hunt).huntByte b else s.judgeBytes f.1 (f.2 ++ [b])

/-- The receiver's first byte or block event after a frame's time has run out (R185). -/
def State.timeoutFrame (s : State) : State :=
  match s.link.receiver.frame? with
  | none => s
  | some f => if s.expired f.1 then (s.linkError .timeout).setReceiver .hunt else s

/-! ## Sending (R182, R192) -/

/-- The bytes of the message being sent, none while idle fill is sent (R182, R192). -/
def Link.message (k : Link) : Option (List Byte) :=
  match k.sending with
  | .fill => none
  | .reply => k.replies.head?.map Reply.frame
  | .report => k.reports.head?.map Report.frame

/-- The reply is the one whose last byte the soft reset waits for (R194). -/
def Reply.isReset (r : Reply) : Bool := r.code = 0x71 && r.status = .ok

/-- The last byte of a message is clocked out (R182, R192). -/
def Link.endMessage (k : Link) (bytes : List Byte) : Link :=
  { k with sending := .fill, lastSent := bytes, position := 0, outByte := bytes.getLastD Config.idleFill }

/-- The last byte of the message being sent is clocked out: it leaves its queue, the soft reset is taken when it was the reply that the
reset waits for, and the next message is chosen (R190 to R192, R194). -/
def State.messageSent (s : State) : State :=
  match s.link.sending with
  | .fill => s
  | .reply =>
    match s.link.replies with
    | [] => s
    | r :: rest =>
      let t := { s with link := { s.link with replies := rest }.endMessage r.frame }
      let t := if s.link.paused ∧ r.isReset = true then t.softReset else t
      { t with link := t.link.choose }
  | .report =>
    match s.link.reports with
    | [] => s
    | r :: rest =>
      let t := { s with link := { s.link with reports := rest }.endMessage r.frame }
      { t with link := t.link.choose }

/-- One byte sent: idle fill, or the next byte of the message being sent, which is finished with its last byte (R182, R192). -/
def State.sendByte (s : State) : State :=
  match s.link.message with
  | none => { s with link := { s.link with outByte := Config.idleFill } }
  | some m =>
    if s.link.position + 1 < m.length then
      { s with link := { s.link with outByte := m.getD s.link.position 0, position := s.link.position + 1 } }
    else s.messageSent

/-! ## The byte clock (R182) -/

/-- One byte clocked by the host: one byte is sent and one is taken in. What the last byte of a message sets off comes ahead of what the
byte taken in sets off (DESIGN CHOICE, log 36). -/
def State.clockByte (s : State) (b : Byte) : State := s.sendByte.takeByte b

/-- Bytes clocked by the host, one after the other (R182). -/
def State.clock (s : State) (bytes : List Byte) : State := bytes.foldl State.clockByte s

/-- The bytes of the message being sent that are still to be clocked out, 0 while idle fill is sent (R192). -/
def Link.remaining (k : Link) : Nat := ((k.message.getD []).length) - k.position

/-- The host reads the message being sent to its last byte and sends fill of its own meanwhile (R182; DESIGN CHOICE, log 36). -/
def State.readMessage (s : State) : State := s.clock (List.replicate s.link.remaining Config.hostFill)

/-- The message being sent is the reply whose last byte the soft reset waits for (R194). -/
def Link.resetDue (k : Link) : Bool := k.paused && k.sending = .reply && k.replies.head?.any Reply.isReset

/-! ## The device requests (R193, R194) -/

/-- The reply fields of DEVICE_STATUS (R193). -/
def State.deviceStatus (s : State) : DeviceStatus where
  highway := s.highway.state
  period := s.highway.period
  memory := s.memory.mode
  freeSegments := s.pool.free.length
  freeSlabs := s.freeSlabs.length
  freeEngines := ((List.finRange 24).filter fun e => (s.eng e).state = .free).length
  waiting := s.arbiter.queue.length
  linkErrors := s.link.linkErrors
  lostReports := s.link.lostReports

/-- The owner's part of DEVICE_STATUS: the link error count and the lost-report count are cleared (R193). -/
def ownDeviceStatus (_ : Unit) (s : State) : Handled :=
  ⟨{ s with link := { s.link with linkErrors := 0, lostReports := 0 } }, .ok, .deviceStatus s.deviceStatus⟩

/-- The owner's part of DEVICE_RESET: the handler pauses (R194). -/
def ownDeviceReset (_ : Unit) (s : State) : Handled := accept { s with link := { s.link with paused := true } }

/-- A request whose code names none is answered UNKNOWN (R188); a code that names a request makes no such event. -/
def State.unknownRequest (s : State) (tag code : Byte) : State :=
  if s.link.paused ∨ code ∈ requestCodes then s
  else
    match s.link.buffer with
    | [] => if Config.replyPlaces ≤ s.link.places then s.linkError .overrun else s.reply ⟨code, tag, .unknown, .none⟩
    | r :: _ => if r.code = code ∧ r.tag = tag then s.takeBuffered.reply ⟨code, tag, .unknown, .none⟩ else s

/-! ## The commands -/

/-- REQUEST_FRAME_RECEIVED: the host clocks the bytes of a good request (R182, R186). -/
def execRequestFrameReceived (bytes : List Byte) (s : State) : Result := .next (s.clock bytes)

/-- FRAME_DISCARDED: the host clocks the bytes of a frame that is not a good request (R182, R185). -/
def execFrameDiscarded (bytes : List Byte) (s : State) : Result := .next (s.clock bytes)

/-- START_MARKER: the host clocks the byte 0xA5. In HUNT it begins a frame; inside a frame it is a frame byte like any other; out of time
it is judged in HUNT (R182, R185). -/
def execStartMarker (s : State) : Result := .next (s.clock [Config.startMarker])

/-- FRAME_TIMEOUT (R185); with no frame out of time there is no such event (log 1). -/
def execFrameTimeout (s : State) : Result := .next s.timeoutFrame

/-- MESSAGE_SENT: the message being sent goes out to its last byte (R182, R192); with none there is no such event (log 1). -/
def execMessageSent (s : State) : Result := .next s.readMessage

/-- SOFT_RESET: the reply to DEVICE_RESET goes out to its last byte, where the soft reset is taken (R182, R194); with another message or
none being sent there is no such event (log 1). -/
def execSoftReset (s : State) : Result := .next (if s.link.resetDue then s.readMessage else s)

/-- UNKNOWN (R188). -/
def execUnknown (tag code : Byte) (s : State) : Result := .next (s.unknownRequest tag code)

/-- DEVICE_STATUS (R193). -/
def execDeviceStatus (tag : Byte) (q : Payload Unit) (s : State) : Result := .next (serve 0x70 tag noFields q ownDeviceStatus s)

/-- DEVICE_RESET (R194). -/
def execDeviceReset (tag : Byte) (q : Payload Unit) (s : State) : Result := .next (serve 0x71 tag noFields q ownDeviceReset s)

end Sys2Proof.Machine
end

