-- ==== Sys2Proof/Machine/Clips.lean ====
section
/-! DEFINITION. The clip store's requests: CLIP_CREATE, CLIP_DATA, CLIP_CLOSE, CLIP_DELETE and CLIP_INFO, and the end and the abandonment
of a write (R120 to R129). -/

namespace Sys2Proof.Machine

/-! ## The end of a write (R126) -/

/-- The streams of every plan judged whose background names a clip (R151), from H0 to H15 (DESIGN CHOICE, log 39). -/
def State.judgePlansOn (s : State) (c : ClipId) : State :=
  (List.finRange 16).foldl (fun t h =>
    match (t.plan h).record with
    | some r => if r.background = .shared c then t.judgeStream h else t
    | none => t) s

/-- A write is finished when its closing flag is set and every sample is programmed: the sums are compared, the entry becomes READY or
DAMAGED, its directory update is queued, and the plans that want the clip are judged (R126, R151). -/
def State.finishWrite (s : State) : State :=
  match s.write.clip, s.write.closing with
  | some c, some given =>
    if s.write.programmed = (s.clip c).length then
      let state : ClipState := if s.write.sum = given then .ready else .damaged
      let t := { s with write := .empty }.modClip c fun x => { x with state := state, sum := s.write.sum }
      let t := (t.queueUpdate c).report (.clipState c state .closed (some s.write.sum))
      if state = .ready then (t.judgePlansOn c).finish s else t
    else s
  | _, _ => s

/-! ## Abandonment (R128) -/

/-- The memory operation that an abandonment leaves in progress: an erase of the clip is dropped, and a block program completes with
its read-back discarded (R128). -/
def MemOp.abandon : MemOp → Option MemOp
  | .fetch e g => some (.fetch e g)
  | .program slab offset samples _ => some (.program slab offset samples false)
  | .erase _ => none
  | .update c image => some (.update c image)

/-- The write is abandoned: its slabs return, its entry becomes EMPTY, and its erases and programs leave the port, an erase already
begun leaving its slab partly erased (R128). -/
def State.abandonWrite (s : State) : State :=
  match s.write.clip with
  | none => s
  | some c =>
    { s.abandonErase.emptyClip c with
      write := .empty
      memory := { s.memory with op := s.memory.op.bind MemOp.abandon, suspended := none } }

/-! ## Requests (R122 to R129) -/

/-- An owner that needs a clip: an identifier beyond C255 is refused with RANGE before any other check; then the condition of the
memory is judged (R122). -/
def withClip (n : Nat) (s : State) (f : ClipId → Handled) : Handled :=
  match toId 256 n with
  | some c => if s.memoryAway then refuse s .busy else f c
  | none => refuse s .range

/-- A length and a loop start that a clip may have (R123). -/
def goodShape (length : Nat) (loopStart : Option Nat) : Bool :=
  1 ≤ length && length ≤ Config.maxClip && (match loopStart with | some x => x < length | none => true)

/-- A clip created: the lowest-numbered free slabs, the WRITING entry, the write context, and the first erase (R123). -/
def State.createClip (s : State) (c : ClipId) (length : Nat) (loopStart : Option Nat) : State :=
  let n := slabsFor length
  ({ s with freeSlabs := s.freeSlabs.drop n, write := { WriteContext.empty with clip := some c } }.modClip c fun _ =>
    { state := .writing, length := length, loopStart := loopStart, slabs := s.freeSlabs.take n, sum := 0, useCount := 0 }).settlePort

/-- The owner's part of CLIP_CREATE, its checks in the order of R123. -/
def ownClipCreate (f : CreateFields) (s : State) : Handled := withClip f.clip s fun c =>
  if s.write.clip ≠ none then refuse s .busy
  else if (s.clip c).state ≠ .empty then refuse s .inUse
  else if goodShape f.length f.loopStart = false then refuse s .range
  else if s.freeSlabs.length < slabsFor f.length then refuse s .noResource
  else accept (s.createClip c f.length f.loopStart)

/-- A data message accepted into the write buffer (R124). -/
def State.acceptData (s : State) (samples : List Sample) : State :=
  { s with write := { s.write with
      buffer := s.write.buffer ++ [samples], expected := s.write.expected + samples.length } }.settlePort

/-- The owner's part of CLIP_DATA, its checks in the order of R124. -/
def ownClipData (f : DataFields) (s : State) : Handled := withClip f.clip s fun c =>
  if (s.clip c).state ≠ .writing then refuse s .busy
  else if f.samples = [] ∨ Config.dataSamples < f.samples.length then refuse s .length
  else if f.offset ≠ s.write.expected then refuse s .sequence
  else if (s.clip c).length < f.offset + f.samples.length then refuse s .range
  else if Config.writeMessages ≤ s.write.buffer.length then refuse s .busy
  else accept (s.acceptData f.samples)

/-- The owner's part of CLIP_CLOSE (R126). -/
def ownClipClose (f : CloseFields) (s : State) : Handled := withClip f.clip s fun c =>
  if (s.clip c).state ≠ .writing ∨ s.write.closing ≠ none then refuse s .busy
  else if s.write.expected < (s.clip c).length then refuse s .sequence
  else accept { s with write := { s.write with closing := some (BitVec.ofNat 32 f.sum) } }.finishWrite

/-- CLIP_DELETE by the state of the entry (R127). -/
def State.deleteClip (s : State) (c : ClipId) : State :=
  match (s.clip c).state with
  | .empty => s
  | .writing => s.abandonWrite.settlePort
  | .ready =>
    if (s.clip c).useCount = 0 then (s.emptyClip c).queueUpdate c
    else (s.modClip c fun x => { x with state := .retiring }).queueUpdate c
  | .damaged => (s.emptyClip c).queueUpdate c
  | .retiring => s

/-- The owner's part of CLIP_DELETE (R127). -/
def ownClipDelete (n : Nat) (s : State) : Handled := withClip n s fun c => accept (s.deleteClip c)

/-- The reply fields of CLIP_INFO (R129). -/
def State.clipInfo (s : State) (c : ClipId) : ClipInfo where
  entry := s.clip c
  writing := if (s.clip c).state = .writing
    then some (s.write.expected, s.write.programmed, s.write.closing.isSome) else none
  engines := ((List.finRange 24).filter fun e => (s.eng e).state ≠ .free && (s.eng e).clip = some c).map fun e =>
    ⟨e, (s.eng e).owner, (s.eng e).state, (s.eng e).underruns⟩

/-- The owner's part of CLIP_INFO: refused during a scan alone (R122, R129). -/
def ownClipInfo (n : Nat) (s : State) : Handled :=
  match toId 256 n with
  | some c => if s.memory.mode = .scanning then refuse s .busy else ⟨s, .ok, .clipInfo (s.clipInfo c)⟩
  | none => refuse s .range

/-! ## The commands -/

/-- CLIP_CREATE (R123). -/
def execClipCreate (tag : Byte) (q : Payload CreateFields) (s : State) : Result :=
  .next (serve 0x30 tag createFields q ownClipCreate s)

/-- CLIP_DATA (R124). -/
def execClipData (tag : Byte) (q : Payload DataFields) (s : State) : Result := .next (serve 0x31 tag dataFields q ownClipData s)

/-- CLIP_CLOSE (R126). -/
def execClipClose (tag : Byte) (q : Payload CloseFields) (s : State) : Result :=
  .next (serve 0x32 tag closeFields q ownClipClose s)

/-- CLIP_DELETE (R127). -/
def execClipDelete (tag : Byte) (q : Payload Nat) (s : State) : Result := .next (serve 0x33 tag wordField q ownClipDelete s)

/-- CLIP_INFO (R129). -/
def execClipInfo (tag : Byte) (q : Payload Nat) (s : State) : Result := .next (serve 0x34 tag wordField q ownClipInfo s)

end Sys2Proof.Machine
end

