-- ==== Sys2Proof/Machine/Memory.lean ====
section
/-! DEFINITION. The memory port's completions, the release and reclaim of the memory, and the directory scan: PROGRAM_COMPLETE,
ERASE_COMPLETE, DIRECTORY_UPDATE_COMPLETE, FETCH_COMPLETE, MEMORY_RELEASE, MEMORY_RECLAIM and SCAN_ENTRY_READ (R125, R130 to R138). -/

namespace Sys2Proof.Machine

/-- The operation in progress has completed. -/
def State.endOp (s : State) : State := { s with memory := { s.memory with op := none } }

/-! ## Programs, erases and updates -/

/-- The messages still held once a number of samples is programmed: those whose last sample is among them leave; `base` is the sample
at which the oldest message begins (R125). -/
def dropProgrammed (base programmed : Nat) : List (List Sample) → List (List Sample)
  | [] => []
  | m :: rest => if base + m.length ≤ programmed then dropProgrammed (base + m.length) programmed rest else m :: rest

/-- The write context after a block program whose read-back is given (R125). -/
def WriteContext.programBlock (w : WriteContext) (size : Nat) (back : List Sample) : WriteContext :=
  let base := w.expected - w.buffer.flatten.length
  { w with
    sum := addWords w.sum back
    programmed := w.programmed + size
    buffer := dropProgrammed base (w.programmed + size) w.buffer }

/-- The block program in progress completes (R125): the flash holds what was read back. -/
def State.programComplete (s : State) (found : Option (List Sample)) : State :=
  match s.memory.op with
  | some (.program slab offset samples stands) =>
    let back := found.getD samples
    let t := { s.endOp with
      flash := flashWriteBytes s.flash (slab * Config.slabBytes + offset * 2) (sampleBytes back) }
    let t := if stands then { t with write := t.write.programBlock samples.length back }.finishWrite else t
    t.settlePort
  | _ => s

/-- The slab erase in progress completes (R131). -/
def State.eraseComplete (s : State) : State :=
  match s.memory.op with
  | some (.erase slab) =>
    { s.endOp with
      flash := flashErase s.flash slab
      write := { s.write with erased := s.write.erased + 1 } }.settlePort
  | _ => s

/-- The directory update in progress completes: the stored entry is what the operation took at its start (R132). -/
def State.updateComplete (s : State) : State :=
  match s.memory.op with
  | some (.update c image) =>
    { s.endOp with flash := flashWriteBytes s.flash (Config.entryStride * c.val) image }.settlePort
  | _ => s

/-! ## Fetches (R138) -/

/-- The clip sample after another for a looping engine (R138). -/
def loopNext (c : Clip) (i : Nat) : Nat := if c.length ≤ i + 1 then c.loopStart.getD 0 else i + 1

/-- The clip samples that a looping fetch reads, and the position after them (R138). -/
def loopRun (c : Clip) : Nat → Nat → List Nat × Nat
  | 0, i => ([], i)
  | n + 1, i =>
    match loopRun c n (loopNext c i) with
    | (rest, last) => (i :: rest, last)

/-- The clip samples that a fetch reads, none for a place beyond the length, and the fetch position after it (R138). -/
def fetchPlaces (c : Clip) (loop : Bool) (start : Nat) : List (Option Nat) × Nat :=
  if loop then ((loopRun c 64 start).1.map some, (loopRun c 64 start).2)
  else ((List.range 64).map fun i => if start + i < c.length then some (start + i) else none, start + 64)

/-- The block that a fetch reads: from the image, or from the samples given where the flash differs from it; zeros beyond the length
(R138). -/
def State.fetchBlock (s : State) (c : Clip) (places : List (Option Nat)) (found : Option (List Sample)) : Block :=
  let image (i : Nat) : Sample := match sampleAddress c i with | some a => flashSample s.flash a | none => 0
  match found with
  | none => places.map fun x => match x with | some i => image i | none => 0
  | some data => List.zipWith (fun (x : Option Nat) d => if x.isSome then d else (0 : Sample)) places data

/-- The owner's whisper entry has begun (R167). -/
def State.beginWhisper (s : State) (e : EngId) : State :=
  match (s.eng e).owner with
  | some (.whisper p) =>
    if (s.pos p).whisper.head = .granted e then
      s.modWhisper p fun q => { q with entries := match q.entries with | w :: rest => { w with begun := true } :: rest | [] => [] }
    else s
  | _ => s

/-- A PRIMING engine enters PLAYING at 2 blocks, or when no clip data is left to fetch (R138). -/
def State.startPlaying (s before : State) (e : EngId) : State :=
  if (s.eng e).state = .priming ∧ (2 ≤ (s.eng e).buffer.length ∨ s.dataRemains e = false) then
    ((s.modEng e fun x => { x with state := .playing }).beginWhisper e).finish before
  else s

/-- The block fetch in progress completes: its block joins the buffer of the engine that issued it, or is discarded (R138). The fetch
position moves on here, and not for a discarded block (DESIGN CHOICE, log 33). -/
def State.fetchComplete (s : State) (found : Option (List Sample)) : State :=
  match s.memory.op with
  | some (.fetch e grant) =>
    let x := s.eng e
    let t := s.endOp
    let wanted := grant = x.grant ∧ (x.state = .priming ∨ x.state = .playing)
    (match x.clip with
      | some c =>
        if wanted then
          let places := fetchPlaces (s.clip c) x.loop x.fetchPos
          let final := !x.loop && decide (x.fetchPos < (s.clip c).length ∧ (s.clip c).length ≤ x.fetchPos + 64)
          let block : Fetched := ⟨s.fetchBlock (s.clip c) places.1 found, final⟩
          let t := t.modEng e fun y => { y with buffer := y.buffer ++ [block], fetchPos := places.2 }
          ((t.startPlaying s e).addFetch e)
        else t
      | none => t).settlePort
  | _ => s

/-! ## Release and reclaim (R133, R135) -/

/-- The owner's part of MEMORY_RELEASE, up to the reply (R133). -/
def ownMemoryRelease (_ : Unit) (s : State) : Handled :=
  match s.memory.mode with
  | .owned =>
    let t := s.abandonWrite
    let t := match s.write.clip with | some c => t.report (.clipState c .empty .abandoned none) | none => t
    accept { t with memory := { t.memory with mode := .releasing } }
  | .releasing => accept s
  | .released => accept s
  | .scanning => refuse s .busy

/-- The release of the lines at once after the reply, when nothing is in progress or queued (R133). -/
def State.afterRelease (s before : State) : State :=
  if before.memory.mode = .owned ∧ s.memory.mode = .releasing then s.settlePort else s

/-- The reclaim's steps 1 and 2: every engine released "interrupted", with the arbiter as in SCANNING, and the scan begun (R135). -/
def State.reclaim (s : State) : State :=
  let t := { s with arbiter := { s.arbiter with scanning := true } }.releaseAll .interrupted
  { t with memory := { t.memory with mode := .scanning, updates := [] }, scan := .start }.finish s

/-- The owner's part of MEMORY_RECLAIM (R135). -/
def ownMemoryReclaim (_ : Unit) (s : State) : Handled :=
  match s.memory.mode with
  | .released => accept s.reclaim
  | .owned => refuse s .busy
  | .releasing => refuse s .busy
  | .scanning => refuse s .busy

/-! ## The directory scan (R136) -/

/-- A number of n bytes at a place of a stored entry, least significant byte first (Table 6-8). -/
def entryNumber (bytes : List Byte) (place : Nat) : Nat → Nat
  | 0 => 0
  | n + 1 => (bytes.getD place 0).toNat + 256 * entryNumber bytes (place + 1) n

/-- What a stored entry is found to be, before the slabs of other entries are looked at. -/
inductive Stored where
  /-- Taken as EMPTY without complaint. -/
  | blank
  /-- READY or DAMAGED with a field out of range. -/
  | bad
  | good (c : Clip)
  deriving DecidableEq, Repr

/-- The READY or DAMAGED entry that a stored entry's fields give (Table 6-8). -/
def storedClip (bytes : List Byte) (state : ClipState) : Clip where
  state := state
  length := entryNumber bytes 2 4
  loopStart := if entryNumber bytes 1 1 = 0 then none else some (entryNumber bytes 6 4)
  slabs := (List.range (min 64 (entryNumber bytes 14 2))).map fun i => entryNumber bytes (16 + 2 * i) 2
  sum := BitVec.ofNat 32 (entryNumber bytes 10 4)
  useCount := 0

/-- The fields of a stored entry lie in their ranges (R136). -/
def inRanges (bytes : List Byte) (c : Clip) : Bool :=
  goodShape c.length c.loopStart && entryNumber bytes 14 2 = slabsFor c.length
    && c.slabs.all fun n => Config.indexSlabs ≤ n && n < Config.slabs

/-- A stored entry judged by itself (R136). -/
def readEntry (bytes : List Byte) : Stored :=
  if entryNumber bytes 144 2 ≠ byteSum (bytes.take 144) then .blank
  else
    let judge (state : ClipState) : Stored :=
      if inRanges bytes (storedClip bytes state) then .good (storedClip bytes state) else .bad
    match entryNumber bytes 0 1 with
    | 2 => judge .ready
    | 3 => judge .damaged
    | _ => .blank

/-- No number stands twice in a list. -/
def distinct : List Nat → Bool
  | [] => true
  | x :: xs => !xs.contains x && distinct xs

/-- A slab is held by an entry that the scan has kept already: one numbered below n (R136). -/
def State.keptBelow (s : State) (n slab : Nat) : Bool :=
  (List.finRange 256).any fun c => c.val < n && (s.clip c).slabs.contains slab

/-- The working entry set as the scan finds it, and its count (R136). -/
def State.scanEntry (s : State) (c : ClipId) (bytes : List Byte) : State :=
  let put (x : Clip) : State := s.modClip c fun _ => x
  let discard : State := { put Clip.empty with scan := { s.scan with discarded := s.scan.discarded + 1 } }.report
    (.clipState c .empty .discarded none)
  match readEntry bytes with
  | .blank => put Clip.empty
  | .bad => discard
  | .good x =>
    if distinct x.slabs = false ∨ x.slabs.any (s.keptBelow c.val) = true then discard
    else if x.state = .ready then { put x with scan := { s.scan with ready := s.scan.ready + 1 } }
    else { put x with scan := { s.scan with damaged := s.scan.damaged + 1 } }

/-- The data slabs that no entry holds (R136). -/
def State.unclaimed (s : State) : List Nat :=
  ((List.range 1020).map (· + 4)).filter fun n => !s.keptBelow 256 n

/-- The scan completes: steps 3 and 4 of R135, and the heads considered engine by engine (R144). A whisper queue whose head is skipped
makes its next request, and has it taken, before the next FREE engine is considered (DESIGN CHOICE, log 40). -/
def State.scanDone (s before : State) : State :=
  let t := { s with freeSlabs := s.unclaimed, memory := { s.memory with mode := .owned } }.report
    (.scanDone s.scan.ready s.scan.damaged s.scan.discarded)
  let t := (List.finRange 16).foldl (fun t h => t.judgeStream h) t
  let t := { t with arbiter := { t.arbiter with scanning := false } }
  let t := (List.finRange 24).foldl (fun t e => t.run [.heads e]) t
  t.settlePort.finish before

/-- The scan reads its next stored entry; the last one completes it (R136). Where the line card has rewritten the flash, the bytes
found become the part's image (log 6). -/
def State.scanRead (s : State) (found : Option (List Byte)) : State :=
  if s.memory.mode = .scanning then
    match toId 256 s.scan.next with
    | none => s
    | some c =>
      let start := Config.entryStride * c.val
      let t := match found with
        | some bytes => { s with flash := flashWriteBytes s.flash start bytes }
        | none => s
      let bytes := found.getD (flashReadBytes s.flash start Config.entryBytes)
      let t := t.scanEntry c bytes
      let t := { t with scan := { t.scan with next := s.scan.next + 1 } }
      if s.scan.next + 1 < 256 then t else t.scanDone s
  else s

/-! ## The commands -/

/-- MEMORY_RELEASE (R133). -/
def execMemoryRelease (tag : Byte) (q : Payload Unit) (s : State) : Result :=
  .next ((serve 0x38 tag noFields q ownMemoryRelease s).afterRelease s)

/-- MEMORY_RECLAIM (R135). -/
def execMemoryReclaim (tag : Byte) (q : Payload Unit) (s : State) : Result :=
  .next (serve 0x39 tag noFields q ownMemoryReclaim s)

/-- SCAN_ENTRY_READ (R136); outside SCANNING there is no such event (log 1). -/
def execScanEntryRead (found : Option (List Byte)) (s : State) : Result := .next (s.scanRead found)

/-- FETCH_COMPLETE (R138); with no fetch in progress there is no such event (log 1). -/
def execFetchComplete (found : Option (List Sample)) (s : State) : Result := .next (s.fetchComplete found)

/-- PROGRAM_COMPLETE (R125); with no program in progress there is no such event (log 1). -/
def execProgramComplete (found : Option (List Sample)) (s : State) : Result := .next (s.programComplete found)

/-- ERASE_COMPLETE (R131); with no erase in progress there is no such event (log 1). -/
def execEraseComplete (s : State) : Result := .next s.eraseComplete

/-- DIRECTORY_UPDATE_COMPLETE (R132); with no update in progress there is no such event (log 1). -/
def execDirectoryUpdateComplete (s : State) : Result := .next s.updateComplete

end Sys2Proof.Machine
end

