-- ==== Sys2Proof/Machine/Mix.lean ====
section
/-! DEFINITION. The mix matrix's block events: effective targets, ramps, the mix sum, the ear volume and the acoustic-shock limiter
(R50, R61, R64 to R74), and the two commands EAR_BLOCK_EVENT and SEND_BLOCK_EVENT. -/

namespace Sys2Proof.Machine

/-! ## Effective targets -/

/-- The source of a feed is the microphone of a muted position (R64). -/
def State.muted (s : State) (f : Feed) : Bool :=
  match f.source with
  | .mic p => (s.pos p).mute
  | .rx _ => false
  | .engine _ => false
  | .program _ => false

/-- The effective target of a feed of EAR(p) at a block event (R64, R65). -/
def State.earTarget (s : State) (p : PosId) (f : Feed) : Nat :=
  if f.fading then 0
  else if s.muted f then 0
  else if f.role = .caller ∧ (tget s.ears p).any (fun g => g.role = .whisper ∧ g.fading = false)
  then duckGain f.target (s.pos p).config.whisperDuck
  else f.target

/-- The announce duck of the plan that a leg's session names (R66). -/
def State.announceDuck (s : State) (l : LegId) : Option Nat :=
  match (s.leg l).session with
  | some x =>
    match x.plan with
    | some h => (s.plan h).record.map (·.duck)
    | none => none
  | none => none

/-- The effective target of a feed of SEND(l) at a block event (R64, R66). -/
def State.sendTarget (s : State) (l : LegId) (f : Feed) : Nat :=
  if f.fading then 0
  else if s.muted f then 0
  else if f.role = .music ∧ (tget s.sends l).any (fun g => g.role = .announce ∧ g.fading = false)
  then match s.announceDuck l with
    | some d => duckGain f.target d
    | none => f.target
  else f.target

/-! ## Ramps and the mix sum -/

/-- A feed at work in a block: its effective target and the samples of its source block still to come. -/
structure Lane where
  feed : Feed
  effective : Nat
  rest : List Sample
  deriving DecidableEq, Repr

/-- The block a source had in the period before (R32). -/
def State.sourceBlock (s : State) (x : Source) : Block :=
  match x with
  | .mic p => tget s.before.mic p
  | .rx l => tget s.before.rx l
  | .engine e => tget s.before.engine e
  | .program k => tget s.before.program k

/-- The mix sample: the sum of source samples times current gains, rounded, shifted and saturated (R68). -/
def mixSample (lanes : List Lane) : Sample :=
  sat16 (round14 (lanes.foldl (fun acc x => acc + (x.rest.headD 0).toInt * (x.feed.gain : Int)) 0))

/-- One feed after a sample: one step toward its effective target; none when a fading feed has reached 0 (R61, R67). -/
def Lane.advance (x : Lane) : Option Lane :=
  let gain := stepToward x.feed.gain x.effective x.feed.step
  if x.feed.fading ∧ gain = 0 then none
  else some { x with feed := { x.feed with gain := gain }, rest := x.rest.tail }

/-- Every feed after a sample. -/
def advanceLanes (lanes : List Lane) : List Lane := lanes.filterMap Lane.advance

/-- The mix samples of n sample times and the feeds after them, without ear volume or limiter (R69). -/
def mixRun : Nat → List Lane → List Sample × List Lane
  | 0, lanes => ([], lanes)
  | n + 1, lanes =>
    match mixRun n (advanceLanes lanes) with
    | (out, after) => (mixSample lanes :: out, after)

/-- The feeds of EAR(p) at work in a block. -/
def State.earLanes (s : State) (p : PosId) : List Lane :=
  (tget s.ears p).map fun f => ⟨f, s.earTarget p f, s.sourceBlock f.source⟩

/-- The feeds of SEND(l) at work in a block. -/
def State.sendLanes (s : State) (l : LegId) : List Lane :=
  (tget s.sends l).map fun f => ⟨f, s.sendTarget l f, s.sourceBlock f.source⟩

/-! ## The limiter -/

/-- One ear sample through the limiter: the output and the gain after it (R71, R72). -/
def limit (gain level release : Nat) (v : Sample) : Sample × Nat :=
  let y := round14 (v.toInt * (gain : Int))
  if level < y.natAbs then
    let lowered := level * Config.unity / v.toInt.natAbs
    (sat16 (round14 (v.toInt * (lowered : Int))), lowered)
  else (sat16 y, min Config.unity (gain + release))

/-- What the ear has computed so far in a block: output (newest first), limiter, and the shock reports (newest first). -/
structure EarWork where
  out : List Sample
  limiter : Limiter
  shocks : List (Nat × Nat)
  deriving DecidableEq, Repr

/-- One mix sample through the ear volume, the limiter and the shock count (R70 to R73). -/
def EarWork.step (volume level release : Nat) (w : EarWork) (m : Sample) : EarWork :=
  let v := scale m volume
  let y := limit w.limiter.gain level release v
  if 2 * level ≤ v.toInt.natAbs then
    let count := sat16Count w.limiter.shocks 1
    { out := y.1 :: w.out
      limiter := ⟨y.2, count, if w.limiter.holdoff = 0 then Config.shockHoldoff else w.limiter.holdoff⟩
      shocks := if w.limiter.holdoff = 0 then (v.toInt.natAbs, count) :: w.shocks else w.shocks }
  else { w with out := y.1 :: w.out, limiter := { w.limiter with gain := y.2 } }

/-! ## The downlink buffer -/

/-- Samples written to a buffer: those that fit, in order, and an overrun counted when some do not (R12, R14). -/
def Elastic.append (b : Elastic) (xs : List Sample) : Elastic :=
  let free := Config.elasticPlaces - b.samples.length
  if xs.length ≤ free then { b with samples := b.samples ++ xs }
  else { b with samples := b.samples ++ xs.take free, overruns := sat16Count b.overruns 1 }

/-- An EAR block written into the downlink buffer, with the slip its level calls for (R14). -/
def Elastic.writeEar (b : Elastic) (block : Block) : Elastic :=
  let level := b.samples.length + 32
  if Config.slipHigh ≤ level then
    { b with slips := sat16Count b.slips 1 }.append block.dropLast
  else if level ≤ Config.slipLow then
    { b with slips := sat16Count b.slips 1 }.append (block ++ (block.getLast?).toList)
  else b.append block

/-! ## Block events -/

/-- The block event of EAR(p) (R50, R73, R74). -/
def State.earBlock (s : State) (p : PosId) : State :=
  let r := mixRun Config.blockSamples (s.earLanes p)
  let x := s.pos p
  let holdoff := x.limiter.holdoff - 1
  if s.isLive p then
    let w := r.1.foldl (EarWork.step x.earVolume x.config.limiterLevel x.config.limiterRelease)
      ⟨[], { x.limiter with holdoff := holdoff }, []⟩
    let t := { s with ears := tset s.ears p (r.2.map Lane.feed) }.modPos p fun y => { y with
      limiter := w.limiter
      port := { y.port with downlink := y.port.downlink.writeEar w.out.reverse } }
    w.shocks.reverse.foldl (fun t k => t.report (.acousticShock p k.1 k.2)) t
  else
    { s with ears := tset s.ears p (r.2.map Lane.feed) }.modPos p fun y => { y with
      limiter := { y.limiter with gain := Config.unity, holdoff := holdoff } }

/-- The block event of SEND(l): the block goes to the highway and joins the reference history (R33, R69, R98). -/
def State.sendBlock (s : State) (l : LegId) : State :=
  let r := mixRun Config.blockSamples (s.sendLanes l)
  { s with
    sends := tset s.sends l (r.2.map Lane.feed)
    highway := { s.highway with computed := tset s.highway.computed l r.1 } }.modEc l fun c => { c with
      history := (r.1 :: c.history).take Config.historyBlocks, joined := true }

/-- EAR_BLOCK_EVENT (R50). -/
def execEarBlockEvent (p : PosId) (s : State) : Result := .next (s.earBlock p)

/-- SEND_BLOCK_EVENT (R69). -/
def execSendBlockEvent (l : LegId) (s : State) : Result := .next (s.sendBlock l)

end Sys2Proof.Machine
end

