-- ==== Sys2Proof/Machine/Plans.lean ====
section
/-! DEFINITION. Hold plans: PLAN_SET, PLAN_DELETE, PLAN_INFO and the hold session's block event under ANNOUNCEMENT_STEP (R146 to R163).
Sessions begin and end, and the shared stream is requested and given back, in Cascade.lean. -/

namespace Sys2Proof.Machine

/-- An owner that needs a plan: an identifier beyond H15 is refused with RANGE. -/
def withPlan (n : Nat) (s : State) (f : PlanId → Handled) : Handled :=
  match toId 16 n with
  | some h => f h
  | none => refuse s .range

/-! ## PLAN_SET (R147) -/

/-- The background that a request names; none when a kind or an identifier names nothing (R147). -/
def backgroundOf : BackgroundField → Option Background
  | .absent => some .absent
  | .shared c => (toId 256 c).map .shared
  | .program k => (toId 4 k).map .program
  | .other _ => none

/-- The record as stored, the interval and the announce duck clamped; none when R147 refuses it with RANGE. -/
def storedPlan (f : PlanFields) : Option PlanRecord := do
  let background ← backgroundOf f.background
  let greeting ← optionalId 256 f.greeting
  let announcements ← allIds 256 f.announcements
  let resume ← flagOf f.resume
  let fallback ← optionalId 4 f.fallback
  return {
    background, musicLevel := f.musicLevel, greeting, announcements, firstDelay := f.firstDelay
    interval := max 250 f.interval, duck := min 16384 f.duck, resume, fallback }

/-- A changed background of a plan with users: a bound engine in PRIMING or PLAYING is stopped and a pending request withdrawn
(R152). -/
def State.stopStream (s : State) (h : PlanId) : State :=
  let t := match (s.plan h).bound with
    | some e => if (s.eng e).state = EngineState.priming ∨ (s.eng e).state = EngineState.playing then s.run [.stop e .stopped] else s
    | none => s
  if (t.plan h).pending then (t.withdraw (.shared h)).modPlan h fun x => { x with pending := false } else t

/-- The plan's background changes under its users (R152). -/
def State.backgroundChanges (s : State) (h : PlanId) (r : PlanRecord) : Bool :=
  0 < (s.plan h).useCount && (match (s.plan h).record with | some old => old.background ≠ r.background | none => false)

/-- An accepted PLAN_SET (R147, R151, R152, R159). -/
def State.setPlan (s : State) (h : PlanId) (r : PlanRecord) : State :=
  let t := s.modPlan h fun x => { x with record := some r }
  let t := if s.backgroundChanges h r then t.stopStream h else t
  (t.judgeStream h).finish s

/-- The owner's part of PLAN_SET: RANGE, then LENGTH (R147); a resume byte that names no value is refused in the first check (DESIGN
CHOICE, log 37). -/
def ownPlanSet (f : PlanFields) (s : State) : Handled :=
  match toId 16 f.plan, storedPlan f with
  | some h, some r => if Config.announcements < r.announcements.length then refuse s .length else accept (s.setPlan h r)
  | _, _ => refuse s .range

/-! ## PLAN_DELETE and PLAN_INFO (R148, R149) -/

/-- The owner's part of PLAN_DELETE (R148). -/
def ownPlanDelete (n : Nat) (s : State) : Handled := withPlan n s fun h =>
  if (s.plan h).record = none then accept s
  else if 0 < (s.plan h).useCount then refuse s .inUse
  else accept (s.modPlan h fun _ => Plan.reset)

/-- The reply fields of PLAN_INFO: none for an undefined plan (R149). -/
def State.planInfo (s : State) (h : PlanId) : Option PlanInfo :=
  (s.plan h).record.map fun r =>
    { record := r
      useCount := (s.plan h).useCount
      bound := (s.plan h).bound.map fun e => (e, (s.eng e).state)
      pending := (s.plan h).pending
      source := s.planMusic h }

/-- The owner's part of PLAN_INFO (R149). -/
def ownPlanInfo (n : Nat) (s : State) : Handled := withPlan n s fun h => ⟨s, .ok, .planInfo (s.planInfo h)⟩

/-! ## The announcement step (R157) -/

/-- The first READY clip of a list from a place on, wrapping, with its place: n tries are left (R157). -/
def State.findReady (s : State) (list : List ClipId) (place : Nat) : Nat → Option (Nat × ClipId)
  | 0 => none
  | n + 1 =>
    match list[place % list.length]? with
    | none => none
    | some c => if s.isReady c then some (place % list.length, c) else s.findReady list (place + 1) n

/-- An announcement step of a session on a plan with record r (R157). -/
def State.stepSession (s : State) (l : LegId) (x : Session) (r : PlanRecord) : State :=
  let put (y : Session) : State := s.modLeg l fun z => { z with session := some y }
  match r.announcements with
  | [] => put { x with countdown := some r.interval }
  | list =>
    match s.findReady list (x.nextIndex % list.length) list.length with
    | some (place, c) =>
      (put { x with phase := .announcing, countdown := none, nextIndex := place, request := some ⟨c, some place, none⟩ }).run
        [.request ⟨.leg l, c⟩]
    | none => put { x with countdown := some r.interval, nextIndex := x.nextIndex % list.length }

/-- The block event of a leg's hold session: in BACKGROUND on a plan the countdown falls, and at 0 a step is taken (R157). -/
def State.sessionBlock (s : State) (l : LegId) : State :=
  match (s.leg l).session with
  | none => s
  | some x =>
    match x.phase, x.countdown, s.sessionRecord x with
    | .background, some c, some r =>
      if c - 1 = 0 then (s.stepSession l { x with countdown := some 0 } r).finish s
      else s.modLeg l fun z => { z with session := some { x with countdown := some (c - 1) } }
    | _, _, _ => s

/-! ## The commands -/

/-- PLAN_SET (R147). -/
def execPlanSet (tag : Byte) (q : Payload PlanFields) (s : State) : Result := .next (serve 0x20 tag planFields q ownPlanSet s)

/-- PLAN_DELETE (R148). -/
def execPlanDelete (tag : Byte) (q : Payload Nat) (s : State) : Result := .next (serve 0x21 tag wordField q ownPlanDelete s)

/-- PLAN_INFO (R149). -/
def execPlanInfo (tag : Byte) (q : Payload Nat) (s : State) : Result := .next (serve 0x22 tag wordField q ownPlanInfo s)

/-- ANNOUNCEMENT_STEP: the block event of the leg's hold session (R157); without a running countdown it does nothing. -/
def execAnnouncementStep (l : LegId) (s : State) : Result := .next (s.sessionBlock l)

end Sys2Proof.Machine
end

