-- ==== Sys2Proof/Machine/Dispatch.lean ====
section
/-! DEFINITION. The dispatch of a command to its meaning, one arm per command. -/

namespace Sys2Proof.Machine

/-- A command's effect on everything but the queue of waiting commands. -/
def exec (i : Instr) (s : State) : Host.Outcome State Fault Refusal :=
  match i with
  | .hardwareReset => Sys2Proof.Machine.execHardwareReset s
  | .softReset => Sys2Proof.Machine.execSoftReset s
  | .portEnable tag q => Sys2Proof.Machine.execPortEnable tag q s
  | .portDisable tag q => Sys2Proof.Machine.execPortDisable tag q s
  | .positionConfig tag q => Sys2Proof.Machine.execPositionConfig tag q s
  | .positionMute tag q => Sys2Proof.Machine.execPositionMute tag q s
  | .positionStatus tag q => Sys2Proof.Machine.execPositionStatus tag q s
  | .positionStats tag q => Sys2Proof.Machine.execPositionStats tag q s
  | .upFrame p frame time => Sys2Proof.Machine.execUpFrame p frame time s
  | .downFrame p => Sys2Proof.Machine.execDownFrame p s
  | .expectedFrameMissed p => Sys2Proof.Machine.execExpectedFrameMissed p s
  | .lockLoss p => Sys2Proof.Machine.execLockLoss p s
  | .portBlockEvent p presence => Sys2Proof.Machine.execPortBlockEvent p presence s
  | .headsetInserted p => Sys2Proof.Machine.execHeadsetInserted p s
  | .acquisitionStart p presence => Sys2Proof.Machine.execAcquisitionStart p presence s
  | .unplug p => Sys2Proof.Machine.execUnplug p s
  | .portLive p presence => Sys2Proof.Machine.execPortLive p presence s
  | .recoveryWindowExpiry p presence => Sys2Proof.Machine.execRecoveryWindowExpiry p presence s
  | .periodStart => Sys2Proof.Machine.execPeriodStart s
  | .syncLost => Sys2Proof.Machine.execSyncLost s
  | .syncRegained frame => Sys2Proof.Machine.execSyncRegained frame s
  | .legOpen tag q => Sys2Proof.Machine.execLegOpen tag q s
  | .legHold tag q => Sys2Proof.Machine.execLegHold tag q s
  | .legConnect tag q => Sys2Proof.Machine.execLegConnect tag q s
  | .legCancelConnect tag q => Sys2Proof.Machine.execLegCancelConnect tag q s
  | .legClose tag q => Sys2Proof.Machine.execLegClose tag q s
  | .legStatus tag q => Sys2Proof.Machine.execLegStatus tag q s
  | .earBlockEvent p => Sys2Proof.Machine.execEarBlockEvent p s
  | .sendBlockEvent l => Sys2Proof.Machine.execSendBlockEvent l s
  | .hangoverEnd p presence => Sys2Proof.Machine.execHangoverEnd p presence s
  | .ecBlockEvent l => Sys2Proof.Machine.execEcBlockEvent l s
  | .searchWindowEnd l => Sys2Proof.Machine.execSearchWindowEnd l s
  | .erleWindowEnd l => Sys2Proof.Machine.execErleWindowEnd l s
  | .ecConfig tag q => Sys2Proof.Machine.execEcConfig tag q s
  | .planSet tag q => Sys2Proof.Machine.execPlanSet tag q s
  | .planDelete tag q => Sys2Proof.Machine.execPlanDelete tag q s
  | .planInfo tag q => Sys2Proof.Machine.execPlanInfo tag q s
  | .announcementStep l => Sys2Proof.Machine.execAnnouncementStep l s
  | .clipCreate tag q => Sys2Proof.Machine.execClipCreate tag q s
  | .clipData tag q => Sys2Proof.Machine.execClipData tag q s
  | .clipClose tag q => Sys2Proof.Machine.execClipClose tag q s
  | .clipDelete tag q => Sys2Proof.Machine.execClipDelete tag q s
  | .clipInfo tag q => Sys2Proof.Machine.execClipInfo tag q s
  | .memoryRelease tag q => Sys2Proof.Machine.execMemoryRelease tag q s
  | .memoryReclaim tag q => Sys2Proof.Machine.execMemoryReclaim tag q s
  | .scanEntryRead found => Sys2Proof.Machine.execScanEntryRead found s
  | .fetchComplete found => Sys2Proof.Machine.execFetchComplete found s
  | .programComplete found => Sys2Proof.Machine.execProgramComplete found s
  | .eraseComplete => Sys2Proof.Machine.execEraseComplete s
  | .directoryUpdateComplete => Sys2Proof.Machine.execDirectoryUpdateComplete s
  | .engineBlockEvent e => Sys2Proof.Machine.execEngineBlockEvent e s
  | .whisperPrompt tag q => Sys2Proof.Machine.execWhisperPrompt tag q s
  | .whisperFlush tag q => Sys2Proof.Machine.execWhisperFlush tag q s
  | .gapEnd p => Sys2Proof.Machine.execGapEnd p s
  | .whisperDeadlineExpiry p => Sys2Proof.Machine.execWhisperDeadlineExpiry p s
  | .supervise tag q => Sys2Proof.Machine.execSupervise tag q s
  | .superviseEnd tag q => Sys2Proof.Machine.execSuperviseEnd tag q s
  | .requestFrameReceived frame => Sys2Proof.Machine.execRequestFrameReceived frame s
  | .frameDiscarded frame => Sys2Proof.Machine.execFrameDiscarded frame s
  | .frameTimeout => Sys2Proof.Machine.execFrameTimeout s
  | .unknown tag code => Sys2Proof.Machine.execUnknown tag code s
  | .messageSent => Sys2Proof.Machine.execMessageSent s
  | .deviceStatus tag q => Sys2Proof.Machine.execDeviceStatus tag q s
  | .deviceReset tag q => Sys2Proof.Machine.execDeviceReset tag q s
  | .highwayFrame frame wellPlaced => Sys2Proof.Machine.execHighwayFrame frame wellPlaced s
  | .startMarker => Sys2Proof.Machine.execStartMarker s

end Sys2Proof.Machine
end

