-- ==== Sys2Proof/WellFormed.lean ====
section
/-! DEFINITION. Which commands are well formed: every field fits the bytes that R184 gives it, and every input of an event has the size
that the manual gives it. -/

namespace Sys2Proof

/-- Fits one byte. -/
def isByte (n : Nat) : Bool := n < 256
/-- Fits two bytes. -/
def isWord (n : Nat) : Bool := n < 65536
/-- Fits the 15 bits of a gain value. -/
def isGain (n : Nat) : Bool := n < 32768
/-- Fits four bytes. -/
def isLong (n : Nat) : Bool := n < 4294967296
/-- An optional field. -/
def optWf {α : Type} (f : α → Bool) : Option α → Bool
  | none => true
  | some x => f x

/-- A payload whose fields are well formed. -/
def Payload.wf {α : Type} (f : α → Bool) : Payload α → Bool
  | .fields x => f x
  | .malformed => true

/-- A delay mode: a kind that names neither setting is 2 or above. -/
def DelayField.wf : DelayField → Bool
  | .auto => true
  | .fixed d => isWord d
  | .other k => 2 ≤ k && isByte k

/-- A background: a kind that names none is 3 or above. -/
def BackgroundField.wf : BackgroundField → Bool
  | .absent => true
  | .shared c => isWord c
  | .program k => isWord k
  | .other k => 3 ≤ k && isByte k

/-- The configuration record (R184, Table 1-4). -/
def RecordFields.wf (r : RecordFields) : Bool :=
  isGain r.earVolume && isGain r.sidetone && isWord r.limiterLevel && isWord r.limiterRelease && isByte r.nsEnable
    && isWord r.nsRatio && isWord r.nsHangover && isGain r.nsAttenuation && isWord r.nsAttack && isWord r.nsRelease
    && isWord r.whisperGap && isGain r.whisperDuck && isWord r.whisperDeadline && optWf isWord r.fallback && isByte r.muteMode
    && isByte r.volumeMode && isByte r.pushToTalk && isWord r.qualification && isWord r.recovery && isWord r.parityThreshold
    && isWord r.hysteresis

/-- POSITION_CONFIG. -/
def ConfigFields.wf (f : ConfigFields) : Bool := isWord f.position && f.record.wf
/-- POSITION_MUTE. -/
def MuteFields.wf (f : MuteFields) : Bool := isWord f.position && isByte f.value
/-- LEG_OPEN. -/
def OpenFields.wf (f : OpenFields) : Bool := isWord f.leg && isWord f.tail && f.delay.wf
/-- LEG_HOLD. -/
def HoldFields.wf (f : HoldFields) : Bool := isWord f.leg && optWf isWord f.plan
/-- LEG_CONNECT. -/
def ConnectFields.wf (f : ConnectFields) : Bool := isWord f.leg && isWord f.position && optWf isWord f.clip
/-- EC_CONFIG. -/
def EcFields.wf (f : EcFields) : Bool :=
  isWord f.leg && optWf isWord f.tail && optWf DelayField.wf f.delay && optWf isGain f.nlp && isByte f.action
/-- PLAN_SET. -/
def PlanFields.wf (f : PlanFields) : Bool :=
  isWord f.plan && f.background.wf && isGain f.musicLevel && optWf isWord f.greeting && isWord f.announcements.length
    && f.announcements.all isWord && isWord f.firstDelay && isWord f.interval && isGain f.duck && isByte f.resume
    && optWf isWord f.fallback
/-- CLIP_CREATE. -/
def CreateFields.wf (f : CreateFields) : Bool := isWord f.clip && isLong f.length && optWf isLong f.loopStart
/-- CLIP_DATA. -/
def DataFields.wf (f : DataFields) : Bool := isWord f.clip && isLong f.offset && isWord f.samples.length
/-- CLIP_CLOSE. -/
def CloseFields.wf (f : CloseFields) : Bool := isWord f.clip && isLong f.sum
/-- WHISPER_PROMPT. -/
def PromptFields.wf (f : PromptFields) : Bool := isWord f.position && isWord f.clip && isByte f.stopOnSpeech && isWord f.hostTag
/-- SUPERVISE. -/
def SuperviseFields.wf (f : SuperviseFields) : Bool := isWord f.supervisor && isWord f.agent && isByte f.mode

/-- An up-frame carries 16 samples (R1). -/
def UpFrame.wf (f : UpFrame) : Bool := f.samples.length = Config.frameSamples

/-- A highway frame carries a sample for each channel (section 2.1, R34). -/
def HighwayFrame.wf (f : HighwayFrame) : Bool := f.receive.length = 64 && f.program.length = 4

/-- The bytes that the host clocks in one command: at least one, and no more than the 1028 of the longest frame with its start marker
(Table 9-1). -/
def frameWf (bytes : List Byte) : Bool := 1 ≤ bytes.length && bytes.length ≤ 1028

/-- Well-formed commands. -/
def Instr.wf : Instr → Bool
  | .hardwareReset => true
  | .softReset => true
  | .portEnable _ q => q.wf isWord
  | .portDisable _ q => q.wf isWord
  | .positionConfig _ q => q.wf ConfigFields.wf
  | .positionMute _ q => q.wf MuteFields.wf
  | .positionStatus _ q => q.wf isWord
  | .positionStats _ q => q.wf isWord
  | .upFrame _ f _ => f.wf
  | .downFrame _ => true
  | .expectedFrameMissed _ => true
  | .lockLoss _ => true
  | .portBlockEvent _ _ => true
  | .headsetInserted _ => true
  | .acquisitionStart _ _ => true
  | .unplug _ => true
  | .portLive _ _ => true
  | .recoveryWindowExpiry _ _ => true
  | .periodStart => true
  | .syncLost => true
  | .syncRegained f => f.wf
  | .legOpen _ q => q.wf OpenFields.wf
  | .legHold _ q => q.wf HoldFields.wf
  | .legConnect _ q => q.wf ConnectFields.wf
  | .legCancelConnect _ q => q.wf isWord
  | .legClose _ q => q.wf isWord
  | .legStatus _ q => q.wf isWord
  | .earBlockEvent _ => true
  | .sendBlockEvent _ => true
  | .hangoverEnd _ _ => true
  | .ecBlockEvent _ => true
  | .searchWindowEnd _ => true
  | .erleWindowEnd _ => true
  | .ecConfig _ q => q.wf EcFields.wf
  | .planSet _ q => q.wf PlanFields.wf
  | .planDelete _ q => q.wf isWord
  | .planInfo _ q => q.wf isWord
  | .announcementStep _ => true
  | .clipCreate _ q => q.wf CreateFields.wf
  | .clipData _ q => q.wf DataFields.wf
  | .clipClose _ q => q.wf CloseFields.wf
  | .clipDelete _ q => q.wf isWord
  | .clipInfo _ q => q.wf isWord
  | .memoryRelease _ q => q.wf fun _ => true
  | .memoryReclaim _ q => q.wf fun _ => true
  | .scanEntryRead found => optWf (fun b : List Byte => b.length = Config.entryBytes) found
  | .fetchComplete found => optWf (fun x : List Sample => x.length = Config.blockSamples) found
  | .programComplete found => optWf (fun x : List Sample => 1 ≤ x.length && x.length ≤ Config.blockSamples) found
  | .eraseComplete => true
  | .directoryUpdateComplete => true
  | .engineBlockEvent _ => true
  | .whisperPrompt _ q => q.wf PromptFields.wf
  | .whisperFlush _ q => q.wf isWord
  | .gapEnd _ => true
  | .whisperDeadlineExpiry _ => true
  | .supervise _ q => q.wf SuperviseFields.wf
  | .superviseEnd _ q => q.wf isWord
  | .requestFrameReceived bytes => frameWf bytes
  | .frameDiscarded bytes => frameWf bytes
  | .frameTimeout => true
  | .unknown _ code => !Machine.requestCodes.contains code
  | .messageSent => true
  | .deviceStatus _ q => q.wf fun _ => true
  | .deviceReset _ q => q.wf fun _ => true
  | .highwayFrame f _ => f.wf
  | .startMarker => true

/-- The code of the request that a command hands over, none for an event (Table 9-5). -/
def Instr.requestCode : Instr → Option Byte
  | .hardwareReset => none
  | .softReset => none
  | .portEnable _ _ => some 0x01
  | .portDisable _ _ => some 0x02
  | .positionConfig _ _ => some 0x03
  | .positionMute _ _ => some 0x04
  | .positionStatus _ _ => some 0x05
  | .positionStats _ _ => some 0x06
  | .upFrame _ _ _ => none
  | .downFrame _ => none
  | .expectedFrameMissed _ => none
  | .lockLoss _ => none
  | .portBlockEvent _ _ => none
  | .headsetInserted _ => none
  | .acquisitionStart _ _ => none
  | .unplug _ => none
  | .portLive _ _ => none
  | .recoveryWindowExpiry _ _ => none
  | .periodStart => none
  | .syncLost => none
  | .syncRegained _ => none
  | .legOpen _ _ => some 0x10
  | .legHold _ _ => some 0x11
  | .legConnect _ _ => some 0x12
  | .legCancelConnect _ _ => some 0x13
  | .legClose _ _ => some 0x14
  | .legStatus _ _ => some 0x15
  | .earBlockEvent _ => none
  | .sendBlockEvent _ => none
  | .hangoverEnd _ _ => none
  | .ecBlockEvent _ => none
  | .searchWindowEnd _ => none
  | .erleWindowEnd _ => none
  | .ecConfig _ _ => some 0x16
  | .planSet _ _ => some 0x20
  | .planDelete _ _ => some 0x21
  | .planInfo _ _ => some 0x22
  | .announcementStep _ => none
  | .clipCreate _ _ => some 0x30
  | .clipData _ _ => some 0x31
  | .clipClose _ _ => some 0x32
  | .clipDelete _ _ => some 0x33
  | .clipInfo _ _ => some 0x34
  | .memoryRelease _ _ => some 0x38
  | .memoryReclaim _ _ => some 0x39
  | .scanEntryRead _ => none
  | .fetchComplete _ => none
  | .programComplete _ => none
  | .eraseComplete => none
  | .directoryUpdateComplete => none
  | .engineBlockEvent _ => none
  | .whisperPrompt _ _ => some 0x40
  | .whisperFlush _ _ => some 0x41
  | .gapEnd _ => none
  | .whisperDeadlineExpiry _ => none
  | .supervise _ _ => some 0x42
  | .superviseEnd _ _ => some 0x43
  | .requestFrameReceived _ => none
  | .frameDiscarded _ => none
  | .frameTimeout => none
  | .unknown _ code => some code
  | .messageSent => none
  | .deviceStatus _ _ => some 0x70
  | .deviceReset _ _ => some 0x71
  | .highwayFrame _ _ => none
  | .startMarker => none

end Sys2Proof
end

