-- ==== Sys2Proof/Safety.lean ====
section
/-! DEFINITION. What the statements about the part are said in: when the request handler takes a request, and the laws that every step
keeps (R12, R35, R51, R90, R120, R121, R136, R142, R164, R177, R186, R190, R191). -/

namespace Sys2Proof.Machine

/-- A request command is taken and handled now: the handler is not paused, no other request waits ahead of it, and a reply place is
free (R186, R188). -/
def Ready (s : State) : Prop := s.link.paused = false ∧ s.link.buffer = [] ∧ s.link.replies.length < 8

/-- The state with the reply OK, without fields, placed for a request (R188, R190). -/
def State.ok (s : State) (code tag : Byte) : State := s.reply ⟨code, tag, .ok, .none⟩

/-- The reply places and the queues of the link stay within their sizes (R186, R190, R191). -/
def LinkLaw (s : State) : Prop :=
  s.link.replies.length + s.link.buffer.length ≤ 8 ∧ s.link.buffer.length ≤ 4 ∧ s.link.reports.length ≤ 32

/-- The flash image is in its one canonical form. -/
def FlashLaw (s : State) : Prop := Memory.wf s.flash = true

/-- An elastic buffer holds at most 192 samples and its counts stay within 16 bits (R12). -/
def Elastic.Law (b : Elastic) : Prop :=
  b.samples.length ≤ 192 ∧ b.slips ≤ 65535 ∧ b.underruns ≤ 65535 ∧ b.overruns ≤ 65535

/-- Every port's elastic buffers keep their law, and its parity count and shock count stay within 16 bits (R12, R17, R71). -/
def PortLaw (s : State) : Prop :=
  ∀ p, (s.pos p).port.uplink.Law ∧ (s.pos p).port.downlink.Law ∧ (s.pos p).port.parityCount ≤ 65535
    ∧ (s.pos p).limiter.shocks ≤ 65535

/-- The key of a feed (R51). -/
def Feed.key (f : Feed) : Source × Role := (f.source, f.role)

/-- A feed list holds at most 8 feeds, no two with one key (R51). -/
def FeedListLaw (l : List Feed) : Prop := l.length ≤ 8 ∧ (l.map Feed.key).Nodup

/-- Every feed list keeps its law (R51). -/
def FeedLaw (s : State) : Prop := (∀ p, FeedListLaw (tget s.ears p)) ∧ ∀ l, FeedListLaw (tget s.sends l)

/-- The segments in all legs' lists, leg by leg (R90). -/
def State.heldSegments (s : State) : List Nat := (List.finRange 64).flatMap fun l => (s.leg l).ec.segments

/-- The tap pool's law: the free segments, in rising order, and the segments in all lists are the 512 segments, each once; a list and
what its leg is owed come to at most 16; an IDLE leg holds none and is owed none; the shortfall queue names a leg at most once and owes
it at least one (R90, R93). -/
def PoolLaw (s : State) : Prop :=
  (s.pool.free ++ s.heldSegments).Perm (List.range 512)
  ∧ s.pool.free.Pairwise (· < ·)
  ∧ (∀ l, (s.leg l).ec.segments.length + s.owed l ≤ 16)
  ∧ (∀ l, (s.leg l).state = .idle → (s.leg l).ec.segments = [] ∧ ∀ x ∈ s.pool.queue, x.leg ≠ l)
  ∧ (s.pool.queue.map Shortfall.leg).Nodup
  ∧ ∀ x ∈ s.pool.queue, 1 ≤ x.owed

/-- The law of attachment: a leg names a position exactly when the position names the leg; a leg is CONNECTING or ACTIVE exactly when it
names a position; a leg is CONNECTING to a position exactly when the position's queue holds its CALL_WHISPER; a queue holds at most
one (R35, R164). -/
def AttachLaw (s : State) : Prop :=
  (∀ l p, (s.leg l).attached = some p ↔ (s.pos p).leg = some l)
  ∧ (∀ l, (s.leg l).attached.isSome = true ↔ ((s.leg l).state = .connecting ∨ (s.leg l).state = .active))
  ∧ (∀ p w l, w ∈ (s.pos p).whisper.entries → w.isCallOf l = true →
      (s.leg l).state = .connecting ∧ (s.leg l).attached = some p)
  ∧ (∀ l p, (s.leg l).state = .connecting → (s.leg l).attached = some p →
      ∃ w ∈ (s.pos p).whisper.entries, w.isCallOf l = true)
  ∧ ∀ p, ((s.pos p).whisper.entries.filter fun w => !w.isPrompt).length ≤ 1

/-- The law of supervision: a supervising position names another position, has no leg and is not itself supervised, and no position has
two supervisors (R177). -/
def SuperLaw (s : State) : Prop :=
  ∀ q r, (s.pos q).supervision = some r →
    r.agent ≠ q ∧ (s.pos q).leg = none ∧
      ∀ q' r', (s.pos q').supervision = some r' → r'.agent ≠ q ∧ (r'.agent = r.agent → q' = q)

/-- The wait queue stands by class (R142). -/
def WaitLaw (s : State) : Prop := s.arbiter.queue.Pairwise fun x y => x.owner.cls ≤ y.owner.cls

/-- A whisper queue holds at most four entries, and none but its head has begun (R164, R166). -/
def WhisperLaw (s : State) : Prop :=
  ∀ p, (s.pos p).whisper.entries.length ≤ 4 ∧ ∀ w ∈ (s.pos p).whisper.entries.tail, w.begun = false

/-- The slabs in the lists of the clips numbered below n, clip by clip. -/
def State.slabsBelow (s : State) (n : Nat) : List Nat :=
  ((List.finRange 256).filter fun c => c.val < n).flatMap fun c => (s.clip c).slabs

/-- The directory's law (R120 to R122, R126, R135, R136). -/
structure DirectoryLaw (s : State) : Prop where
  /-- A clip's use count is the number of engines that are not FREE on it. -/
  useCount : ∀ c, (s.clip c).useCount = ((List.finRange 24).filter fun e =>
    decide ((s.eng e).state ≠ .free ∧ (s.eng e).clip = some c)).length
  /-- A clip with engines is READY or RETIRING. -/
  inUse : ∀ c, 0 < (s.clip c).useCount → (s.clip c).state = .ready ∨ (s.clip c).state = .retiring
  /-- The write context holds the clip that is WRITING. -/
  writing : ∀ c, (s.clip c).state = .writing ↔ s.write.clip = some c
  /-- No write stands while the memory is not the part's. -/
  away : s.memory.mode ≠ .owned → s.write.clip = none
  /-- During a scan no engine is on a clip and the arbiter grants nothing. -/
  scanning : s.memory.mode = .scanning → s.arbiter.scanning = true ∧ ∀ e, (s.eng e).state = .free
  /-- An EMPTY entry holds no slab. -/
  empty : ∀ c, (s.clip c).state = .empty → (s.clip c).slabs = []
  /-- The free set is kept in rising order. -/
  rising : s.freeSlabs.Pairwise (· < ·)
  /-- Outside a scan the free slabs and the slabs of the clips are the 1020 data slabs, each once. -/
  slabs : s.memory.mode ≠ .scanning → (s.freeSlabs ++ s.slabsBelow 256).Perm ((List.range 1020).map (· + 4))
  /-- During a scan the slabs of the entries read so far are data slabs, each once. -/
  found : s.memory.mode = .scanning → (s.slabsBelow s.scan.next).Nodup ∧ ∀ n ∈ s.slabsBelow s.scan.next, 4 ≤ n ∧ n < 1024

/-- Only position p's record differs. -/
def OnlyPos (s t : State) (p : PosId) : Prop := (∀ q, q ≠ p → t.pos q = s.pos q) ∧ t = { s with positions := t.positions }

/-- Only leg l's record differs. -/
def OnlyLeg (s t : State) (l : LegId) : Prop := (∀ m, m ≠ l → t.leg m = s.leg m) ∧ t = { s with legs := t.legs }

/-- Every feed list is what re-deriving the list of s from the records of t gives (R59, R60). -/
def Rederived (s t : State) : Prop :=
  (∀ p, tget t.ears p = rederive (t.derivedEar p) (tget s.ears p)) ∧
  ∀ l, tget t.sends l = rederive (t.derivedSend l) (tget s.sends l)

/-- A directory update of clip c is queued, or stands in progress with the clip's record as it is now (R132). -/
def UpdateQueued (s : State) (c : ClipId) : Prop :=
  c ∈ s.memory.updates ∨ s.memory.op = some (.update c (entryImage (s.clip c)))

/-- The flash image m' is m with a slab left partly erased by the n-th operation cut off: each of its bytes reads as the free value, and
every other byte as before (R128, log 41). -/
def PartlyErased (m m' : List Host.Cell) (slab n : Nat) : Prop :=
  Memory.wf m' = true ∧ (∀ a, slab * 65536 ≤ a → a < (slab + 1) * 65536 → flashRead m' a = Config.unfinished n a) ∧
    ∀ a, (a < slab * 65536 ∨ (slab + 1) * 65536 ≤ a) → flashRead m' a = flashRead m a

/-! ## Requests for engines (R142 to R144) -/

/-- A request enters the wait queue: behind every entry of its class or an earlier one, ahead of the others (R142). -/
def Enqueued (before after : List WaitEntry) (w : WaitEntry) : Prop :=
  ∃ front back, before = front ++ back ∧ (∀ x ∈ front, x.owner.cls ≤ w.owner.cls) ∧
    (∀ x, back.head? = some x → w.owner.cls < x.owner.cls) ∧ after = front ++ w :: back

/-- A leg's request for a READY clip, taken in s and leaving t, has the engine e, or none yet: held behind an engine of the leg's own that
is not yet released; waiting, in SCANNING or with no engine FREE; or granted the lowest-numbered FREE engine (R138, R143, R144). -/
structure LegRequested (s t : State) (l : LegId) (c : ClipId) (e : Option EngId) : Prop where
  held : (∃ d, (s.eng d).state ≠ .free ∧ (s.eng d).owner = some (.leg l)) →
    e = none ∧ t.engines = s.engines ∧ t.arbiter = { s.arbiter with held := s.arbiter.held ++ [⟨.leg l, c⟩] }
  waiting : (∀ d, (s.eng d).state = .free ∨ (s.eng d).owner ≠ some (.leg l)) →
    (s.arbiter.scanning = true ∨ ∀ d, (s.eng d).state ≠ .free) →
    e = none ∧ t.engines = s.engines ∧ Enqueued s.arbiter.queue t.arbiter.queue ⟨.leg l, c⟩ ∧
    t.arbiter = { s.arbiter with queue := t.arbiter.queue }
  granted : (∀ d, (s.eng d).state = .free ∨ (s.eng d).owner ≠ some (.leg l)) → s.arbiter.scanning = false →
    ∀ d, (s.eng d).state = .free → (∀ k, k < d → (s.eng k).state ≠ .free) →
      e = some d ∧ t.eng d = { Engine.idle with
        state := .priming, owner := some (.leg l), cls := 1, clip := some c, grant := s.arbiter.grants } ∧
      (∀ k, k ≠ d → t.eng k = s.eng k) ∧ t.clip c = { s.clip c with useCount := (s.clip c).useCount + 1 } ∧
      t.arbiter = { s.arbiter with grants := s.arbiter.grants + 1 }

/-! ## The canceller's filter (R100, R106 to R108) -/

/-- The block is no double-talk block (R100). -/
def NoDoubleTalk (c : Canceller) (rx : Block) : Prop :=
  c.segments = [] ∨ (2 * peak rx ≤ c.referencePeak ∧ c.doubleTalk = 0)

/-- The canceller adapts on the block: CONVERGING or CONVERGED, no double talk, no settle, no gap, a valid block and the highway IN_SYNC
(R107). -/
def EcAdapts (s : State) (c : Canceller) (rx : Block) : Prop :=
  (c.state = .converging ∨ c.state = .converged) ∧ s.highway.valid = true ∧ s.highway.state = .inSync ∧
    c.gap = 0 ∧ c.settle = 0 ∧ NoDoubleTalk c rx

/-- One sample y through the filter: its error e from the coefficients and the reference span, and the coefficients after it
(R106 to R108). -/
structure EcSample (c : Canceller) (adapts : Bool) (span taps : List Sample) (y e : Sample) (after : List Sample) : Prop where
  error : e = if c.state = .converging ∨ c.state = .converged ∨ c.state = .frozen
    then sat16 (y.toInt - (sat16 (((List.zipWith (fun h x : Sample => h.toInt * x.toInt) taps span).sum + 16384) / 32768)).toInt)
    else y
  taps : after = if adapts = true ∧ 64 * (128 * c.segments.length) ≤ sumSquares span
    then List.zipWith (fun h x : Sample => sat16 (h.toInt + (e.toInt * x.toInt
      * (2 ^ (15 - (if c.state = .converged then 3 else 1)) : Nat)).tdiv ((sumSquares span + 65536 : Nat) : Int))) taps span
    else taps

/-- The reference span of sample i of a block of n samples (R98, R106). -/
def Canceller.span (c : Canceller) (n i : Nat) : List Sample := (c.stream.drop (n - 1 - i)).take (128 * c.segments.length)

/-! ## Mixing (R67, R68) -/

/-- Sample i of a mix over a feed list as it stands before its block: each feed's source sample times its gain after i steps toward its
effective target, summed, rounded and saturated (R67, R68). -/
def mixedAt (feeds : List Feed) (effective : Feed → Nat) (block : Source → Block) (i : Nat) : Sample :=
  sat16 (((feeds.map fun f => ((block f.source).getD i 0).toInt
    * (((fun g => stepToward g (effective f) f.step)^[i] f.gain : Nat) : Int)).sum + 8192) / 16384)

/-- A feed list after a block of 64 samples: every gain 64 steps on, a fading feed that has reached 0 gone (R61, R67). -/
def rampedFeeds (feeds : List Feed) (effective : Feed → Nat) : List Feed :=
  feeds.filterMap fun f =>
    let gain := (fun g => stepToward g (effective f) f.step)^[64] f.gain
    if f.fading = true ∧ gain = 0 then none else some { f with gain := gain }

/-! ## The top-up pass (R94) -/

/-- The segments that the top-up pass gives the leg of the oldest entry: those it is owed or all that are free, but not one alone to a
leg that holds none and is owed more. -/
def topUpGrant (held owed free : Nat) : Nat := if held = 0 ∧ min owed free < min 2 owed then 0 else min owed free

/-- What the top-up pass leaves when it finds the free set `free` and the queue `x :: rest`, for x the last entry or one that it cannot
serve whole: the grant at the end of the leg's list with coefficients of 0, a start point for a leg that held none, and the entry gone or
left with what it is still owed (R91, R94, R97). -/
structure ToppedUp (s t : State) (free : List Nat) (x : Shortfall) (rest : List Shortfall) (n : Nat) : Prop where
  grant : n = topUpGrant (s.leg x.leg).ec.segments.length x.owed free.length
  segments : (t.leg x.leg).ec.segments = (s.leg x.leg).ec.segments ++ free.take n
  taps : (t.leg x.leg).ec.taps = (s.leg x.leg).ec.taps ++ List.replicate (128 * n) 0
  pool : t.pool = ⟨free.drop n, if n < x.owed then { x with owed := x.owed - n } :: rest else rest⟩
  started : (s.leg x.leg).ec.segments = [] → 0 < n →
    (t.leg x.leg).ec.state = (if (s.leg x.leg).ec.mode = .auto then .search else .converging) ∧
    (t.leg x.leg).ec.bulkDelay = if (s.leg x.leg).ec.mode = .auto then 0 else (s.leg x.leg).ec.fixedDelay
  kept : ((s.leg x.leg).ec.segments ≠ [] ∨ n = 0) →
    (t.leg x.leg).ec.state = (s.leg x.leg).ec.state ∧ (t.leg x.leg).ec.bulkDelay = (s.leg x.leg).ec.bulkDelay

/-! ## The byte clock (R182) -/

/-- In this state the command is one by which the host clocks these bytes. START_MARKER clocks one byte, the frame commands clock their
own, and MESSAGE_SENT, and SOFT_RESET where the reply to DEVICE_RESET is being sent, clock fill of the host's up to the last byte of the
message being sent (log 36). -/
def Brings (s : State) (i : Instr) (bytes : List Byte) : Prop :=
  (i = .startMarker ∧ bytes = [0xA5]) ∨ i = .requestFrameReceived bytes ∨ i = .frameDiscarded bytes
  ∨ (∃ r rest, s.link.sending = .reply ∧ s.link.replies = r :: rest ∧
      bytes = List.replicate (r.frame.length - s.link.position) 0xFF ∧
      (i = .messageSent ∨ (i = .softReset ∧ s.link.paused = true ∧ r.code = 0x71 ∧ r.status = .ok)))
  ∨ ∃ r rest, s.link.sending = .report ∧ s.link.reports = r :: rest ∧
      bytes = List.replicate (r.frame.length - s.link.position) 0xFF ∧ i = .messageSent

/-- What n bytes sent, at least one, leave: idle fill; bytes of the message being sent, short of its last; or bytes up to its last, with
which it leaves its queue and the oldest reply, else the oldest report, else fill is chosen. The reply that a soft reset waits for is not
among these (R182, R190 to R192). -/
def Sent (s u : State) (n : Nat) : Prop :=
  0 < n ∧
  ((s.link.sending = .fill ∧ u = { s with link := { s.link with outByte := 0xFF } })
  ∨ (∃ m : List Byte, ((∃ r rest, s.link.sending = .reply ∧ s.link.replies = r :: rest ∧ m = r.frame)
        ∨ (∃ r rest, s.link.sending = .report ∧ s.link.reports = r :: rest ∧ m = r.frame)) ∧
      s.link.position + n < m.length ∧
      u = { s with link := { s.link with
        position := s.link.position + n, outByte := m.getD (s.link.position + n - 1) 0 } })
  ∨ (∃ r rest, s.link.sending = .reply ∧ s.link.replies = r :: rest ∧ s.link.position + n = r.frame.length ∧
      (s.link.paused = false ∨ r.code ≠ 0x71 ∨ r.status ≠ .ok) ∧
      u = { s with link := { s.link with
        replies := rest, lastSent := r.frame, position := 0, outByte := r.frame.getLastD 0xFF
        sending := if rest ≠ [] then .reply else if s.link.reports ≠ [] then .report else .fill } })
  ∨ ∃ r rest, s.link.sending = .report ∧ s.link.reports = r :: rest ∧ s.link.position + n = r.frame.length ∧
      u = { s with link := { s.link with
        reports := rest, lastSent := r.frame, position := 0, outByte := r.frame.getLastD 0xFF
        sending := if s.link.replies ≠ [] then .reply else if rest ≠ [] then .report else .fill } })

/-! ## Buttons (R18) -/

/-- The button acts at a good frame: it has shown the other state in three good frames before this one (R18). -/
def Acts (x : Port) (shown : Buttons Bool) (b : Button) : Prop :=
  buttonOf shown b ≠ (buttonOf x.buttons b).pressed ∧ 4 ≤ (buttonOf x.buttons b).run + 1

/-- The button is the only one that acts at the frame. -/
def OnlyActs (x : Port) (shown : Buttons Bool) (b : Button) : Prop := Acts x shown b ∧ ∀ b', b' ≠ b → ¬ Acts x shown b'

/-! ## The release sequence (R23) -/

/-- Reports placed one after the other in one period (R191). -/
def Link.placeReports (k : Link) (now : BitVec 32) (bodies : List ReportBody) : Link :=
  bodies.foldl (fun k b => k.placeReport ⟨now, b⟩) k

/-- The report is of a kind that a release sequence, or a port that leaves LIVE, makes of its own (R18, R23). -/
def ReportBody.ofRelease : ReportBody → Bool
  | .whisperAborted _ => true
  | .connectAborted _ _ => true
  | .legState _ _ _ _ _ => true
  | .supervisionEnded _ _ _ _ => true
  | .muteChanged _ _ _ => true
  | .talkButton _ _ => true
  | _ => false

/-- The mute flag falls as the port leaves LIVE, its MUTE button pressed in PUSH (R18, R19). -/
def Position.mutePushed (x : Position) : Bool :=
  x.port.state = .live && x.port.buttons.mute.pressed && x.config.muteMode = .push && x.mute

/-- The reports that the departure of position p from its calls makes of its own, in order: those of buttons released on leaving LIVE;
WHISPER_ABORTED for each entry of its queue; CONNECT_ABORTED, or LEG_STATE with its last position and the fallback plan; SUPERVISION_ENDED
as supervisor and as agent; MUTE_CHANGED when the mute flag is still set (R18, R23, R45, R46, R174, R180). -/
def State.releaseReports (s : State) (p : PosId) (cause : ReleaseCause) : List ReportBody :=
  (if (s.pos p).mutePushed then [.muteChanged p .button false] else [])
  ++ (if (s.pos p).port.state = .live ∧ (s.pos p).port.buttons.talk.pressed then [.talkButton p false] else [])
  ++ (s.pos p).whisper.entries.map (fun w => .whisperAborted (w.reportOf p (some .release)))
  ++ (match (s.pos p).leg with
    | some l =>
      if (s.leg l).state = .connecting then [.connectAborted l p]
      else if (s.leg l).state = .active then [.legState l .held cause (s.leg l).last (s.fallbackPlan p)] else []
    | none => [])
  ++ (match (s.pos p).supervision with
    | some r => [.supervisionEnded p r.agent r.mode cause]
    | none => [])
  ++ (match s.supervisorOf p with
    | some q =>
      match (s.pos q).supervision with
      | some r => [.supervisionEnded q r.agent r.mode cause]
      | none => []
    | none => [])
  ++ (if (s.pos p).mute && !(s.pos p).mutePushed then [.muteChanged p .release false] else [])

/-- What a release sequence of position p leaves (R23, R28, R45, R46): its whisper queue holds no entry, no leg is attached to it, it
takes no part in a supervision, its mute flag is clear and its ear volume is the configured one; the leg that was ACTIVE on it is HELD
on the fallback plan, with notice, and the leg that was CONNECTING to it is back at its origin with its session's plan; the ports,
records, mute flags, volumes, suppressors and limiters of the other positions, every plan's record, and everything but legs, feeds,
engines, clips and their port and the link's queues stand as they were. -/
structure Released (s t : State) (p : PosId) : Prop where
  entries : (t.pos p).whisper.entries = []
  leg : (t.pos p).leg = none
  supervises : (t.pos p).supervision = none
  supervised : t.supervisorOf p = none
  mute : (t.pos p).mute = false
  earVolume : (t.pos p).earVolume = (s.pos p).config.earVolume
  active : ∀ l, (s.pos p).leg = some l → (s.leg l).state = .active →
    (t.leg l).state = .held ∧ (t.leg l).attached = none ∧ (t.leg l).last = (s.leg l).last ∧ (t.leg l).resume = (s.leg l).resume
      ∧ (t.leg l).ec = { (s.leg l).ec with settle := 25 }
      ∧ (t.leg l).session.map Session.plan = some (s.fallbackPlan p)
      ∧ (s.fallbackPlan p = none → (t.leg l).session = some ⟨none, .background, none, 0, none⟩)
  connecting : ∀ l, (s.pos p).leg = some l → (s.leg l).state = .connecting →
    (t.leg l).state = (if (s.leg l).origin = some .held then .held else .opened) ∧ (t.leg l).attached = none
      ∧ (t.leg l).origin = none ∧ (t.leg l).last = (s.leg l).last ∧ (t.leg l).resume = (s.leg l).resume
      ∧ (t.leg l).session.map Session.plan = (s.leg l).session.map Session.plan
  config : ∀ q, (t.pos q).config = (s.pos q).config
  limiter : ∀ q, (t.pos q).limiter = (s.pos q).limiter
  others : ∀ q, q ≠ p → (t.pos q).port = (s.pos q).port ∧ (t.pos q).mute = (s.pos q).mute
    ∧ (t.pos q).earVolume = (s.pos q).earVolume ∧ (t.pos q).ns = (s.pos q).ns
  records : ∀ h, (t.plan h).record = (s.plan h).record
  rest : t = { s with
    positions := t.positions, legs := t.legs, sources := t.sources, ears := t.ears, sends := t.sends, plans := t.plans
    clips := t.clips, freeSlabs := t.freeSlabs, memory := t.memory, engines := t.engines, arbiter := t.arbiter, link := t.link }

end Sys2Proof.Machine
end

