-- ==== Sys2Proof/Certificates/Slice0/Obligations.lean ====
section
/-! DEFINITION. The statements for the provers, in the order of the manual's chapters; the laws that every step keeps stand last. -/

open Sys2Proof Sys2Proof.Machine

/-! ## The step and the resets -/

/-- A step takes the oldest waiting command and carries it out on the state with the rest of the queue. An empty queue idles (the model's
choice, log 2). -/
def Obligations.StepTakesFrontCommand : Prop :=
  (∀ (c : Instr) (rest : List Instr) (s : State),
    step { s with pending := c :: rest } = exec c { s with pending := rest }) ∧
  ∀ s : State, s.pending = [] → step s = .next s

/-- What the chapters give each block after hardware reset (R3, R22, R24, R30, R31, R35, R63, R71, R75, R90, R96, R98, R120, R137, R142,
R146, R164, R177, R187, R191, R195). -/
def Obligations.ResetState : Prop :=
  (∀ p, (State.reset.pos p).port.state = .absent ∧ (State.reset.pos p).port.insertCount = 0
    ∧ (State.reset.pos p).port.unplugCount = 0 ∧ (State.reset.pos p).port.window = none
    ∧ (State.reset.pos p).port.measured = false ∧ (State.reset.pos p).port.lastOffset = 0
    ∧ (State.reset.pos p).port.uplink = ⟨[], 0, 0, 0⟩ ∧ (State.reset.pos p).port.downlink = ⟨[], 0, 0, 0⟩
    ∧ (State.reset.pos p).port.parityCount = 0 ∧ (State.reset.pos p).port.parityAlert = false
    ∧ (∀ b, buttonOf (State.reset.pos p).port.buttons b = ⟨false, 0⟩)
    ∧ (State.reset.pos p).config = PositionConfig.default ∧ (State.reset.pos p).earVolume = 16384
    ∧ (State.reset.pos p).mute = false ∧ (State.reset.pos p).ns = ⟨1024, .quiet, 0, 16384⟩
    ∧ (State.reset.pos p).limiter = ⟨16384, 0, 0⟩ ∧ (State.reset.pos p).leg = none
    ∧ (State.reset.pos p).supervision = none ∧ (State.reset.pos p).whisper = ⟨[], .none, none, none⟩) ∧
  (State.reset.highway.state = .holdover ∧ State.reset.highway.pulses = 0 ∧ State.reset.highway.period = 0) ∧
  (∀ l, (State.reset.leg l).state = .idle ∧ (State.reset.leg l).attached = none ∧ (State.reset.leg l).origin = none
    ∧ (State.reset.leg l).session = none ∧ (State.reset.leg l).resume = none ∧ (State.reset.leg l).last = none
    ∧ (State.reset.leg l).ec.state = .off .idle ∧ (State.reset.leg l).ec.segments = []
    ∧ (State.reset.leg l).ec.history = List.replicate 67 (List.replicate 64 0)) ∧
  (State.reset.pool.free = List.range 512 ∧ State.reset.pool.queue = []) ∧
  (∀ p, tget State.reset.ears p = []) ∧ (∀ l, tget State.reset.sends l = []) ∧
  (∀ h, State.reset.plan h = ⟨none, 0, none, false⟩) ∧
  (∀ c, (State.reset.clip c).state = .empty ∧ (State.reset.clip c).useCount = 0) ∧
  (State.reset.freeSlabs = (List.range 1020).map (· + 4) ∧ State.reset.write.clip = none ∧ State.reset.memory.mode = .scanning
    ∧ State.reset.memory.updates = []) ∧
  (∀ e, (State.reset.eng e).state = .free ∧ (State.reset.eng e).owner = none ∧ (State.reset.eng e).buffer = []
    ∧ (State.reset.eng e).underruns = 0 ∧ (State.reset.eng e).fadeGain = 16384) ∧
  (State.reset.arbiter.queue = [] ∧ State.reset.link.receiver = .hunt ∧ State.reset.link.buffer = []
    ∧ State.reset.link.replies = [] ∧ State.reset.link.paused = false ∧ State.reset.link.linkErrors = 0
    ∧ State.reset.link.lostReports = 0)

/-- HARDWARE_RESET: every block at its reset values, RESTARTED placed as the first report and chosen to be sent, so that the attention
output is asserted (R195). The flash keeps its contents and the waiting commands stay (the model's choice, log 22), but an erase, a program
or an update that the reset cuts off leaves a free value at each byte that it was changing (log 41). -/
def Obligations.HardwareReset : Prop :=
  ∀ s : State, ∃ t, exec .hardwareReset s = .next t ∧
    t = { State.reset with
      pending := s.pending, flash := t.flash, unfinishedOps := t.unfinishedOps
      link := { State.reset.link with reports := [⟨0, .restarted⟩], sending := .report } } ∧
    t.attention = true ∧
    (s.memory.suspended = none → (s.memory.op = none ∨ ∃ e g, s.memory.op = some (.fetch e g)) →
      t.flash = s.flash ∧ t.unfinishedOps = s.unfinishedOps) ∧
    (FlashLaw s →
      (∀ slab, (s.memory.op = some (.erase slab)
          ∨ (s.memory.suspended = some slab ∧ (s.memory.op = none ∨ ∃ e g, s.memory.op = some (.fetch e g)))) →
        PartlyErased s.flash t.flash slab s.unfinishedOps) ∧
      (s.memory.suspended = none → ∀ start n,
        ((∃ slab offset block stands, s.memory.op = some (.program slab offset block stands) ∧
            start = slab * 65536 + offset * 2 ∧ n = 2 * block.length)
          ∨ ∃ c image, s.memory.op = some (.update c image) ∧ start = 1024 * c.val ∧ n = image.length) →
        (∀ a, start ≤ a → a < start + n → flashRead t.flash a = Config.unfinished s.unfinishedOps a) ∧
        ∀ a, (a < start ∨ start + n ≤ a) → flashRead t.flash a = flashRead s.flash a))

/-- DEVICE_RESET is replied OK and pauses the handler; SOFT_RESET, at the last byte of that reply, whichever command brings it, leaves
every block as its chapter says, with no reports and the receiver as the bytes taken in leave it (R28, R49, R71, R75, R90, R119, R145,
R146, R194). The premise on the port rules out a state that no run reaches: RELEASING with nothing left to do. -/
def Obligations.DeviceResetAndSoftReset : Prop :=
  (∀ (s : State) (tag : Byte), Ready s →
    exec (.deviceReset tag (.fields ())) s = .next ({ s with link := { s.link with paused := true } }.ok 0x71 tag)) ∧
  ∀ (s : State) (r : Reply) (rest : List Reply) (bytes : List Byte) (i : Instr) (after : Receiver), Brings s i bytes →
    s.link.paused = true → s.link.sending = .reply → s.link.replies = r :: rest → r.code = 0x71 → r.status = .ok →
    0 < bytes.length → s.link.position + bytes.length = r.frame.length →
    ((s.link.receiver = .hunt ∧ 0xA5 ∉ bytes ∧ after = .hunt)
      ∨ (∃ start got, s.link.receiver = .frame start got ∧ (s.highway.period - start).toNat ≤ 250
        ∧ got.length + bytes.length < 5 ∧ after = .frame start (got ++ bytes))) →
    (s.memory.mode = .releasing → s.memory.op ≠ none) →
    ∃ t, exec i s = .next t ∧
      (∀ p, t.pos p = { s.pos p with
        mute := false, earVolume := (s.pos p).config.earVolume, limiter := { (s.pos p).limiter with gain := 16384 }
        leg := none, supervision := none, whisper := .empty }) ∧
      (∀ l, (s.leg l).state = .idle → t.leg l = s.leg l) ∧
      (∀ l, (s.leg l).state ≠ .idle → (t.leg l).state = .idle ∧ (t.leg l).attached = none ∧ (t.leg l).origin = none
        ∧ (t.leg l).session = none ∧ (t.leg l).resume = none ∧ (t.leg l).last = none ∧ (t.leg l).ec.state = .off .idle
        ∧ (t.leg l).ec.segments = [] ∧ (t.leg l).ec.stats = none ∧ (t.leg l).ec.history = (s.leg l).ec.history
        ∧ (t.leg l).ec.gap = (s.leg l).ec.gap ∧ (t.leg l).ec.nlpAttenuation = (s.leg l).ec.nlpAttenuation
        ∧ (t.leg l).ec.nlpGain = (s.leg l).ec.nlpGain) ∧
      t.pool = ⟨List.range 512, []⟩ ∧ (∀ p, tget t.ears p = []) ∧ (∀ l, tget t.sends l = []) ∧
      (∀ h, t.plan h = ⟨(s.plan h).record, 0, none, false⟩) ∧
      (∀ c, t.clip c = if (s.clip c).state = .retiring then Clip.empty else { s.clip c with useCount := 0 }) ∧
      (∀ e, t.eng e = Engine.idle) ∧ t.arbiter = { s.arbiter with queue := [], held := [] } ∧
      t.memory.mode = s.memory.mode ∧ t.memory.fetches = [] ∧
      t.link.replies = rest ++ s.link.buffer.map (fun q => ⟨q.code, q.tag, .overload, .none⟩) ∧
      t.link.buffer = [] ∧ t.link.reports = [] ∧ t.link.paused = false ∧ t.link.linkErrors = s.link.linkErrors ∧
      t.link.lostReports = s.link.lostReports ∧ t.link.receiver = after ∧
      t = { s with
        positions := t.positions, legs := t.legs, pool := t.pool, ears := t.ears, sends := t.sends, plans := t.plans
        clips := t.clips, freeSlabs := t.freeSlabs, memory := t.memory, engines := t.engines, arbiter := t.arbiter
        link := t.link }

/-! ## Positions and headset ports (chapter 1) -/

/-- PORT_ENABLE takes a DISABLED port to ABSENT with its insertion count at 0, and changes no other port. PORT_DISABLE: no change on a
DISABLED port; from ABSENT to DISABLED; from every other state the release sequence first, any window ended, then DISABLED: an ACTIVE leg
HELD on the fallback plan, a CONNECTING one back at its origin, and among the reports made, in order, those of the sequence:
WHISPER_ABORTED for each entry, CONNECT_ABORTED or LEG_STATE, SUPERVISION_ENDED, MUTE_CHANGED, with those of the buttons released on
leaving LIVE ahead of them (R3, R18, R23, R45, R46, R174, R180; the order of these reports among themselves rests on logs 29 and 34, the
model's choices). Each request is replied OK. -/
def Obligations.PortEnableAndDisable : Prop :=
  (∀ (s : State) (p : PosId) (tag : Byte), Ready s →
    ((s.pos p).port.state = .disabled → exec (.portEnable tag (.fields p.val)) s = .next
      ((s.modPort p fun x => { x with state := .absent, insertCount := 0, unplugCount := 0, window := none }).ok 0x01 tag)) ∧
    ((s.pos p).port.state ≠ .disabled → exec (.portEnable tag (.fields p.val)) s = .next (s.ok 0x01 tag))) ∧
  (∀ (s : State) (p : PosId) (tag : Byte), Ready s →
    ((s.pos p).port.state = .disabled → exec (.portDisable tag (.fields p.val)) s = .next (s.ok 0x02 tag)) ∧
    ((s.pos p).port.state = .absent → exec (.portDisable tag (.fields p.val)) s = .next
      ((s.modPort p fun x => { x with state := .disabled, insertCount := 0, unplugCount := 0, window := none }).ok 0x02 tag)) ∧
    ((s.pos p).port.state ≠ .disabled → (s.pos p).port.state ≠ .absent → AttachLaw s → SuperLaw s →
      ∃ (t : State) (made : List ReportBody), exec (.portDisable tag (.fields p.val)) s = .next t ∧ Released s t p ∧
        (t.pos p).port.state = .disabled ∧ (t.pos p).port.window = none ∧ (t.pos p).port.insertCount = 0 ∧
        (t.pos p).port.unplugCount = 0 ∧ made.filter ReportBody.ofRelease = s.releaseReports p .portDisabled ∧
        t.link = (s.link.placeReports s.highway.period made).placeReply ⟨0x02, tag, .ok, .none⟩ ∧ t.sources = s.sources))

/-- POSITION_CONFIG replaces the whole record, each numeric field clamped to its range of Table 1-4, sets the current ear volume, has the
feeds re-derived and is replied OK; an enumerated field that names no setting, or a fallback plan beyond H15, gives RANGE and changes
nothing. POSITION_MUTE sets the flag, reporting MUTE_CHANGED when that changes it (R22, R24, R59). -/
def Obligations.PositionConfigAndMute : Prop :=
  (∀ (s : State) (p : PosId) (tag : Byte) (r : RecordFields), Ready s →
    ((r.nsEnable < 2 ∧ r.muteMode < 3 ∧ r.volumeMode < 2 ∧ r.pushToTalk < 2 ∧ ∀ n, r.fallback = some n → n < 16) →
      ∃ t c, exec (.positionConfig tag (.fields ⟨p.val, r⟩)) s = .next t ∧
        t.pos p = { s.pos p with config := c, earVolume := c.earVolume } ∧ (∀ q, q ≠ p → t.pos q = s.pos q) ∧
        c.earVolume = clamp 1024 32767 r.earVolume ∧ c.sidetone = clamp 0 8192 r.sidetone ∧
        c.limiterLevel = clamp 1024 32767 r.limiterLevel ∧ c.limiterRelease = clamp 1 64 r.limiterRelease ∧
        c.nsEnable = decide (r.nsEnable = 0) ∧ c.nsRatio = clamp 2 64 r.nsRatio ∧ c.nsHangover = clamp 0 500 r.nsHangover ∧
        c.nsAttenuation = clamp 0 16384 r.nsAttenuation ∧ c.nsAttack = clamp 1 4096 r.nsAttack ∧
        c.nsRelease = clamp 1 4096 r.nsRelease ∧ c.whisperGap = clamp 0 500 r.whisperGap ∧
        c.whisperDuck = clamp 0 16384 r.whisperDuck ∧ c.whisperDeadline = clamp 25 2500 r.whisperDeadline ∧
        c.fallback.map Fin.val = r.fallback ∧ c.muteMode.place = r.muteMode ∧ c.volumeMode.place = r.volumeMode ∧
        c.pushToTalk = decide (r.pushToTalk = 0) ∧ c.qualification = clamp 0 250 r.qualification ∧
        c.recovery = clamp 25 2500 r.recovery ∧ c.parityThreshold = clamp 1 65535 r.parityThreshold ∧
        c.hysteresis = clamp 1 100 r.hysteresis ∧
        Rederived s t ∧ t.link = (s.ok 0x03 tag).link ∧
        t = { s with positions := t.positions, ears := t.ears, sends := t.sends, link := t.link }) ∧
    (¬ (r.nsEnable < 2 ∧ r.muteMode < 3 ∧ r.volumeMode < 2 ∧ r.pushToTalk < 2 ∧ ∀ n, r.fallback = some n → n < 16) →
      exec (.positionConfig tag (.fields ⟨p.val, r⟩)) s = .next (s.reply ⟨0x03, tag, .range, .none⟩))) ∧
  ∀ (s : State) (p : PosId) (tag : Byte) (b : Nat), Ready s →
    (b < 2 → (s.pos p).mute = decide (b = 0) → exec (.positionMute tag (.fields ⟨p.val, b⟩)) s = .next (s.ok 0x04 tag)) ∧
    (b < 2 → (s.pos p).mute ≠ decide (b = 0) → exec (.positionMute tag (.fields ⟨p.val, b⟩)) s = .next
      (((s.modPos p fun x => { x with mute := decide (b = 0) }).report (.muteChanged p .host (decide (b = 0)))).ok 0x04 tag)) ∧
    (2 ≤ b → exec (.positionMute tag (.fields ⟨p.val, b⟩)) s = .next (s.reply ⟨0x04, tag, .range, .none⟩))

/-- POSITION_STATUS is replied OK with the fields of R26 as they stand and changes nothing; POSITION_STATS is replied OK with the counts
of R27, which are then set to zero with the parity alert flag, and changes nothing else. -/
def Obligations.PositionReads : Prop :=
  (∀ (s : State) (p : PosId) (tag : Byte), Ready s →
    ∃ f, exec (.positionStatus tag (.fields p.val)) s = .next (s.reply ⟨0x05, tag, .ok, .positionStatus f⟩) ∧
      f.state = (s.pos p).port.state ∧ f.presence = (s.pos p).port.presence ∧ f.noFrames = (s.pos p).port.noFrames ∧
      f.lastOffset = (s.pos p).port.lastOffset ∧ f.measured = (s.pos p).port.measured ∧
      f.windowLeft = (s.pos p).port.window.map (fun c => (s.pos p).config.recovery - c) ∧
      ((s.pos p).port.state = .qualifying → f.qualLeft = some ((s.pos p).config.qualification - (s.pos p).port.qualCount)) ∧
      ((s.pos p).port.state ≠ .qualifying → f.qualLeft = none) ∧
      (∀ b, buttonOf f.buttons b = (buttonOf (s.pos p).port.buttons b).pressed) ∧
      f.mute = (s.pos p).mute ∧ f.configuredVolume = (s.pos p).config.earVolume ∧ f.currentVolume = (s.pos p).earVolume ∧
      f.config = (s.pos p).config ∧ f.muteLamp = (s.pos p).mute ∧ f.busyLamp = (s.pos p).leg.isSome ∧
      f.leg = (s.pos p).leg.map (fun l => (l, decide ((s.leg l).state = .active))) ∧
      (∀ r, (s.pos p).supervision = some r → f.supervision = some (.supervises r.agent r.mode)) ∧
      (∀ q r, (s.pos p).supervision = none → s.supervisorOf p = some q → (s.pos q).supervision = some r →
        f.supervision = some (.supervisedBy q r.mode)) ∧
      ((s.pos p).supervision = none → s.supervisorOf p = none → f.supervision = none) ∧
      f.whisperEntries = (s.pos p).whisper.entries.length ∧ f.vad = (s.pos p).ns.vad ∧
      f.parityAlert = (s.pos p).port.parityAlert) ∧
  ∀ (s : State) (p : PosId) (tag : Byte), Ready s →
    exec (.positionStats tag (.fields p.val)) s = .next
      ((s.modPos p fun x => { x with
        limiter := { x.limiter with shocks := 0 }
        port := { x.port with
          parityCount := 0, parityAlert := false
          uplink := { x.port.uplink with slips := 0, underruns := 0, overruns := 0 }
          downlink := { x.port.downlink with slips := 0, underruns := 0, overruns := 0 } } }).reply
        ⟨0x06, tag, .ok, .positionStats
          { parityCount := (s.pos p).port.parityCount, parityAlert := (s.pos p).port.parityAlert
            uplinkSlips := (s.pos p).port.uplink.slips, uplinkUnderruns := (s.pos p).port.uplink.underruns
            uplinkOverruns := (s.pos p).port.uplink.overruns, downlinkSlips := (s.pos p).port.downlink.slips
            downlinkUnderruns := (s.pos p).port.downlink.underruns, downlinkOverruns := (s.pos p).port.downlink.overruns
            shocks := (s.pos p).limiter.shocks }⟩)

/-- UP_FRAME outside LIVE: disregarded in DISABLED, ABSENT and DETECTED; the frame timing re-aligned in QUALIFYING; a new acquisition from
LOST; in ACQUIRING it opens an interval, is counted in it, or closes the measurement of 256 frames: with the offset m in ppm, positive
when the headset runs fast, truncated toward zero and saturated, m is kept; a qualifying pair takes the port to QUALIFYING (R1, R6, R7,
R9, R10). With Q at 0 the pair takes the port through QUALIFYING to LIVE at once. A measurement out of range is reported as RATE_FAULT,
once in an acquisition, and forms no pair. Times in nanoseconds of the process clock (log 7), and that the frame which leaves LOST is not
itself counted and opens no interval (log 11), are the model's choices. -/
def Obligations.UpFrameOutsideLive : Prop :=
  ∀ (s : State) (p : PosId) (f : UpFrame) (time : Nat),
    (((s.pos p).port.state = .disabled ∨ (s.pos p).port.state = .absent ∨ (s.pos p).port.state = .detected) →
      exec (.upFrame p f time) s = .next s) ∧
    ((s.pos p).port.state = .qualifying → exec (.upFrame p f time) s = .next
      (s.modPort p fun x => { x with timing := some time, missing := 0, frameSeen := true })) ∧
    ((s.pos p).port.state = .lost → exec (.upFrame p f time) s = .next (s.modPort p fun x => { x with
      state := .acquiring, interval := none, previous := none, measured := false, noFrames := false, rateFault := false
      frameSeen := true })) ∧
    ((s.pos p).port.state = .acquiring → (s.pos p).port.interval = none → ∃ t, exec (.upFrame p f time) s = .next t ∧
      OnlyPos s t p ∧ t.pos p = { s.pos p with
        port := { (s.pos p).port with noFrames := false, frameSeen := true, interval := some ⟨time, 0⟩ } }) ∧
    (∀ i, (s.pos p).port.state = .acquiring → (s.pos p).port.interval = some i → i.frames < 255 →
      ∃ t, exec (.upFrame p f time) s = .next t ∧ OnlyPos s t p ∧ t.pos p = { s.pos p with
        port := { (s.pos p).port with noFrames := false, frameSeen := true, interval := some ⟨i.openedAt, i.frames + 1⟩ } }) ∧
    (∀ i m, (s.pos p).port.state = .acquiring → (s.pos p).port.interval = some i → i.frames = 255 → i.openedAt < time →
      m = sat16Int (((256000000 - ((time - i.openedAt : Nat) : Int)) * 1000000).tdiv ((time - i.openedAt : Nat) : Int)) →
      (m < -300 ∨ 300 < m) →
      ∃ t, exec (.upFrame p f time) s = .next t ∧ (∀ q, q ≠ p → t.pos q = s.pos q) ∧
        t.pos p = { s.pos p with port := { (s.pos p).port with
          noFrames := false, frameSeen := true, lastOffset := m, measured := true, previous := some m
          interval := some ⟨time, 0⟩, rateFault := true } } ∧
        t.link = (if (s.pos p).port.rateFault then s.link else (s.report (.rateFault p m)).link) ∧
        t = { s with positions := t.positions, link := t.link }) ∧
    (∀ i m b, (s.pos p).port.state = .acquiring → (s.pos p).port.interval = some i → i.frames = 255 → i.openedAt < time →
      m = sat16Int (((256000000 - ((time - i.openedAt : Nat) : Int)) * 1000000).tdiv ((time - i.openedAt : Nat) : Int)) →
      -300 ≤ m → m ≤ 300 → (s.pos p).config.qualification = 0 → (s.pos p).port.previous = some b →
      (m - b).natAbs ≤ (s.pos p).config.hysteresis → -300 ≤ b → b ≤ 300 →
      ∃ t, exec (.upFrame p f time) s = .next t ∧ (∀ q, q ≠ p → t.pos q = s.pos q) ∧
        (t.pos p).port.state = .live ∧ (t.pos p).port.lastOffset = m ∧ (t.pos p).port.measured = true ∧
        (t.pos p).port.missing = 0 ∧ (t.pos p).port.window = none ∧ (t.pos p).port.priming = true ∧
        (t.pos p).port.uplink = { (s.pos p).port.uplink with samples := [] } ∧
        (t.pos p).port.downlink = { (s.pos p).port.downlink with samples := List.replicate 96 0 } ∧
        (t.pos p).ns = ⟨1024, .quiet, 0, 16384⟩ ∧ (t.pos p).leg = (s.pos p).leg ∧
        t.link = (s.report (.portLive p)).link ∧ t = { s with positions := t.positions, link := t.link }) ∧
    ∀ i m, (s.pos p).port.state = .acquiring → (s.pos p).port.interval = some i → i.frames = 255 → i.openedAt < time →
      m = sat16Int (((256000000 - ((time - i.openedAt : Nat) : Int)) * 1000000).tdiv ((time - i.openedAt : Nat) : Int)) →
      -300 ≤ m → m ≤ 300 → 0 < (s.pos p).config.qualification →
      ∃ t, exec (.upFrame p f time) s = .next t ∧ OnlyPos s t p ∧
        (t.pos p).port.lastOffset = m ∧ (t.pos p).port.measured = true ∧ (t.pos p).port.previous = some m ∧
        (t.pos p).port.interval = some ⟨time, 0⟩ ∧
        ((∃ b, (s.pos p).port.previous = some b ∧ (m - b).natAbs ≤ (s.pos p).config.hysteresis ∧ -300 ≤ b ∧ b ≤ 300) →
          (t.pos p).port.state = .qualifying ∧ (t.pos p).port.qualCount = 0 ∧ (t.pos p).port.missing = 0) ∧
        ((¬ ∃ b, (s.pos p).port.previous = some b ∧ (m - b).natAbs ≤ (s.pos p).config.hysteresis ∧ -300 ≤ b ∧ b ≤ 300) →
          (t.pos p).port.state = .acquiring)

/-- UP_FRAME in LIVE. A good frame: its 16 samples join the uplink buffer as far as 192 places allow, an overrun counted when they do not
all fit; the run of bad frames ends; each button's debounce moves, and a button acts at its fourth frame, shown with its report for the
one button that acts: MUTE toggles, or follows the button in PUSH, or does nothing in OFF, with MUTE_CHANGED when the flag changes; a
press of VOL_UP or VOL_DOWN moves the volume in LOCAL and is reported as BUTTON; TALK is reported at press and release, the feeds
re-derived. A bad frame: the first two of a run are replaced by the last good frame or zeros, the later ones by zeros; it is counted, with
PARITY_ALERT at the threshold, and its control slot is disregarded (R1, R9, R12, R16 to R21). That parity counts the four buttons as four
bits, a pressed one as a one, is the model's choice (log 8). -/
def Obligations.UpFrameInLive : Prop :=
  ∀ (s : State) (p : PosId) (f : UpFrame) (time : Nat), (s.pos p).port.state = .live → f.samples.length = 16 →
    (evenParity f.samples [f.buttons.mute, f.buttons.volUp, f.buttons.volDown, f.buttons.talk] f.parity = true →
      ∃ t, exec (.upFrame p f time) s = .next t ∧ (∀ q, q ≠ p → t.pos q = s.pos q) ∧
        ((s.pos p).port.uplink.samples.length ≤ 176 → (t.pos p).port.uplink =
          { (s.pos p).port.uplink with samples := (s.pos p).port.uplink.samples ++ f.samples }) ∧
        (176 < (s.pos p).port.uplink.samples.length → (t.pos p).port.uplink =
          { (s.pos p).port.uplink with
            samples := (s.pos p).port.uplink.samples ++ f.samples.take (192 - (s.pos p).port.uplink.samples.length)
            overruns := min 65535 ((s.pos p).port.uplink.overruns + 1) }) ∧
        (t.pos p).port.state = .live ∧ (t.pos p).port.timing = some time ∧ (t.pos p).port.missing = 0 ∧
        (t.pos p).port.badRun = 0 ∧ (t.pos p).port.lastGood = some f.samples ∧
        (t.pos p).port.parityCount = (s.pos p).port.parityCount ∧ (t.pos p).port.downlink = (s.pos p).port.downlink ∧
        (∀ b, buttonOf (t.pos p).port.buttons b =
          let d := buttonOf (s.pos p).port.buttons b
          if buttonOf f.buttons b = d.pressed then ⟨d.pressed, 0⟩
          else if d.run + 1 < 4 then ⟨d.pressed, d.run + 1⟩ else ⟨!d.pressed, 0⟩) ∧
        ((∀ b, ¬ Acts (s.pos p).port f.buttons b) →
          OnlyPos s t p ∧ (t.pos p).mute = (s.pos p).mute ∧ (t.pos p).earVolume = (s.pos p).earVolume) ∧
        (f.buttons.mute = true → (s.pos p).port.buttons.mute = ⟨false, 3⟩ → (s.pos p).config.muteMode = .toggle →
          (t.pos p).mute = !(s.pos p).mute) ∧
        (f.buttons.mute = true → (s.pos p).port.buttons.mute = ⟨false, 3⟩ → (s.pos p).config.muteMode = .push →
          (t.pos p).mute = true) ∧
        (OnlyActs (s.pos p).port f.buttons .mute →
          (t.pos p).earVolume = (s.pos p).earVolume ∧
          (t.pos p).mute = (match (s.pos p).config.muteMode with
            | .toggle => if f.buttons.mute then !(s.pos p).mute else (s.pos p).mute
            | .push => f.buttons.mute
            | .off => (s.pos p).mute) ∧
          t.link = if (t.pos p).mute = (s.pos p).mute then s.link
            else (s.report (.muteChanged p .button (t.pos p).mute)).link) ∧
        (f.buttons.volUp = true → (s.pos p).port.buttons.volUp = ⟨false, 3⟩ →
          f.buttons.volDown = (s.pos p).port.buttons.volDown.pressed → (s.pos p).config.volumeMode = .localVolume →
          (t.pos p).earVolume = min 32767 ((s.pos p).earVolume + (s.pos p).earVolume / 8 + 1)) ∧
        (OnlyActs (s.pos p).port f.buttons .volUp → f.buttons.volUp = true →
          (t.pos p).mute = (s.pos p).mute ∧
          (t.pos p).earVolume = (match (s.pos p).config.volumeMode with
            | .localVolume => min 32767 ((s.pos p).earVolume + (s.pos p).earVolume / 8 + 1)
            | .reportOnly => (s.pos p).earVolume) ∧
          t.link = (s.report (.volumeButton p true (t.pos p).earVolume)).link) ∧
        (OnlyActs (s.pos p).port f.buttons .volDown → f.buttons.volDown = true →
          (t.pos p).mute = (s.pos p).mute ∧
          (t.pos p).earVolume = (match (s.pos p).config.volumeMode with
            | .localVolume => max 1024 ((s.pos p).earVolume - (s.pos p).earVolume / 8)
            | .reportOnly => (s.pos p).earVolume) ∧
          t.link = (s.report (.volumeButton p false (t.pos p).earVolume)).link) ∧
        (((OnlyActs (s.pos p).port f.buttons .volUp ∧ f.buttons.volUp = false)
            ∨ (OnlyActs (s.pos p).port f.buttons .volDown ∧ f.buttons.volDown = false)) →
          OnlyPos s t p ∧ (t.pos p).mute = (s.pos p).mute ∧ (t.pos p).earVolume = (s.pos p).earVolume) ∧
        (OnlyActs (s.pos p).port f.buttons .talk →
          (t.pos p).mute = (s.pos p).mute ∧ (t.pos p).earVolume = (s.pos p).earVolume ∧ Rederived s t ∧
          t.link = (s.report (.talkButton p f.buttons.talk)).link) ∧
        t = { s with positions := t.positions, ears := t.ears, sends := t.sends, link := t.link }) ∧
    (evenParity f.samples [f.buttons.mute, f.buttons.volUp, f.buttons.volDown, f.buttons.talk] f.parity = false →
      ∀ c : List Sample, (∀ x, (s.pos p).port.lastGood = some x → x.length = 16) →
      c = (if (s.pos p).port.badRun < 2 then (s.pos p).port.lastGood.getD (List.replicate 16 0) else List.replicate 16 0) →
      ∃ t, exec (.upFrame p f time) s = .next t ∧ (∀ q, q ≠ p → t.pos q = s.pos q) ∧
        t.pos p = { s.pos p with port := { (s.pos p).port with
          timing := some time, missing := 0, frameSeen := true, badRun := (s.pos p).port.badRun + 1
          uplink :=
            if (s.pos p).port.uplink.samples.length ≤ 176
            then { (s.pos p).port.uplink with samples := (s.pos p).port.uplink.samples ++ c }
            else { (s.pos p).port.uplink with
              samples := (s.pos p).port.uplink.samples ++ c.take (192 - (s.pos p).port.uplink.samples.length)
              overruns := min 65535 ((s.pos p).port.uplink.overruns + 1) }
          parityCount := sat16Count (s.pos p).port.parityCount 1
          parityAlert := (s.pos p).port.parityAlert
            || decide ((s.pos p).config.parityThreshold ≤ sat16Count (s.pos p).port.parityCount 1) } } ∧
        t.link = (if (s.pos p).port.parityAlert = false
            ∧ (s.pos p).config.parityThreshold ≤ sat16Count (s.pos p).port.parityCount 1
          then (s.report (.parityAlert p (sat16Count (s.pos p).port.parityCount 1))).link else s.link) ∧
        t = { s with positions := t.positions, link := t.link })

/-- DOWN_FRAME: 16 zeros in QUALIFYING; in LIVE the oldest 16 samples of the downlink buffer, completed by repeating the last one (or with
zeros) and counted as an underrun when the buffer holds fewer; the lamps as they stand and even parity; no frame in the other states (R2,
R15). That parity counts the two lamps as two bits, a lit lamp as a one, is the model's choice (log 8). -/
def Obligations.DownFrameSent : Prop :=
  ∀ (s : State) (p : PosId),
    ((s.pos p).port.state ≠ .qualifying → (s.pos p).port.state ≠ .live → exec (.downFrame p) s = .next s) ∧
    (((s.pos p).port.state = .qualifying ∨ (s.pos p).port.state = .live) →
      ∃ t d, exec (.downFrame p) s = .next t ∧ OnlyPos s t p ∧ (t.pos p).port.downFrame = some d ∧ d.samples.length = 16 ∧
        d.muteLamp = (s.pos p).mute ∧ d.busyLamp = (s.pos p).leg.isSome ∧
        evenParity d.samples [d.muteLamp, d.busyLamp] d.parity = true ∧
        t.pos p = { s.pos p with port := { (s.pos p).port with downFrame := some d, downlink := (t.pos p).port.downlink } } ∧
        ((s.pos p).port.state = .qualifying →
          d.samples = List.replicate 16 0 ∧ (t.pos p).port.downlink = (s.pos p).port.downlink) ∧
        ((s.pos p).port.state = .live → 16 ≤ (s.pos p).port.downlink.samples.length →
          d.samples = (s.pos p).port.downlink.samples.take 16 ∧ (t.pos p).port.downlink =
            { (s.pos p).port.downlink with samples := (s.pos p).port.downlink.samples.drop 16 }) ∧
        ((s.pos p).port.state = .live → (s.pos p).port.downlink.samples.length < 16 →
          (∀ i, i < 16 → d.samples[i]? = some ((s.pos p).port.downlink.samples[i]?.getD
            ((s.pos p).port.downlink.samples.getLast?.getD 0))) ∧
          (t.pos p).port.downlink = { (s.pos p).port.downlink with
            samples := [], underruns := sat16Count (s.pos p).port.downlink.underruns 1 }))

/-- EXPECTED_FRAME_MISSED adds one to the missing-frame count in QUALIFYING and LIVE. A count of 4 starts a new acquisition from
QUALIFYING, with no report and a running window still running; in LIVE it is LOCK_LOSS: the buttons released, PORT_LOST reported, the
parity count and alert cleared, both buffers emptied, a recovery window started, the suppressor QUIET, and the leg, the supervision and
the whisper queue as they were (R9, R84). That LOCK_LOSS sent below the count of 4, or EXPECTED_FRAME_MISSED in another state, leaves the
state as it was is the model's choice (log 1). -/
def Obligations.MissedFramesAndLockLoss : Prop :=
  ∀ (s : State) (p : PosId),
    ((s.pos p).port.state ≠ .qualifying → (s.pos p).port.state ≠ .live → exec (.expectedFrameMissed p) s = .next s) ∧
    (((s.pos p).port.state = .qualifying ∨ (s.pos p).port.state = .live) → (s.pos p).port.missing + 1 < 4 →
      exec (.expectedFrameMissed p) s = .next (s.modPort p fun x => { x with missing := (s.pos p).port.missing + 1 }) ∧
      exec (.lockLoss p) s = .next s) ∧
    ((s.pos p).port.state = .qualifying → 4 ≤ (s.pos p).port.missing + 1 →
      exec (.expectedFrameMissed p) s = .next (s.modPort p fun x => { x with
        state := .acquiring, interval := none, previous := none, measured := false, noFrames := false, rateFault := false
        missing := 0 })) ∧
    ((s.pos p).port.state = .live → 4 ≤ (s.pos p).port.missing + 1 →
      ∃ t, exec (.lockLoss p) s = .next t ∧ exec (.expectedFrameMissed p) s = .next t ∧ (∀ q, q ≠ p → t.pos q = s.pos q) ∧
        (t.pos p).port.state = .lost ∧ (t.pos p).port.missing = 0 ∧ (t.pos p).port.parityCount = 0 ∧
        (t.pos p).port.parityAlert = false ∧ (t.pos p).port.uplink = { (s.pos p).port.uplink with samples := [] } ∧
        (t.pos p).port.downlink = { (s.pos p).port.downlink with samples := [] } ∧ (t.pos p).port.window = some 0 ∧
        (∀ b, (buttonOf (t.pos p).port.buttons b).pressed = false) ∧
        (t.pos p).ns = { (s.pos p).ns with vad := .quiet, hangover := 0 } ∧ (t.pos p).leg = (s.pos p).leg ∧
        (t.pos p).supervision = (s.pos p).supervision ∧ (t.pos p).whisper = (s.pos p).whisper ∧
        ((∀ b, (buttonOf (s.pos p).port.buttons b).pressed = false) → t.link = (s.report (.portLost p)).link) ∧
        t = { s with positions := t.positions, ears := t.ears, sends := t.sends, link := t.link })

/-- The block event in DISABLED, ABSENT and DETECTED: no draw, MIC(p) a zero block; in ABSENT an asserted sampling is counted, a
deasserted one sets the count to 0, and the twelfth is HEADSET_INSERTED; in DETECTED the port samples the line and enters ACQUIRING, a new
acquisition (R3, R4, R5, R13). -/
def Obligations.HeadsetInsertion : Prop :=
  ∀ (s : State) (p : PosId) (line : Bool),
    ((s.pos p).port.state = .disabled →
      exec (.portBlockEvent p line) s = .next { s with sources := { s.sources with mic := tset s.sources.mic p zeroBlock } }) ∧
    ((s.pos p).port.state = .absent → (line = false ∨ (s.pos p).port.insertCount + 1 < 12) →
      ∃ t, exec (.portBlockEvent p line) s = .next t ∧ (∀ q, q ≠ p → t.pos q = s.pos q) ∧
        t.pos p = { s.pos p with port := { (s.pos p).port with
          presence := line, insertCount := if line then (s.pos p).port.insertCount + 1 else 0 } } ∧
        t = { s with
          positions := t.positions, sources := { s.sources with mic := tset s.sources.mic p zeroBlock } }) ∧
    ((s.pos p).port.state = .absent → 12 ≤ (s.pos p).port.insertCount + 1 →
      ∃ t, exec (.headsetInserted p) s = .next t ∧ exec (.portBlockEvent p true) s = .next t ∧
        (∀ q, q ≠ p → t.pos q = s.pos q) ∧
        t.pos p = { s.pos p with port := { (s.pos p).port with
          presence := true, insertCount := (s.pos p).port.insertCount + 1, state := .detected } } ∧
        t.link = (s.report (.headsetInserted p)).link ∧
        t = { s with
          positions := t.positions, sources := { s.sources with mic := tset s.sources.mic p zeroBlock }, link := t.link }) ∧
    ((s.pos p).port.state = .detected → (line = true ∨ (s.pos p).port.unplugCount + 1 < 2) →
      ∃ t, exec (.acquisitionStart p line) s = .next t ∧ exec (.portBlockEvent p line) s = .next t ∧
        (∀ q, q ≠ p → t.pos q = s.pos q) ∧
        t.pos p = { s.pos p with port := { (s.pos p).port with
          presence := line, unplugCount := if line then 0 else (s.pos p).port.unplugCount + 1, frameSeen := false
          state := .acquiring, interval := none, previous := none, measured := false, noFrames := false
          rateFault := false } } ∧
        t = { s with
          positions := t.positions, sources := { s.sources with mic := tset s.sources.mic p zeroBlock } })

/-- UNPLUG, the sampling that brings the unplug count to 2. From LIVE or LOST, or from ACQUIRING or QUALIFYING with a window running: the
release sequence with its window ended, then ABSENT and HEADSET_REMOVED: an ACTIVE leg HELD on the fallback plan, a CONNECTING one back at
its origin, and among the reports made before HEADSET_REMOVED, in order, those of the buttons released and of the sequence. From ACQUIRING
or QUALIFYING with no window: ABSENT and HEADSET_REMOVED directly (R5, R13, R18, R23, R45, R46, R174, R180). That an unplug is taken ahead
of an expiry or an entry to LIVE at one block event (log 3), ahead of the draw (log 30), and the order of the reports of the buttons and
of the whisper queue (logs 29, 34) are the model's choices. -/
def Obligations.Unplug : Prop :=
  ∀ (s : State) (p : PosId), (s.pos p).port.unplugCount + 1 = 2 →
    (((s.pos p).port.state = .live ∨ (s.pos p).port.state = .lost
        ∨ (((s.pos p).port.state = .acquiring ∨ (s.pos p).port.state = .qualifying) ∧ (s.pos p).port.window ≠ none)) →
      AttachLaw s → SuperLaw s →
      ∃ (t : State) (made : List ReportBody), exec (.unplug p) s = .next t ∧ exec (.portBlockEvent p false) s = .next t ∧
        Released s t p ∧ (t.pos p).port.state = .absent ∧ (t.pos p).port.insertCount = 0 ∧ (t.pos p).port.unplugCount = 0 ∧
        (t.pos p).port.window = none ∧ tget t.sources.mic p = zeroBlock ∧
        made.filter ReportBody.ofRelease = s.releaseReports p .unplug ∧
        t.link = s.link.placeReports s.highway.period (made ++ [.headsetRemoved p])) ∧
    (((s.pos p).port.state = .acquiring ∨ (s.pos p).port.state = .qualifying) → (s.pos p).port.window = none →
      ∃ t, exec (.unplug p) s = .next t ∧ exec (.portBlockEvent p false) s = .next t ∧ (∀ q, q ≠ p → t.pos q = s.pos q) ∧
        (t.pos p).port.state = .absent ∧ (t.pos p).port.insertCount = 0 ∧ (t.pos p).port.unplugCount = 0 ∧
        (t.pos p).port.window = none ∧ (t.pos p).mute = (s.pos p).mute ∧ (t.pos p).leg = (s.pos p).leg ∧
        (t.pos p).whisper = (s.pos p).whisper ∧ t.link = (s.report (.headsetRemoved p)).link ∧
        t = { s with
          positions := t.positions, sources := { s.sources with mic := tset s.sources.mic p zeroBlock }, ears := t.ears
          sends := t.sends, link := t.link })

/-- PORT_LIVE, the block event that brings the qualification count to Q: the port enters LIVE with its uplink buffer empty and priming, 96
zero samples in its downlink buffer, the concealment history and the debounced buttons cleared, any window ended, the suppressor at its
initial values, and PORT_LIVE reported; the counters keep their values (R8, R13, R84). That LIVE is taken ahead of an expiry at one event
is the model's choice (log 3). -/
def Obligations.PortLive : Prop :=
  ∀ (s : State) (p : PosId), (s.pos p).port.state = .qualifying →
    (s.pos p).config.qualification ≤ (s.pos p).port.qualCount + 1 →
    ∃ t, exec (.portLive p true) s = .next t ∧
      ((s.pos p).port.window = none → exec (.portBlockEvent p true) s = .next t) ∧ (∀ q, q ≠ p → t.pos q = s.pos q) ∧
      (t.pos p).port.state = .live ∧ (t.pos p).port.uplink = { (s.pos p).port.uplink with samples := [] } ∧
      (t.pos p).port.priming = true ∧
      (t.pos p).port.downlink = { (s.pos p).port.downlink with samples := List.replicate 96 0 } ∧
      (t.pos p).port.badRun = 0 ∧ (t.pos p).port.lastGood = none ∧
      (∀ b, buttonOf (t.pos p).port.buttons b = ⟨false, 0⟩) ∧ (t.pos p).port.window = none ∧
      (t.pos p).port.parityCount = (s.pos p).port.parityCount ∧ (t.pos p).ns = ⟨1024, .quiet, 0, 16384⟩ ∧
      (t.pos p).mute = (s.pos p).mute ∧ (t.pos p).leg = (s.pos p).leg ∧ (t.pos p).whisper = (s.pos p).whisper ∧
      t.link = (s.report (.portLive p)).link ∧
      t = { s with
        positions := t.positions, sources := { s.sources with mic := tset s.sources.mic p zeroBlock }, link := t.link }

/-- RECOVERY_WINDOW_EXPIRY, the block event that brings the window's count to the recovery window value R: the release sequence runs (an
ACTIVE leg HELD on the fallback plan, a CONNECTING one back at its origin, the sequence's reports in order among those made), a new
acquisition starts with no window, and PORT_RECOVERY_EXPIRED follows those reports (R10, R11, R23, R45, R46, R174, R180). That the expiry
is taken ahead of the entry to LIVE at one block event (log 3), and that all WHISPER_ABORTED reports come before what the head's request
sets off (log 34), are the model's choices. -/
def Obligations.RecoveryWindowExpiry : Prop :=
  ∀ (s : State) (p : PosId) (c : Nat), (s.pos p).port.window = some c → (s.pos p).config.recovery ≤ c + 1 →
    ((s.pos p).port.state = .lost ∨ (s.pos p).port.state = .acquiring ∨ (s.pos p).port.state = .qualifying) →
    AttachLaw s → SuperLaw s →
    ∃ (t : State) (made : List ReportBody), exec (.recoveryWindowExpiry p true) s = .next t ∧ Released s t p ∧
      (t.pos p).port.state = .acquiring ∧ (t.pos p).port.window = none ∧ (t.pos p).port.measured = false ∧
      (t.pos p).port.interval = none ∧ (t.pos p).port.previous = none ∧
      made.filter ReportBody.ofRelease = s.releaseReports p .linkLost ∧
      t.link = s.link.placeReports s.highway.period (made ++ [.portRecoveryExpired p])

/-- The block event of a LIVE port whose headset is present. Priming, with fewer than 128 samples in the uplink buffer, it draws nothing
and MIC(p) is a zero block. Otherwise the priming ends and the raw block goes through the suppressor to MIC(p): 64 samples; or, from 192
samples, 64 of 65, the oldest left out, a slip; or, from 63 or 64, 63 with the last one repeated, a slip; or, from fewer, all of them with
the last one repeated, an underrun; from none, a zero block that the suppressor does not see, an underrun. A speech onset stops the
PLAYING engine of a head PROMPT that stops on speech, and does nothing else. HANGOVER_END is that event where a non-speech block brings
the hangover to its end, after which the state is QUIET (R12, R13, R76 to R81, R87, R172). In ACQUIRING, with no window, the event sets
the no-frames indication and forgets the measurement when no frame came since the event before (R7). -/
def Obligations.DrawAndHangoverEnd : Prop :=
  (∀ (s : State) (p : PosId), (s.pos p).port.state = .live → (s.pos p).port.priming = true →
    (s.pos p).port.uplink.samples.length < 128 →
    ∃ t, exec (.portBlockEvent p true) s = .next t ∧ (∀ q, q ≠ p → t.pos q = s.pos q) ∧
      t.pos p = { s.pos p with port := { (s.pos p).port with presence := true, unplugCount := 0, frameSeen := false } } ∧
      t = { s with positions := t.positions, sources := { s.sources with mic := tset s.sources.mic p zeroBlock } }) ∧
  (∀ (s : State) (p : PosId), (s.pos p).port.state = .live →
    ((s.pos p).port.priming = false ∨ 128 ≤ (s.pos p).port.uplink.samples.length) →
    ∀ (up after : Elastic) (raw : List Sample), up = (s.pos p).port.uplink →
    ((65 ≤ up.samples.length ∧ up.samples.length ≤ 191 ∧ raw = up.samples.take 64
        ∧ after = { up with samples := up.samples.drop 64 })
      ∨ (192 ≤ up.samples.length ∧ raw = (up.samples.drop 1).take 64
        ∧ after = { up with samples := up.samples.drop 65, slips := min 65535 (up.slips + 1) })
      ∨ ((up.samples.length = 63 ∨ up.samples.length = 64) ∧ raw = up.samples.take 63 ++ [up.samples.getD 62 0]
        ∧ after = { up with samples := up.samples.drop 63, slips := min 65535 (up.slips + 1) })
      ∨ (1 ≤ up.samples.length ∧ up.samples.length ≤ 62
        ∧ raw = up.samples ++ List.replicate (64 - up.samples.length) (up.samples.getLastD 0)
        ∧ after = { up with samples := [], underruns := min 65535 (up.underruns + 1) })) →
    ∃ t, exec (.portBlockEvent p true) s = .next t ∧ (t.pos p).port.uplink = after ∧ (t.pos p).port.priming = false ∧
      (t.pos p).ns = ((s.pos p).ns.analyse (s.pos p).config raw).1 ∧
      tget t.sources.mic p = ((s.pos p).ns.analyse (s.pos p).config raw).2.1 ∧
      (t.pos p).port.state = .live ∧ (t.pos p).mute = (s.pos p).mute ∧ (t.pos p).whisper = (s.pos p).whisper ∧
      (∀ q, q ≠ p → t.pos q = s.pos q) ∧ t.link = s.link ∧
      (∀ w rest e n, ((s.pos p).ns.floor * (s.pos p).config.nsRatio ≤ energy raw ∧ (s.pos p).ns.vad ≠ .speech) →
        (s.pos p).whisper.entries = w :: rest → (s.pos p).whisper.head = .granted e → w.kind = .prompt true n →
        (s.eng e).state = .playing → (s.eng e).closing = 0 →
        t.eng e = { s.eng e with state := .stopping, stopOutcome := .stopped } ∧ e ∉ t.memory.fetches ∧
        ∀ d, d ≠ e → t.eng d = s.eng d) ∧
      ((energy raw < (s.pos p).ns.floor * (s.pos p).config.nsRatio ∨ (s.pos p).ns.vad = .speech
          ∨ (∀ e, (s.pos p).whisper.head ≠ .granted e) ∨ (∀ w ∈ (s.pos p).whisper.entries, ∀ n, w.kind ≠ .prompt true n)
          ∨ (∃ e, (s.pos p).whisper.head = .granted e ∧ (s.eng e).state ≠ .playing)) →
        t = { s with positions := t.positions, sources := { s.sources with mic := t.sources.mic } }) ∧
      (energy raw < (s.pos p).ns.floor * (s.pos p).config.nsRatio →
        (((s.pos p).ns.vad = .hangover ∧ (s.pos p).ns.hangover ≤ 1)
          ∨ ((s.pos p).ns.vad = .speech ∧ (s.pos p).config.nsHangover = 0)) →
        exec (.hangoverEnd p true) s = .next t ∧ (t.pos p).ns.vad = .quiet ∧ (t.pos p).ns.hangover = 0 ∧
        t = { s with positions := t.positions, sources := { s.sources with mic := t.sources.mic } })) ∧
  (∀ (s : State) (p : PosId), (s.pos p).port.state = .live → (s.pos p).port.priming = false →
    (s.pos p).port.uplink.samples = [] →
    ∃ t, exec (.portBlockEvent p true) s = .next t ∧ (∀ q, q ≠ p → t.pos q = s.pos q) ∧
      t.pos p = { s.pos p with port := { (s.pos p).port with
        presence := true, unplugCount := 0, frameSeen := false
        uplink := { (s.pos p).port.uplink with underruns := min 65535 ((s.pos p).port.uplink.underruns + 1) } } } ∧
      t = { s with positions := t.positions, sources := { s.sources with mic := tset s.sources.mic p zeroBlock } }) ∧
  ∀ (s : State) (p : PosId), (s.pos p).port.state = .acquiring → (s.pos p).port.window = none →
    ∃ t, exec (.portBlockEvent p true) s = .next t ∧ (∀ q, q ≠ p → t.pos q = s.pos q) ∧
      t.pos p = { s.pos p with port := { (s.pos p).port with
        presence := true, unplugCount := 0, frameSeen := false
        noFrames := (s.pos p).port.noFrames || !(s.pos p).port.frameSeen
        interval := if (s.pos p).port.frameSeen then (s.pos p).port.interval else none
        previous := if (s.pos p).port.frameSeen then (s.pos p).port.previous else none } } ∧
      t = { s with positions := t.positions, sources := { s.sources with mic := tset s.sources.mic p zeroBlock } }

/-! ## Highway and clock (chapter 2) -/

/-- PERIOD_START: the period count rises by 1, modulo 2^32; the sources become those of the period before; the send blocks computed are
those transmitted now; the collected frames become the receive blocks, valid after a period of 64 frames wholly IN_SYNC and zeros
otherwise; the program channels hand over under the same rule; readers see the voice activity state of the period before. HIGHWAY_FRAME:
IN_SYNC its samples are collected and the due sample of each send block goes out; in HOLDOVER every send channel carries zero, a
well-placed pulse is counted and a misplaced one sets the count to 0. SYNC_LOST: IN_SYNC to HOLDOVER, reported with the period count.
SYNC_REGAINED, the sixteenth well-placed pulse: IN_SYNC, reported, the period in progress ends, and a new one starts with this frame (R29
to R34, R85). These are the model's choices: the count's return to 0 at a loss (log 19) and at a regain, and that a misplaced pulse's
frame is taken in IN_SYNC (log 31); the period count of the report at a regain (log 13); that SYNC_LOST in HOLDOVER leaves the state as it
was (log 1). -/
def Obligations.HighwayAndPeriods : Prop :=
  (∀ s : State, ∃ t, exec .periodStart s = .next t ∧
    t.highway.period.toNat = (s.highway.period.toNat + 1) % 4294967296 ∧ t.before = s.sources ∧
    t.highway.sending = s.highway.computed ∧ t.highway.received = [] ∧ t.highway.state = s.highway.state ∧
    t.highway.pulses = s.highway.pulses ∧
    t.highway.valid = (s.highway.inSyncSoFar && decide (s.highway.received.length = 64)) ∧
    (t.highway.valid = true →
      (∀ l : LegId, tget t.highway.receive l = s.highway.received.reverse.map fun f => f.receive.getD l.val 0) ∧
      ∀ k : ChanId, tget t.sources.program k = s.highway.received.reverse.map fun f => f.program.getD k.val 0) ∧
    (t.highway.valid = false → (∀ l, tget t.highway.receive l = zeroBlock) ∧ ∀ k, tget t.sources.program k = zeroBlock) ∧
    (∀ p, tget t.sources.mic p = zeroBlock) ∧ (∀ l, tget t.sources.rx l = zeroBlock) ∧
    (∀ e, tget t.sources.engine e = zeroBlock) ∧
    (∀ p, t.pos p = { s.pos p with vadBefore := if (s.pos p).port.state = .live then (s.pos p).ns.vad else .quiet }) ∧
    (∀ l, t.leg l = { s.leg l with ec := { (s.leg l).ec with joined := false } }) ∧
    t = { s with
      highway := t.highway, sources := t.sources, before := t.before, positions := t.positions, legs := t.legs }) ∧
  (∀ (s : State) (f : HighwayFrame) (placed : Bool),
    (s.highway.state = .inSync → exec (.highwayFrame f placed) s = .next { s with highway := { s.highway with
      sendPins := s.highway.sending.toList.map (fun b => b.getD s.highway.received.length 0)
      received := f :: s.highway.received } }) ∧
    (s.highway.state = .holdover → (placed = false ∨ s.highway.pulses + 1 < 16) →
      exec (.highwayFrame f placed) s = .next { s with highway := { s.highway with
        sendPins := List.replicate 64 0, pulses := if placed then s.highway.pulses + 1 else 0 } })) ∧
  ((∀ s : State, (s.highway.state = .holdover → exec .syncLost s = .next s) ∧
    (s.highway.state = .inSync → exec .syncLost s = .next
      ({ s with highway := { s.highway with state := .holdover, pulses := 0, inSyncSoFar := false } }.report
        (.highwaySync .holdover s.highway.period)))) ∧
  ∀ (s : State) (f : HighwayFrame), s.highway.state = .holdover → 16 ≤ s.highway.pulses + 1 →
    ∃ t, exec (.syncRegained f) s = .next t ∧ exec (.highwayFrame f true) s = .next t ∧
      t.highway.state = .inSync ∧ t.highway.pulses = 0 ∧
      t.highway.period.toNat = (s.highway.period.toNat + 1) % 4294967296 ∧ t.highway.received = [f] ∧
      t.highway.inSyncSoFar = true ∧ t.highway.valid = (s.highway.inSyncSoFar && decide (s.highway.received.length = 64)) ∧
      t.link = (s.report (.highwaySync .inSync s.highway.period)).link ∧
      (∀ p, t.pos p = { s.pos p with vadBefore := if (s.pos p).port.state = .live then (s.pos p).ns.vad else .quiet }) ∧
      (∀ l, t.leg l = { s.leg l with ec := { (s.leg l).ec with joined := false } }) ∧
      t = { s with
        highway := t.highway, sources := t.sources, before := t.before, positions := t.positions, legs := t.legs
        link := t.link })

/-! ## Legs (chapter 2) -/

/-- LEG_OPEN. On an IDLE leg it is replied OK: the record enters OPEN with nothing else in it. A tail of 0 leaves the canceller OFF,
DISABLED. With the shortfall queue empty the pool grants the tail's segments, lowest numbers first, with zero coefficients, when enough
are free (SEARCH with D = 0 in AUTO, CONVERGING with D = d in FIXED); all it has when 2 or more are free, owing the rest; and none when
fewer are free, OFF with NO_TAPS; EC_TAPS says so. On another leg it is refused with BUSY, and a delay mode that names no setting with
RANGE (R36, R91 to R94, R96, R97). That this RANGE comes ahead of BUSY is the model's choice (log 37). -/
def Obligations.LegOpen : Prop :=
  ∀ (s : State) (l : LegId) (tag : Byte) (tail : Nat), Ready s →
    ((s.leg l).state ≠ .idle → ∀ mode : DelayField, (∀ k, mode ≠ .other k) →
      exec (.legOpen tag (.fields ⟨l.val, tail, mode⟩)) s = .next (s.reply ⟨0x10, tag, .busy, .none⟩)) ∧
    (∀ k, exec (.legOpen tag (.fields ⟨l.val, tail, .other k⟩)) s = .next (s.reply ⟨0x10, tag, .range, .none⟩)) ∧
    ∀ (mode : DelayField) (d : Nat), (mode = .auto ∧ d = 0) ∨ mode = .fixed d → (s.leg l).state = .idle →
      ∃ t, exec (.legOpen tag (.fields ⟨l.val, tail, mode⟩)) s = .next t ∧
        (t.leg l).state = .opened ∧ (t.leg l).attached = none ∧ (t.leg l).origin = none ∧ (t.leg l).session = none ∧
        (t.leg l).resume = none ∧ (t.leg l).last = none ∧
        (t.leg l).ec.history = (s.leg l).ec.history ∧ (t.leg l).ec.gap = (s.leg l).ec.gap ∧
        (t.leg l).ec.nlpAttenuation = 1024 ∧ (t.leg l).ec.nlpGain = 16384 ∧ (t.leg l).ec.stats = none ∧
        (tail = 0 → (t.leg l).ec.state = .off .disabled ∧ (t.leg l).ec.segments = [] ∧ t.pool = s.pool ∧
          t.link = (s.ok 0x10 tag).link) ∧
        (0 < tail → s.pool.queue = [] → min tail 16 ≤ s.pool.free.length →
          (t.leg l).ec.segments = s.pool.free.take (min tail 16) ∧
          (t.leg l).ec.taps = List.replicate (128 * min tail 16) 0 ∧
          t.pool = ⟨s.pool.free.drop (min tail 16), []⟩ ∧
          (t.leg l).ec.state = (if mode = .auto then .search else .converging) ∧
          (t.leg l).ec.bulkDelay = (if mode = .auto then 0 else min d 32) ∧
          t.link = ((s.report (.ecTaps l (min tail 16) 0)).ok 0x10 tag).link) ∧
        (s.pool.queue = [] → s.pool.free.length < min tail 16 → 2 ≤ s.pool.free.length →
          (t.leg l).ec.segments = s.pool.free ∧
          t.pool = ⟨[], [⟨l, min tail 16 - s.pool.free.length⟩]⟩ ∧
          t.link = ((s.report (.ecTaps l s.pool.free.length (min tail 16 - s.pool.free.length))).ok 0x10 tag).link) ∧
        (s.pool.queue = [] → s.pool.free.length < min tail 16 → s.pool.free.length < 2 →
          (t.leg l).ec.segments = [] ∧ (t.leg l).ec.state = .off .noTaps ∧
          t.pool = ⟨s.pool.free, [⟨l, min tail 16⟩]⟩ ∧
          t.link = ((s.report (.ecTaps l 0 (min tail 16))).ok 0x10 tag).link) ∧
        (s.pool.queue = [] → ∀ m, m ≠ l → t.leg m = s.leg m) ∧ Rederived s t ∧
        t = { s with legs := t.legs, pool := t.pool, ears := t.ears, sends := t.sends, link := t.link }

/-- LEG_HOLD. An OPEN or ACTIVE leg goes HELD and begins a session on the plan named or on none; an ACTIVE leg's position is freed, its
last position kept, and its canceller given notice. A plan without a greeting, with one that is not READY, or that a resume record applies to
gives BACKGROUND with the first delay loaded, at index 0 or at the index of the resume record, and one user more. A plan's first user brings
its shared stream's request, when its clip is READY: the lowest-numbered FREE engine is PRIMING on it, bound to the plan, or, with none FREE,
the request stands last in the wait queue. A READY greeting, with no resume record that applies, gives GREETING with its request: granted the
lowest-numbered FREE engine, waiting, or held behind an engine of the leg's own; the stream's request comes first and so has the lower of two
FREE engines. How a greeting ends stands under ENGINE_BLOCK_EVENT. A HELD leg's session is replaced, the use count of a plan named again
standing; on another plan, or on none, the old plan has a user fewer, the last user's end leaving it unbound with its engine FREE, the old
session's waiting request is withdrawn and its PLAYING engine stopped, with no resume record made. An undefined plan gives RANGE in any
state; otherwise an IDLE or CONNECTING leg gives BUSY (R37 to R39, R47, R101, R141 to R144, R150, R151, R153 to R156, R161). -/
def Obligations.LegHold : Prop :=
  ∀ (s : State) (l : LegId) (tag : Byte), Ready s →
    (∀ n, (∀ h : PlanId, h.val = n → (s.plan h).record = none) →
      exec (.legHold tag (.fields ⟨l.val, some n⟩)) s = .next (s.reply ⟨0x11, tag, .range, .none⟩)) ∧
    (((s.leg l).state = .idle ∨ (s.leg l).state = .connecting) →
      exec (.legHold tag (.fields ⟨l.val, none⟩)) s = .next (s.reply ⟨0x11, tag, .busy, .none⟩)) ∧
    (((s.leg l).state = .opened ∨ (s.leg l).state = .active) →
      ∃ t, exec (.legHold tag (.fields ⟨l.val, none⟩)) s = .next t ∧ (t.leg l).state = .held ∧
        (t.leg l).session = some ⟨none, .background, none, 0, none⟩ ∧ (t.leg l).resume = (s.leg l).resume ∧
        (t.leg l).last = (s.leg l).last ∧ (∀ m, m ≠ l → t.leg m = s.leg m) ∧
        ((s.leg l).state = .active → (t.leg l).attached = none ∧ (t.leg l).ec = { (s.leg l).ec with settle := 25 } ∧
          ∀ p, (s.leg l).attached = some p → t.pos p = { s.pos p with leg := none }) ∧
        Rederived s t ∧ t.link = (s.ok 0x11 tag).link ∧
        t = { s with positions := t.positions, legs := t.legs, ears := t.ears, sends := t.sends, link := t.link }) ∧
    (∀ (h : PlanId) (r : PlanRecord), ((s.leg l).state = .opened ∨ (s.leg l).state = .active) → (s.plan h).record = some r →
      (r.greeting = none ∨ (∃ g, r.greeting = some g ∧ s.isReady g = false)
        ∨ ∃ y, (s.leg l).resume = some y ∧ r.resume = true ∧ y.plan = h) →
      ∃ t, exec (.legHold tag (.fields ⟨l.val, some h.val⟩)) s = .next t ∧ (t.leg l).state = .held ∧
        (t.leg l).session = some ⟨some h, .background, some r.firstDelay,
          (match (s.leg l).resume with
            | some y => if r.resume = true ∧ y.plan = h then y.index else 0
            | none => 0), none⟩ ∧
        (t.plan h).useCount = (s.plan h).useCount + 1 ∧ (t.plan h).record = some r ∧
        (t.leg l).resume = (s.leg l).resume ∧ (t.leg l).last = (s.leg l).last ∧
        ((s.leg l).state = .active → (t.leg l).attached = none ∧ (t.leg l).ec.settle = 25 ∧
          ∀ p, (s.leg l).attached = some p → (t.pos p).leg = none) ∧
        ((0 < (s.plan h).useCount ∨ ∀ c, r.background = .shared c → s.isReady c = false) →
          t.engines = s.engines ∧ t.arbiter = s.arbiter ∧ (t.plan h).bound = (s.plan h).bound ∧
          (t.plan h).pending = (s.plan h).pending ∧ t.link = (s.ok 0x11 tag).link) ∧
        ∀ c, (s.plan h).useCount = 0 → r.background = .shared c → s.isReady c = true → (s.plan h).bound = none →
          (s.plan h).pending = false → s.arbiter.scanning = false →
          (∀ e, (s.eng e).state = .free ∨ (s.eng e).owner ≠ some (.shared h)) →
          (∀ e, (s.eng e).state = .free → (∀ d, d < e → (s.eng d).state ≠ .free) →
            (t.plan h).bound = some e ∧ (t.plan h).pending = false ∧
            t.eng e = { Engine.idle with
              state := .priming, owner := some (.shared h), cls := 2, clip := some c, loop := true, grant := s.arbiter.grants } ∧
            (∀ d, d ≠ e → t.eng d = s.eng d) ∧ t.clip c = { s.clip c with useCount := (s.clip c).useCount + 1 } ∧
            t.arbiter = { s.arbiter with grants := s.arbiter.grants + 1 }) ∧
          ((∀ e, (s.eng e).state ≠ .free) →
            (t.plan h).bound = none ∧ (t.plan h).pending = true ∧ t.engines = s.engines ∧
            t.arbiter = { s.arbiter with queue := s.arbiter.queue ++ [⟨.shared h, c⟩] })) ∧
    (∀ (h : PlanId) (r : PlanRecord) (x : Session), (s.leg l).state = .held → (s.leg l).session = some x → x.plan = some h →
      x.request = none → (s.plan h).record = some r → r.greeting = none → r.resume = false →
      ∃ t, exec (.legHold tag (.fields ⟨l.val, some h.val⟩)) s = .next t ∧ (t.leg l).state = .held ∧
        (t.leg l).session = some ⟨some h, .background, some r.firstDelay, 0, none⟩ ∧ t.plan h = s.plan h ∧
        (t.leg l).resume = (s.leg l).resume ∧ t.link = (s.ok 0x11 tag).link) ∧
    (∀ (g h : PlanId) (r : PlanRecord) (x : Session), g ≠ h → (s.leg l).state = .held → (s.leg l).session = some x →
      x.plan = some g → x.request = none → 1 < (s.plan g).useCount → (s.plan h).record = some r → r.greeting = none →
      r.resume = false →
      ∃ t, exec (.legHold tag (.fields ⟨l.val, some h.val⟩)) s = .next t ∧ (t.leg l).state = .held ∧
        (t.leg l).session = some ⟨some h, .background, some r.firstDelay, 0, none⟩ ∧
        t.plan g = { s.plan g with useCount := (s.plan g).useCount - 1 } ∧
        (t.plan h).useCount = (s.plan h).useCount + 1 ∧ (t.plan h).record = some r ∧
        (t.leg l).resume = (s.leg l).resume ∧ t.link.replies = s.link.replies ++ [⟨0x11, tag, .ok, .none⟩]) ∧
    (∀ (h : PlanId) (r : PlanRecord) (c : ClipId), ((s.leg l).state = .opened ∨ (s.leg l).state = .active
        ∨ ((s.leg l).state = .held ∧ ∃ x, (s.leg l).session = some x ∧ x.request = none
          ∧ (x.plan = none ∨ ∃ g, g ≠ h ∧ x.plan = some g ∧ 1 < (s.plan g).useCount))) →
      (s.plan h).record = some r → r.greeting = some c → s.isReady c = true →
      (∀ y, (s.leg l).resume = some y → r.resume = false ∨ y.plan ≠ h) →
      ∃ t e, exec (.legHold tag (.fields ⟨l.val, some h.val⟩)) s = .next t ∧ (t.leg l).state = .held ∧
        (t.leg l).session = some ⟨some h, .greeting, none, 0, some ⟨c, none, e⟩⟩ ∧
        (t.plan h).useCount = (s.plan h).useCount + 1 ∧ (t.plan h).record = some r ∧
        (t.leg l).resume = (s.leg l).resume ∧ (t.leg l).last = (s.leg l).last ∧
        t.link.replies = s.link.replies ++ [⟨0x11, tag, .ok, .none⟩] ∧
        ((0 < (s.plan h).useCount ∨ ∀ d, r.background = .shared d → s.isReady d = false) →
          LegRequested s t l c e ∧ (t.plan h).bound = (s.plan h).bound ∧ (t.plan h).pending = (s.plan h).pending) ∧
        ∀ (d : ClipId) (e₁ e₂ : EngId), (s.plan h).useCount = 0 → r.background = .shared d → s.isReady d = true →
          (s.plan h).bound = none → (s.plan h).pending = false → s.arbiter.scanning = false →
          (∀ k, (s.eng k).state = .free ∨ ((s.eng k).owner ≠ some (.shared h) ∧ (s.eng k).owner ≠ some (.leg l))) →
          (s.eng e₁).state = .free → (s.eng e₂).state = .free → e₁ < e₂ →
          (∀ k, k < e₂ → k ≠ e₁ → (s.eng k).state ≠ .free) →
          (t.plan h).bound = some e₁ ∧ (t.plan h).pending = false ∧ e = some e₂ ∧
          t.eng e₁ = { Engine.idle with
            state := .priming, owner := some (.shared h), cls := 2, clip := some d, loop := true, grant := s.arbiter.grants } ∧
          t.eng e₂ = { Engine.idle with
            state := .priming, owner := some (.leg l), cls := 1, clip := some c, grant := s.arbiter.grants + 1 } ∧
          (∀ k, k ≠ e₁ → k ≠ e₂ → t.eng k = s.eng k) ∧ t.arbiter = { s.arbiter with grants := s.arbiter.grants + 2 }) ∧
    ∀ (x : Session), (s.leg l).state = .held → (s.leg l).session = some x →
      (x.plan = none → x.request = none →
        ∃ t, exec (.legHold tag (.fields ⟨l.val, none⟩)) s = .next t ∧
          t.leg l = { s.leg l with session := some ⟨none, .background, none, 0, none⟩ } ∧ (∀ m, m ≠ l → t.leg m = s.leg m) ∧
          Rederived s t ∧ t.link = (s.ok 0x11 tag).link ∧
          t = { s with legs := t.legs, ears := t.ears, sends := t.sends, link := t.link }) ∧
      ∀ h, x.plan = some h → (x.request = none ∨ (∃ y, x.request = some y ∧ y.engine = none)
          ∨ ∃ y e, x.request = some y ∧ y.engine = some e ∧ (s.eng e).state = .playing ∧ (s.eng e).closing = 0) →
        AttachLaw s →
        ∃ t, exec (.legHold tag (.fields ⟨l.val, none⟩)) s = .next t ∧ (t.leg l).state = .held ∧
          (t.leg l).session = some ⟨none, .background, none, 0, none⟩ ∧ (t.leg l).resume = (s.leg l).resume ∧
          (t.leg l).last = (s.leg l).last ∧ t.link.replies = s.link.replies ++ [⟨0x11, tag, .ok, .none⟩] ∧
          (t.leg l).ec = { (s.leg l).ec with settle := if s.musicSource l = none then (s.leg l).ec.settle else 25 } ∧
          (∀ y, x.request = some y → y.engine = none → ∀ z ∈ t.arbiter.queue, z.owner ≠ .leg l) ∧
          (∀ y e, x.request = some y → y.engine = some e → (s.plan h).bound ≠ some e →
            t.eng e = { s.eng e with state := .stopping, stopOutcome := .stopped }) ∧
          (1 < (s.plan h).useCount →
            t.plan h = { s.plan h with useCount := (s.plan h).useCount - 1 } ∧ t.link = (s.ok 0x11 tag).link) ∧
          ((s.plan h).useCount = 1 → t.plan h = ⟨(s.plan h).record, 0, none, false⟩ ∧
            ∀ e c, (s.plan h).bound = some e → (s.eng e).state ≠ .free → (s.eng e).clip = some c → (s.clip c).state = .ready →
              s.arbiter.queue = [] → s.arbiter.held = [] →
              t.eng e = Engine.idle ∧ t.clip c = { s.clip c with useCount := (s.clip c).useCount - 1 } ∧
              (∀ q, ∀ f ∈ tget t.ears q, f.source ≠ .engine e) ∧ (∀ m, ∀ f ∈ tget t.sends m, f.source ≠ .engine e))

/-- LEG_CONNECT. It is refused with BUSY unless the leg is OPEN or HELD and the position is LIVE, has no leg and supervises nobody.
Without a whisper the leg goes ACTIVE at once on the position, with notice to its canceller and no report: a leg with no session, one with
a session on no plan, and one on a plan, whose session ends with a resume record of the plan and its next index, its PLAYING announcement
stopped, and the plan one user fewer; the last user's end leaves the plan unbound, with nothing pending, and its engine FREE. With a
whisper the leg is CONNECTING with its origin, and the CALL_WHISPER stands behind a begun entry and ahead of the waiting PROMPTs, shown
for a queue whose head has begun and which has room (R35, R39 to R41, R47, R150, R161, R166). -/
def Obligations.LegConnect : Prop :=
  ∀ (s : State) (l : LegId) (p : PosId) (tag : Byte), Ready s →
    (¬ (((s.leg l).state = .opened ∨ (s.leg l).state = .held) ∧ (s.pos p).port.state = .live ∧ (s.pos p).leg = none
        ∧ (s.pos p).supervision = none) →
      exec (.legConnect tag (.fields ⟨l.val, p.val, none⟩)) s = .next (s.reply ⟨0x12, tag, .busy, .none⟩) ∧
      ∀ c : ClipId, exec (.legConnect tag (.fields ⟨l.val, p.val, some c.val⟩)) s = .next
        (s.reply ⟨0x12, tag, .busy, .none⟩)) ∧
    (((s.leg l).state = .opened ∨ (s.leg l).state = .held) → (s.pos p).port.state = .live → (s.pos p).leg = none →
      (s.pos p).supervision = none →
      (((s.leg l).session = none ∨ ∃ x, (s.leg l).session = some x ∧ x.plan = none ∧ x.request = none) →
        ∃ t, exec (.legConnect tag (.fields ⟨l.val, p.val, none⟩)) s = .next t ∧
          t.leg l = { s.leg l with
            state := .active, attached := some p, origin := none, session := none, last := some p
            ec := { (s.leg l).ec with settle := 25 } } ∧
          t.pos p = { s.pos p with leg := some l } ∧ (∀ m, m ≠ l → t.leg m = s.leg m) ∧
          (∀ q, q ≠ p → t.pos q = s.pos q) ∧ Rederived s t ∧ t.link = (s.ok 0x12 tag).link ∧
          t = { s with positions := t.positions, legs := t.legs, ears := t.ears, sends := t.sends, link := t.link }) ∧
      (∀ (x : Session) (h : PlanId), (s.leg l).session = some x → x.plan = some h →
        (x.request = none ∨ (∃ y, x.request = some y ∧ y.engine = none)
          ∨ ∃ y e, x.request = some y ∧ y.engine = some e ∧ (s.eng e).state = .playing ∧ (s.eng e).closing = 0) →
        AttachLaw s →
        ∃ t, exec (.legConnect tag (.fields ⟨l.val, p.val, none⟩)) s = .next t ∧ (t.leg l).state = .active ∧
          (t.leg l).attached = some p ∧ (t.leg l).origin = none ∧ (t.leg l).last = some p ∧ (t.leg l).session = none ∧
          (t.leg l).resume = some ⟨h, x.nextIndex⟩ ∧ (t.leg l).ec = { (s.leg l).ec with settle := 25 } ∧
          (t.pos p).leg = some l ∧ t.link.replies = s.link.replies ++ [⟨0x12, tag, .ok, .none⟩] ∧
          (∀ y, x.request = some y → y.engine = none → ∀ z ∈ t.arbiter.queue, z.owner ≠ .leg l) ∧
          (∀ y e, x.request = some y → y.engine = some e → (s.plan h).bound ≠ some e →
            t.eng e = { s.eng e with state := .stopping, stopOutcome := .stopped }) ∧
          (1 < (s.plan h).useCount →
            t.plan h = { s.plan h with useCount := (s.plan h).useCount - 1 } ∧ t.link = (s.ok 0x12 tag).link) ∧
          ((s.plan h).useCount = 1 → t.plan h = ⟨(s.plan h).record, 0, none, false⟩ ∧
            ∀ e c, (s.plan h).bound = some e → (s.eng e).state ≠ .free → (s.eng e).clip = some c → (s.clip c).state = .ready →
              s.arbiter.queue = [] → s.arbiter.held = [] →
              t.eng e = Engine.idle ∧ t.clip c = { s.clip c with useCount := (s.clip c).useCount - 1 } ∧
              (∀ q, ∀ f ∈ tget t.ears q, f.source ≠ .engine e) ∧ (∀ m, ∀ f ∈ tget t.sends m, f.source ≠ .engine e))) ∧
      ∀ (c : ClipId) (w : WhisperEntry) (rest : List WhisperEntry) (e : EngId), (s.pos p).whisper.entries = w :: rest →
        w.begun = true → (∀ x ∈ rest, x.begun = false) → rest.length < 3 → (s.pos p).whisper.head = .granted e →
        ∃ t, exec (.legConnect tag (.fields ⟨l.val, p.val, some c.val⟩)) s = .next t ∧
          (t.leg l).state = .connecting ∧ (t.leg l).attached = some p ∧ (t.leg l).last = some p ∧
          (t.leg l).origin = some (if (s.leg l).state = .held then .held else .opened) ∧
          (t.leg l).session = (s.leg l).session ∧ (t.leg l).resume = (s.leg l).resume ∧ (t.leg l).ec = (s.leg l).ec ∧
          t.pos p = { s.pos p with
            leg := some l
            whisper := { (s.pos p).whisper with entries := w :: ⟨.call l, c, false⟩ :: rest } } ∧
          (∀ m, m ≠ l → t.leg m = s.leg m) ∧ (∀ q, q ≠ p → t.pos q = s.pos q) ∧ t.link = (s.ok 0x12 tag).link)

/-- LEG_CANCEL_CONNECT: refused with BUSY unless the leg is CONNECTING. A CONNECTING leg returns to its origin with its session, its last
position and its resume record as they were; the position is freed; its CALL_WHISPER leaves the queue and its waiting request the wait
queue, with no report (shown for a queue that holds nothing else) (R43). -/
def Obligations.LegCancelConnect : Prop :=
  ∀ (s : State) (l : LegId) (tag : Byte), Ready s →
    ((s.leg l).state ≠ .connecting → exec (.legCancelConnect tag (.fields l.val)) s = .next
      (s.reply ⟨0x13, tag, .busy, .none⟩)) ∧
    ∀ (p : PosId) (w : WhisperEntry) (d : Nat), (s.leg l).state = .connecting → (s.leg l).attached = some p →
      (s.pos p).whisper.entries = [w] → w.isCallOf l = true → (s.pos p).whisper.head = .waiting d →
      ∃ t, exec (.legCancelConnect tag (.fields l.val)) s = .next t ∧
        t.leg l = { s.leg l with
          state := if (s.leg l).origin = some .held then .held else .opened, attached := none, origin := none } ∧
        t.pos p = { s.pos p with leg := none, whisper := { (s.pos p).whisper with entries := [], head := .none } } ∧
        (∀ m, m ≠ l → t.leg m = s.leg m) ∧ (∀ q, q ≠ p → t.pos q = s.pos q) ∧
        (∀ x ∈ t.arbiter.queue, x.owner ≠ .whisper p) ∧ (∀ x ∈ t.arbiter.held, x.owner ≠ .whisper p) ∧
        t.link = (s.ok 0x13 tag).link ∧
        t = { s with
          positions := t.positions, legs := t.legs, ears := t.ears, sends := t.sends, arbiter := t.arbiter, link := t.link }

/-- LEG_CLOSE: no change on an IDLE leg. Any other leg is IDLE at once with nothing left in its record: its position freed, its whisper
gone, its canceller OFF and IDLE with its segments returned and its shortfall entry removed, its history, gap, NLP attenuation and gain
kept; no feed reads RX(l) and SEND(l) has none; replied OK. The top-up pass then serves the oldest entry of the shortfall queue from the
free set so grown, shown where that entry is the last or cannot be served whole. A HELD leg's plan has one user fewer; the last user's end
leaves it unbound, with nothing pending, and its engine FREE (R44, R94, R95, R119, R150; the order of the parts of a close is log 24, the
model's choice). -/
def Obligations.LegClose : Prop :=
  ∀ (s : State) (l : LegId) (tag : Byte), Ready s →
    ((s.leg l).state = .idle → exec (.legClose tag (.fields l.val)) s = .next (s.ok 0x14 tag)) ∧
    ((s.leg l).state ≠ .idle → AttachLaw s →
      ∃ t, exec (.legClose tag (.fields l.val)) s = .next t ∧ (t.leg l).state = .idle ∧ (t.leg l).attached = none ∧
        (t.leg l).origin = none ∧ (t.leg l).session = none ∧ (t.leg l).resume = none ∧ (t.leg l).last = none ∧
        (∀ p, (s.leg l).attached = some p → (t.pos p).leg = none) ∧
        (∀ p, ∀ w ∈ (t.pos p).whisper.entries, w.isCallOf l = false) ∧
        (t.leg l).ec.state = .off .idle ∧ (t.leg l).ec.segments = [] ∧ (t.leg l).ec.taps = [] ∧ (t.leg l).ec.stats = none ∧
        (t.leg l).ec.history = (s.leg l).ec.history ∧ (t.leg l).ec.gap = (s.leg l).ec.gap ∧
        (t.leg l).ec.nlpAttenuation = (s.leg l).ec.nlpAttenuation ∧ (t.leg l).ec.nlpGain = (s.leg l).ec.nlpGain ∧
        (∀ x ∈ t.pool.queue, x.leg ≠ l) ∧ tget t.sends l = [] ∧ (∀ p, ∀ f ∈ tget t.ears p, f.source ≠ .rx l) ∧
        (s.pool.queue = [] → t.pool = ⟨returnNumbers (s.leg l).ec.segments s.pool.free, []⟩) ∧
        (∀ x rest n, s.pool.queue.filter (fun y => y.leg ≠ l) = x :: rest → 1 ≤ x.owed →
          n = topUpGrant (s.leg x.leg).ec.segments.length x.owed (returnNumbers (s.leg l).ec.segments s.pool.free).length →
          (rest = [] ∨ n < x.owed) → ToppedUp s t (returnNumbers (s.leg l).ec.segments s.pool.free) x rest n) ∧
        (∀ x h, (s.leg l).state = .held → (s.leg l).session = some x → x.plan = some h → x.request = none →
          (1 < (s.plan h).useCount → t.plan h = { s.plan h with useCount := (s.plan h).useCount - 1 } ∧ t.engines = s.engines) ∧
          ((s.plan h).useCount = 1 → t.plan h = ⟨(s.plan h).record, 0, none, false⟩ ∧
            ∀ e, (s.plan h).bound = some e → s.arbiter.queue = [] → s.arbiter.held = [] → (t.eng e).state = .free ∧
              ∀ d, d ≠ e → t.eng d = s.eng d)) ∧
        t.link.replies = s.link.replies ++ [⟨0x14, tag, .ok, .none⟩] ∧
        t = { s with
          positions := t.positions, legs := t.legs, pool := t.pool, ears := t.ears, sends := t.sends, plans := t.plans
          clips := t.clips, freeSlabs := t.freeSlabs, memory := t.memory, engines := t.engines, arbiter := t.arbiter
          link := t.link })

/-- LEG_STATUS is replied OK in any leg state with the fields of R48, the canceller's of R118 and the session's of R163 among them, each
as it stands, and clears none of them: nothing changes but the reply placed. -/
def Obligations.LegStatus : Prop :=
  ∀ (s : State) (l : LegId) (tag : Byte), Ready s →
    ∃ f, exec (.legStatus tag (.fields l.val)) s = .next (s.reply ⟨0x15, tag, .ok, .legStatus f⟩) ∧
      f.state = (s.leg l).state ∧ f.attached = (s.leg l).attached ∧ f.origin = (s.leg l).origin ∧ f.last = (s.leg l).last ∧
      ((s.leg l).session = none → f.session = none) ∧
      (∀ x, (s.leg l).session = some x → ∃ v, f.session = some v ∧ v.plan = x.plan ∧ v.phase = x.phase
        ∧ v.countdown = x.countdown ∧ v.nextIndex = x.nextIndex ∧ (x.request = none → v.request = none)
        ∧ ∀ r, x.request = some r → v.request = some ⟨r.clip, r.place, r.engine.map fun e => (e, (s.eng e).state)⟩) ∧
      f.resume = (s.leg l).resume ∧ f.ecState = (s.leg l).ec.state ∧ f.held = (s.leg l).ec.segments.length ∧
      ((∀ x ∈ s.pool.queue, x.leg ≠ l) → f.owed = 0) ∧
      (∀ x ∈ s.pool.queue, x.leg = l → (s.pool.queue.map Shortfall.leg).Nodup → f.owed = x.owed) ∧
      f.bulkDelay = (s.leg l).ec.bulkDelay ∧ f.mode = (s.leg l).ec.mode ∧ f.fixedDelay = (s.leg l).ec.fixedDelay ∧
      f.nlpAttenuation = (s.leg l).ec.nlpAttenuation ∧ f.stats = (s.leg l).ec.stats ∧ f.valid = s.highway.valid

/-! ## The mix matrix (chapter 3) -/

/-- EAR_BLOCK_EVENT. Each feed's effective target is 0 while it fades or its microphone is muted, the target ducked by the whisper duck
for a CALLER feed beside a WHISPER feed that is not fading, and its target otherwise; every gain takes 64 steps toward it, and a fading
feed that has reached 0 leaves. On a LIVE port 64 samples go to the downlink buffer: the mix sample scaled by the ear volume and then by
the limiter gain, which rises by the release step to at most 16384, or falls at once to what brings the sample within the limiter level;
each sample's magnitude is at most that level. Samples of twice the level or more before the limiter are counted as shocks; the first one
while the report holdoff count is 0 is reported as ACOUSTIC_SHOCK with its magnitude and count and sets the count to 250. On another port
no sample is computed, the limiter gain returns to 16384 and the feeds ramp on (R14, R50, R61, R64, R65, R67, R68, R70 to R74). The write
into the downlink buffer goes by the level, 32 above the fill: at 160 or above, a fill of 128 or more, the last sample is left out, and at
32, an empty buffer, it is written twice, each counted as a slip; from 33 to 159 the 64 samples are written; samples beyond the free places
are discarded from the end and counted as one overrun. That the report holdoff count falls by 1 at the start of the block, on every port, is the model's choice (log 14). -/
def Obligations.EarBlock : Prop :=
  ∀ (s : State) (p : PosId), ∃ t, exec (.earBlockEvent p) s = .next t ∧ (∀ q, q ≠ p → t.pos q = s.pos q) ∧
    (∀ q, q ≠ p → tget t.ears q = tget s.ears q) ∧ tget t.ears p = rampedFeeds (tget s.ears p) (s.earTarget p) ∧
    (∀ f, (f.fading = true ∨ (∃ q, f.source = .mic q ∧ (s.pos q).mute = true)) → s.earTarget p f = 0) ∧
    (∀ f, f.fading = false → (∀ q, f.source = .mic q → (s.pos q).mute = false) →
      ((f.role = .caller ∧ ∃ g ∈ tget s.ears p, g.role = .whisper ∧ g.fading = false) →
        s.earTarget p f = (f.target * (s.pos p).config.whisperDuck + 8192) / 16384) ∧
      ((f.role ≠ .caller ∨ ∀ g ∈ tget s.ears p, g.role = .whisper → g.fading = true) → s.earTarget p f = f.target)) ∧
    ((s.pos p).port.state = .live →
      ∃ (block : List Sample) (gain : Nat → Nat) (v : Nat → Sample), block.length = 64 ∧
        (∀ y ∈ block, y.toInt.natAbs ≤ (s.pos p).config.limiterLevel) ∧ gain 0 = (s.pos p).limiter.gain ∧
        (∀ i, i < 64 →
          v i = sat16 (((mixedAt (tget s.ears p) (s.earTarget p) s.sourceBlock i).toInt * ((s.pos p).earVolume : Int) + 8192)
            / 16384) ∧
          ((((v i).toInt * (gain i : Int) + 8192) / 16384).natAbs ≤ (s.pos p).config.limiterLevel →
            block[i]? = some (sat16 (((v i).toInt * (gain i : Int) + 8192) / 16384)) ∧
            gain (i + 1) = min 16384 (gain i + (s.pos p).config.limiterRelease)) ∧
          ((s.pos p).config.limiterLevel < (((v i).toInt * (gain i : Int) + 8192) / 16384).natAbs →
            gain (i + 1) = (s.pos p).config.limiterLevel * 16384 / (v i).toInt.natAbs ∧
            block[i]? = some (sat16 (((v i).toInt * (gain (i + 1) : Int) + 8192) / 16384)))) ∧
        (t.pos p).limiter.gain = gain 64 ∧
        ((∀ i, i < 64 → (v i).toInt.natAbs < 2 * (s.pos p).config.limiterLevel) →
          (t.pos p).limiter.shocks = (s.pos p).limiter.shocks ∧ (t.pos p).limiter.holdoff = (s.pos p).limiter.holdoff - 1 ∧
          t.link = s.link) ∧
        (∀ i, i < 64 → 2 * (s.pos p).config.limiterLevel ≤ (v i).toInt.natAbs →
          (∀ j, j < i → (v j).toInt.natAbs < 2 * (s.pos p).config.limiterLevel) →
          (t.pos p).limiter.shocks = min 65535 ((s.pos p).limiter.shocks
            + ((List.range 64).filter fun j => 2 * (s.pos p).config.limiterLevel ≤ (v j).toInt.natAbs).length) ∧
          ((s.pos p).limiter.holdoff ≤ 1 → (t.pos p).limiter.holdoff = 250 ∧
            t.link = (s.report (.acousticShock p (v i).toInt.natAbs (min 65535 ((s.pos p).limiter.shocks + 1)))).link) ∧
          (1 < (s.pos p).limiter.holdoff → (t.pos p).limiter.holdoff = (s.pos p).limiter.holdoff - 1 ∧ t.link = s.link)) ∧
        (∃ (written : List Sample) (slips : Nat),
          (128 ≤ (s.pos p).port.downlink.samples.length →
            written = block.take 63 ∧ slips = min 65535 ((s.pos p).port.downlink.slips + 1)) ∧
          ((s.pos p).port.downlink.samples = [] →
            written = block ++ [block.getD 63 0] ∧ slips = min 65535 ((s.pos p).port.downlink.slips + 1)) ∧
          (1 ≤ (s.pos p).port.downlink.samples.length → (s.pos p).port.downlink.samples.length ≤ 127 →
            written = block ∧ slips = (s.pos p).port.downlink.slips) ∧
          (t.pos p).port = { (s.pos p).port with downlink := {
            samples := (s.pos p).port.downlink.samples ++ written.take (192 - (s.pos p).port.downlink.samples.length)
            slips := slips
            underruns := (s.pos p).port.downlink.underruns
            overruns := if 192 < (s.pos p).port.downlink.samples.length + written.length
              then min 65535 ((s.pos p).port.downlink.overruns + 1) else (s.pos p).port.downlink.overruns } }) ∧
        t = { s with positions := t.positions, ears := t.ears, link := t.link }) ∧
    ((s.pos p).port.state ≠ .live →
      t.pos p = { s.pos p with limiter := { (s.pos p).limiter with
        gain := 16384, holdoff := (s.pos p).limiter.holdoff - 1 } } ∧
      t = { s with positions := t.positions, ears := t.ears })

/-- SEND_BLOCK_EVENT: the 64 mix samples of SEND(l), each the sum of its feeds' source samples of the period before times their gains,
become its computed send block and join the reference history, the oldest block leaving; every gain takes 64 steps toward its effective
target, which is 0 while the feed fades or its microphone is muted, the target ducked by the plan's announce duck for a MUSIC feed beside
an ANNOUNCE feed that is not fading, and the target otherwise; a fading feed that has reached 0 leaves; an empty list gives zeros (R33,
R61, R64, R66 to R69, R98). -/
def Obligations.SendBlock : Prop :=
  ∀ (s : State) (l : LegId), ∃ (t : State) (block : List Sample), exec (.sendBlockEvent l) s = .next t ∧ block.length = 64 ∧
    (∀ i, i < 64 → block[i]? = some (mixedAt (tget s.sends l) (s.sendTarget l) s.sourceBlock i)) ∧
    tget t.highway.computed l = block ∧ (∀ m, m ≠ l → tget t.highway.computed m = tget s.highway.computed m) ∧
    t.leg l = { s.leg l with ec := { (s.leg l).ec with
      history := (block :: (s.leg l).ec.history).take 67, joined := true } } ∧
    (∀ m, m ≠ l → t.leg m = s.leg m) ∧ (∀ m, m ≠ l → tget t.sends m = tget s.sends m) ∧
    tget t.sends l = rampedFeeds (tget s.sends l) (s.sendTarget l) ∧
    (∀ f, (f.fading = true ∨ (∃ q, f.source = .mic q ∧ (s.pos q).mute = true)) → s.sendTarget l f = 0) ∧
    (∀ f, f.fading = false → (∀ q, f.source = .mic q → (s.pos q).mute = false) →
      (∀ x h r, (f.role = .music ∧ ∃ g ∈ tget s.sends l, g.role = .announce ∧ g.fading = false) →
        (s.leg l).session = some x → x.plan = some h → (s.plan h).record = some r →
        s.sendTarget l f = (f.target * r.duck + 8192) / 16384) ∧
      ((f.role ≠ .music ∨ ∀ g ∈ tget s.sends l, g.role = .announce → g.fading = true) → s.sendTarget l f = f.target)) ∧
    (tget s.sends l = [] → block = List.replicate 64 0 ∧ tget t.sends l = []) ∧
    t = { s with highway := { s.highway with computed := t.highway.computed }, legs := t.legs, sends := t.sends }

/-- A ramp of n samples stays between where it began and its target, moves by its step in each sample, and stops on the target once the
steps reach it. A drawn block through the suppressor: the floor stays within 16..67,108,864 and the gain within 0..16384; no output sample
exceeds the raw sample in magnitude; with NS off MIC(p) is the raw block and the gain 16384; the state is SPEECH exactly when the energy
is at or above floor times ratio, and an onset is a speech block that finds another state (R67, R77 to R83, R87, R112). -/
def Obligations.RampsAndSuppressorBounds : Prop :=
  (∀ (gain target step n : Nat),
    let g := (fun x => stepToward x target step)^[n] gain
    min gain target ≤ g ∧ g ≤ max gain target ∧
    (gain ≤ target + n * step → target ≤ gain + n * step → g = target) ∧
    (gain + n * step ≤ target → g = gain + n * step) ∧ (target + n * step ≤ gain → g = gain - n * step)) ∧
  (∀ (n : Suppressor) (cfg : Machine.PositionConfig) (raw : List Sample), 16 ≤ n.floor → n.floor ≤ 67108864 → n.gain ≤ 16384 →
    cfg.nsAttenuation ≤ 16384 →
    16 ≤ (n.analyse cfg raw).1.floor ∧ (n.analyse cfg raw).1.floor ≤ 67108864 ∧ (n.analyse cfg raw).1.gain ≤ 16384 ∧
    (n.analyse cfg raw).2.1.length = raw.length ∧
    (∀ (i : Nat) (x y : Sample), raw[i]? = some x → (n.analyse cfg raw).2.1[i]? = some y → y.toInt.natAbs ≤ x.toInt.natAbs) ∧
    (cfg.nsEnable = false → (n.analyse cfg raw).2.1 = raw ∧ (n.analyse cfg raw).1.gain = 16384) ∧
    ((n.analyse cfg raw).1.vad = .speech ↔ n.floor * cfg.nsRatio ≤ sumSquares raw / 64) ∧
    ((n.analyse cfg raw).2.2 = true ↔ n.floor * cfg.nsRatio ≤ sumSquares raw / 64 ∧ n.vad ≠ .speech))

/-! ## Echo cancellation (chapter 5) -/

/-- EC_CONFIG with no tail. On an IDLE leg it is refused with BUSY; an action or a delay mode that names nothing gives RANGE; FREEZE gives
BUSY unless the canceller is CONVERGING or CONVERGED. Otherwise it is replied OK: the NLP attenuation is clamped and stored, the delay
mode stored without moving D, and the action is taken: RESET clears the work and takes a start point when segments are held, FREEZE and
UNFREEZE enter FROZEN and CONVERGING with a fresh ERLE window (R97, R109, R114, R116, R117; the stored d of AUTO is 0, log 24; that RANGE
comes ahead of BUSY is the model's choice, log 37). -/
def Obligations.EcConfig : Prop :=
  ∀ (s : State) (l : LegId) (tag : Byte), Ready s →
    (∀ f : EcFields, f.leg = l.val → 4 ≤ f.action → exec (.ecConfig tag (.fields f)) s = .next
      (s.reply ⟨0x16, tag, .range, .none⟩)) ∧
    (∀ f : EcFields, f.leg = l.val → (∃ k, f.delay = some (.other k)) → exec (.ecConfig tag (.fields f)) s = .next
      (s.reply ⟨0x16, tag, .range, .none⟩)) ∧
    (∀ f : EcFields, f.leg = l.val → f.action < 4 → (∀ k, f.delay ≠ some (.other k)) →
      ((s.leg l).state = .idle
        ∨ (f.action = 2 ∧ (((s.leg l).ec.state ≠ .converging ∧ (s.leg l).ec.state ≠ .converged) ∨ f.tail = some 0))) →
      exec (.ecConfig tag (.fields f)) s = .next (s.reply ⟨0x16, tag, .busy, .none⟩)) ∧
    ((s.leg l).state ≠ .idle →
      (∀ a d, exec (.ecConfig tag (.fields ⟨l.val, none, some (.fixed d), some a, 0⟩)) s = .next
        ((s.modEc l fun c => { c with nlpAttenuation := min 16384 a, mode := .fixed, fixedDelay := min d 32 }).ok 0x16 tag)) ∧
      (exec (.ecConfig tag (.fields ⟨l.val, none, some .auto, none, 0⟩)) s = .next
        ((s.modEc l fun c => { c with mode := .auto, fixedDelay := 0 }).ok 0x16 tag)) ∧
      ((s.leg l).ec.segments = [] → exec (.ecConfig tag (.fields ⟨l.val, none, none, none, 1⟩)) s = .next
        ((s.modEc l fun c => { c with
          taps := c.taps.map fun _ => 0, search := ⟨0, 0, 0, List.replicate 33 0⟩, doubleTalk := 0, settle := 0
          erle := ⟨0, 0, 0, 0⟩, goodRun := 0, poorRun := 0, stats := none }).ok 0x16 tag)) ∧
      ((s.leg l).ec.segments ≠ [] → exec (.ecConfig tag (.fields ⟨l.val, none, none, none, 1⟩)) s = .next
        ((s.modEc l fun c => { c with
          state := if c.mode = .auto then .search else .converging, bulkDelay := if c.mode = .auto then 0 else c.fixedDelay
          taps := c.taps.map fun _ => 0, search := ⟨0, 0, 0, List.replicate 33 0⟩, doubleTalk := 0, settle := 0
          erle := ⟨0, 0, 0, 0⟩, goodRun := 0, poorRun := 0, windows := 0, stats := none }).ok 0x16 tag)) ∧
      (((s.leg l).ec.state = .converging ∨ (s.leg l).ec.state = .converged) →
        exec (.ecConfig tag (.fields ⟨l.val, none, none, none, 2⟩)) s = .next
          ((s.modEc l fun c => { c with state := .frozen, erle := ⟨0, 0, 0, 0⟩, goodRun := 0, poorRun := 0 }).ok 0x16 tag)) ∧
      ((s.leg l).ec.state = .frozen → exec (.ecConfig tag (.fields ⟨l.val, none, none, none, 3⟩)) s = .next
        ((s.modEc l fun c => { c with state := .converging, erle := ⟨0, 0, 0, 0⟩, goodRun := 0, poorRun := 0 }).ok 0x16 tag)) ∧
      ((s.leg l).ec.state ≠ .frozen → exec (.ecConfig tag (.fields ⟨l.val, none, none, none, 3⟩)) s = .next
        (s.ok 0x16 tag)))

/-- EC_CONFIG with a tail. With the shortfall queue empty: a tail below the segments held returns the last ones and keeps the coefficients
of the others, a tail of 0 turning the canceller OFF, DISABLED; a tail above them owes the leg the difference, of which the pool grants
what it can at once (shown with none free). No EC_TAPS is made for the leg when its tail is lowered. With other legs in the queue the
segments returned go to the oldest of them, reported as EC_TAPS for that leg: all that it is owed or all that are free, a leg that held
none taking a start point, but not one alone to a leg that holds none and is owed more; shown where that entry is the last or cannot be
served whole (R91, R93 to R95, R97, R115; that a pass is made after every EC_CONFIG with a tail is log 24, the model's choice). -/
def Obligations.EcConfigTail : Prop :=
  ∀ (s : State) (l : LegId) (tag : Byte) (tail : Nat), Ready s → (s.leg l).state ≠ .idle →
    (s.pool.queue = [] → min tail 16 < (s.leg l).ec.segments.length →
      exec (.ecConfig tag (.fields ⟨l.val, some tail, none, none, 0⟩)) s = .next
        (({ s with pool := ⟨returnNumbers ((s.leg l).ec.segments.drop (min tail 16)) s.pool.free, []⟩ }.modEc l fun c => { c with
          segments := c.segments.take (min tail 16), taps := c.taps.take (128 * min tail 16)
          state := if tail = 0 then EcState.off .disabled else c.state }).ok 0x16 tag)) ∧
    (s.pool.queue = [] → (s.leg l).ec.segments.length < min tail 16 → s.pool.free = [] →
      exec (.ecConfig tag (.fields ⟨l.val, some tail, none, none, 0⟩)) s = .next
        (({ s with pool := ⟨[], [⟨l, min tail 16 - (s.leg l).ec.segments.length⟩]⟩ }.modEc l fun c => { c with
          state := if c.state = EcState.off .disabled then EcState.off .noTaps else c.state }).ok 0x16 tag)) ∧
    ∀ (x : Shortfall) (rest : List Shortfall) (free : List Nat) (n : Nat), s.pool.queue = x :: rest →
      (∀ y ∈ s.pool.queue, y.leg ≠ l) → 1 ≤ x.owed → min tail 16 < (s.leg l).ec.segments.length →
      free = returnNumbers ((s.leg l).ec.segments.drop (min tail 16)) s.pool.free →
      n = topUpGrant (s.leg x.leg).ec.segments.length x.owed free.length → (rest = [] ∨ n < x.owed) →
      ∃ t, exec (.ecConfig tag (.fields ⟨l.val, some tail, none, none, 0⟩)) s = .next t ∧ ToppedUp s t free x rest n ∧
        t.leg l = { s.leg l with ec := { (s.leg l).ec with
          segments := (s.leg l).ec.segments.take (min tail 16), taps := (s.leg l).ec.taps.take (128 * min tail 16)
          state := if tail = 0 then EcState.off .disabled else (s.leg l).ec.state } } ∧
        (∀ m, m ≠ l → m ≠ x.leg → t.leg m = s.leg m) ∧
        (n = 0 → t.link = (s.ok 0x16 tag).link) ∧
        (0 < n → t.link = ((s.report (.ecTaps x.leg ((s.leg x.leg).ec.segments.length + n) (x.owed - n))).ok 0x16 tag).link) ∧
        t = { s with legs := t.legs, pool := t.pool, link := t.link }

/-- EC_BLOCK_EVENT. An OFF canceller with its NLP gain at 16384 passes a valid receive block through unchanged; an invalid block gives
zeros and sets the gap count to 64, a valid one lowers it by 1; the settle count falls by 1; the double-talk count is 8 at a detection,
falls by 1 otherwise, and is 0 with no segment held. Sample by sample: the estimate over the span of the reference stream, the error (the
sample itself where no filter runs), the update of every coefficient where the canceller may adapt, the NLP gain's step of 64 toward its
target, the output. The coefficients stay as they were unless the canceller is CONVERGING or CONVERGED, with no double talk, no settle, no
gap, a valid block and the highway IN_SYNC. The NLP target is the attenuation in CONVERGED with no double talk while the send is speaking,
and 16384 otherwise; the NLP gain stays within 0..16384, and every other record stands as it was (R98 to R103, R106 to R108, R112, R113).
That the gain steps before it scales its sample (log 15), and that a double-talk count left when the last segment is taken is 0 after the
next block (log 38), are the model's choices. -/
def Obligations.EcBlock : Prop :=
  ∀ (s : State) (l : LegId) (c : Canceller) (rx : Block), c = (s.leg l).ec → rx = tget s.highway.receive l →
    ∃ t, exec (.ecBlockEvent l) s = .next t ∧
    (s.highway.valid = false → tget t.sources.rx l = List.replicate 64 0 ∧ (t.leg l).ec.gap = 64) ∧
    (s.highway.valid = true → (t.leg l).ec.gap = c.gap - 1) ∧
    (t.leg l).ec.settle = c.settle - 1 ∧
    (t.leg l).ec.doubleTalk = (if c.segments = [] then 0 else if c.referencePeak < 2 * peak rx then 8 else c.doubleTalk - 1) ∧
    (∃ (adapts : Bool) (target : Nat) (taps : Nat → List Sample) (e : Nat → Sample) (gain : Nat → Nat),
      (adapts = true ↔ EcAdapts s c rx) ∧
      (c.state ≠ .converged → target = 16384) ∧
      (c.segments ≠ [] → (c.referencePeak < 2 * peak rx ∨ 0 < c.doubleTalk) → target = 16384) ∧
      (c.state = .converged → NoDoubleTalk c rx →
        (((s.leg l).state = .opened ∨ (s.leg l).state = .held ∨ (s.leg l).state = .connecting) →
          target = if 64 ≤ energy (c.reference c.bulkDelay) then c.nlpAttenuation else 16384) ∧
        (∀ p, (s.leg l).state = .active → (s.leg l).attached = some p →
          ((s.talking p = true ∨ ∃ q r, s.supervisorOf p = some q ∧ (s.pos q).supervision = some r ∧ r.mode = .barge
              ∧ s.talking q = true) → target = c.nlpAttenuation) ∧
          (s.talking p = false → (∀ q r, s.supervisorOf p = some q → (s.pos q).supervision = some r → r.mode = .barge →
              s.talking q = false) → target = 16384))) ∧
      taps 0 = c.taps ∧ gain 0 = c.nlpGain ∧
      (∀ i y, rx[i]? = some y →
        EcSample c adapts (c.span rx.length i) (taps i) y (e i) (taps (i + 1)) ∧
        gain (i + 1) = stepToward (gain i) target 64 ∧
        (s.highway.valid = true →
          (tget t.sources.rx l)[i]? = some (sat16 (((e i).toInt * (gain (i + 1) : Int) + 8192) / 16384)))) ∧
      (t.leg l).ec.taps = taps rx.length ∧ (t.leg l).ec.nlpGain = gain rx.length ∧ (adapts = false → (t.leg l).ec.taps = c.taps)) ∧
    (∀ o, c.state = .off o → c.nlpGain = 16384 → s.highway.valid = true → tget t.sources.rx l = rx) ∧
    (∀ o, c.state = .off o → c.segments = [] →
      t.leg l = { s.leg l with ec := { c with
        gap := (t.leg l).ec.gap, settle := c.settle - 1, doubleTalk := 0, nlpGain := (t.leg l).ec.nlpGain } }) ∧
    (c.nlpGain ≤ 16384 → c.nlpAttenuation ≤ 16384 → (t.leg l).ec.nlpGain ≤ 16384) ∧
    (t.leg l).ec.segments = c.segments ∧ (t.leg l).ec.history = c.history ∧
    (∀ m, m ≠ l → t.leg m = s.leg m) ∧ (∀ m, m ≠ l → tget t.sources.rx m = tget s.sources.rx m) ∧
    t = { s with sources := { s.sources with rx := t.sources.rx }, legs := t.legs, link := t.link }

/-- SEARCH_WINDOW_END, the block that brings the window to 250. The block counts when it is valid, in no gap and no settle, and
reference-active: one counted block more, and each candidate's sum grows by the product of the scaled energies of the block and of that
reference block; otherwise count and sums stand. With 50 or more counted blocks: CONVERGING, D one below the smallest candidate with the
largest sum (0 for candidate 0), reported as EC_STATE. With fewer the window has failed and a new one begins; at the third failure
CONVERGING with D = 0, reported as EC_SEARCH_TIMEOUT (R99, R101, R102, R104, R105, R109). -/
def Obligations.SearchWindowEnd : Prop :=
  ∀ (s : State) (l : LegId) (c : Canceller) (counted : Nat) (sums : List Nat), c = (s.leg l).ec → c.state = .search →
    c.search.blocks + 1 = 250 →
    ((s.highway.valid = true ∧ c.gap = 0 ∧ c.settle = 0 ∧ 64 ≤ energy (c.reference c.bulkDelay)) ∧ counted = c.search.counted + 1 ∧
        sums.length = c.search.sums.length ∧
        (∀ j, j < sums.length → sums.getD j 0 = c.search.sums.getD j 0
          + (energy (tget s.highway.receive l) / 1024) * (energy (c.reference j) / 1024))
      ∨ (s.highway.valid = false ∨ 0 < c.gap ∨ 0 < c.settle ∨ energy (c.reference c.bulkDelay) < 64) ∧ counted = c.search.counted ∧
        sums = c.search.sums) →
    (50 ≤ counted → ∀ d : Nat, d < sums.length →
      (∀ j, sums.getD j 0 ≤ sums.getD d 0) →
      (∀ j, j < d → sums.getD j 0 < sums.getD d 0) →
      ∃ t, exec (.searchWindowEnd l) s = .next t ∧ exec (.ecBlockEvent l) s = .next t ∧
        (t.leg l).ec.state = .converging ∧ (t.leg l).ec.bulkDelay = d - 1 ∧ (t.leg l).ec.erle = ⟨0, 0, 0, 0⟩ ∧
        (t.leg l).ec.goodRun = 0 ∧ (t.leg l).ec.poorRun = 0 ∧ t.link = (s.report (.ecState l .converging (d - 1))).link) ∧
    (counted < 50 → c.search.failed + 1 < 3 →
      ∃ t, exec (.searchWindowEnd l) s = .next t ∧ exec (.ecBlockEvent l) s = .next t ∧ (t.leg l).ec.state = .search ∧
        (t.leg l).ec.search = ⟨0, 0, c.search.failed + 1, List.replicate 33 0⟩ ∧ t.link = s.link) ∧
    (counted < 50 → 3 ≤ c.search.failed + 1 →
      ∃ t, exec (.searchWindowEnd l) s = .next t ∧ exec (.ecBlockEvent l) s = .next t ∧ (t.leg l).ec.state = .converging ∧
        (t.leg l).ec.bulkDelay = 0 ∧ (t.leg l).ec.erle = ⟨0, 0, 0, 0⟩ ∧ (t.leg l).ec.goodRun = 0 ∧
        (t.leg l).ec.poorRun = 0 ∧ t.link = (s.report (.ecSearchTimeout l 0)).link)

/-- The ERLE window. In CONVERGING, CONVERGED and FROZEN each block joins the window; one that is reference-active, no double-talk block,
valid and no gap block qualifies, and adds the energy of the receive block to Srx and that of its errors to Se. Short of 25 blocks nothing
is judged. ERLE_WINDOW_END, the block that brings the window to 25: the window w is captured with the windows completed, a new one begins,
and a window of 10 or more qualifying blocks moves the runs: two good windows in a row (Srx at least 64 × (Se + 1)) enter CONVERGED, four
poor ones in a row (Srx below 4 × (Se + 1)) enter CONVERGING, each reported; in FROZEN neither run moves (R99, R100, R106 to R111). That
ERLE_WINDOW_END short of the window's last block does nothing is the model's choice (log 1). -/
def Obligations.ErleWindowEnd : Prop :=
  ∀ (s : State) (l : LegId) (c : Canceller) (rx : Block), c = (s.leg l).ec → rx = tget s.highway.receive l →
    (c.state = .converging ∨ c.state = .converged ∨ c.state = .frozen) →
    ∃ (t : State) (w : ErleWindow) (adapts : Bool) (taps : Nat → List Sample) (e : Nat → Sample),
      exec (.ecBlockEvent l) s = .next t ∧ (adapts = true ↔ EcAdapts s c rx) ∧ taps 0 = c.taps ∧
      (∀ i y, rx[i]? = some y → EcSample c adapts (c.span rx.length i) (taps i) y (e i) (taps (i + 1))) ∧
      ((64 ≤ energy (c.reference c.bulkDelay) ∧ NoDoubleTalk c rx ∧ s.highway.valid = true ∧ c.gap = 0) →
        w = ⟨c.erle.blocks + 1, c.erle.qualifying + 1, c.erle.srx + energy rx,
          c.erle.se + energy ((List.range rx.length).map e)⟩) ∧
      (¬ (64 ≤ energy (c.reference c.bulkDelay) ∧ NoDoubleTalk c rx ∧ s.highway.valid = true ∧ c.gap = 0) →
        w = ⟨c.erle.blocks + 1, c.erle.qualifying, c.erle.srx, c.erle.se⟩) ∧
      (c.erle.blocks + 1 < 25 → exec (.erleWindowEnd l) s = .next s ∧ (t.leg l).ec.erle = w ∧ (t.leg l).ec.state = c.state ∧
        (t.leg l).ec.goodRun = c.goodRun ∧ (t.leg l).ec.poorRun = c.poorRun ∧ (t.leg l).ec.stats = c.stats ∧
        (t.leg l).ec.windows = c.windows ∧ t.link = s.link) ∧
      (c.erle.blocks + 1 = 25 → exec (.erleWindowEnd l) s = .next t ∧
        (t.leg l).ec.stats = some ⟨w.srx, w.se, w.qualifying, min 4294967295 (c.windows + 1)⟩ ∧
        (t.leg l).ec.erle = ⟨0, 0, 0, 0⟩ ∧
        ((w.qualifying < 10 ∨ c.state = .frozen) → (t.leg l).ec.state = c.state ∧
          (t.leg l).ec.goodRun = c.goodRun ∧ (t.leg l).ec.poorRun = c.poorRun ∧ t.link = s.link) ∧
        (10 ≤ w.qualifying → c.state = .converging → 64 * (w.se + 1) ≤ w.srx →
          (c.goodRun = 0 → (t.leg l).ec.state = .converging ∧ (t.leg l).ec.goodRun = 1) ∧
          (1 ≤ c.goodRun → (t.leg l).ec.state = .converged ∧ (t.leg l).ec.goodRun = 0 ∧
            t.link = (s.report (.ecState l .converged c.bulkDelay)).link)) ∧
        (10 ≤ w.qualifying → c.state = .converging → w.srx < 64 * (w.se + 1) →
          (t.leg l).ec.state = .converging ∧ (t.leg l).ec.goodRun = 0) ∧
        (10 ≤ w.qualifying → c.state = .converged → w.srx < 4 * (w.se + 1) →
          (c.poorRun < 3 → (t.leg l).ec.state = .converged ∧
            (t.leg l).ec.poorRun = c.poorRun + 1) ∧
          (3 ≤ c.poorRun → (t.leg l).ec.state = .converging ∧ (t.leg l).ec.poorRun = 0 ∧
            t.link = (s.report (.ecState l .converging c.bulkDelay)).link)) ∧
        (10 ≤ w.qualifying → c.state = .converged → 4 * (w.se + 1) ≤ w.srx →
          (t.leg l).ec.state = .converged ∧ (t.leg l).ec.poorRun = 0))

/-! ## Hold plans (chapter 7) -/

/-- PLAN_SET: values out of range give RANGE, then a list of more than 8 gives LENGTH; otherwise the record is replaced as a whole, the
interval clamped to 250 or more and the duck to 16384 or less, replied OK, with use count and stream kept (shown for a plan that no
session names and that has no users, and for one whose background stays a program or absent). A background changed under its users stops
the bound PLAYING engine, which stays bound, and withdraws a pending request; the new stream's request, when its clip is READY, is held
behind that engine. PLAN_DELETE: a defined plan with no users becomes undefined, one with users is refused with IN_USE, an undefined one
stays as it is; nothing else changes, so that a resume record or a fallback plan keeps its id (R143, R147, R148, R151, R152, R159). -/
def Obligations.PlanSetAndDelete : Prop :=
  (∀ (s : State) (h : PlanId) (tag : Byte) (f : PlanFields), Ready s → f.plan = h.val →
    ((∀ n ∈ f.announcements, n < 256) ∧ (∀ n, f.greeting = some n → n < 256) ∧ (∀ n, f.fallback = some n → n < 4) ∧ f.resume < 2) →
    (∀ k, f.background = .other k → exec (.planSet tag (.fields f)) s = .next (s.reply ⟨0x20, tag, .range, .none⟩)) ∧
    (∀ n, f.background = .program n → 4 ≤ n → exec (.planSet tag (.fields f)) s = .next
      (s.reply ⟨0x20, tag, .range, .none⟩)) ∧
    (f.background = .absent → 8 < f.announcements.length → exec (.planSet tag (.fields f)) s = .next
      (s.reply ⟨0x20, tag, .length, .none⟩)) ∧
    ∀ (b : Background), (f.background = .absent ∧ b = .absent) ∨ (∃ k : ChanId, f.background = .program k.val ∧ b = .program k)
        ∨ (∃ c : ClipId, f.background = .shared c.val ∧ b = .shared c) →
      f.announcements.length ≤ 8 →
      (((s.plan h).useCount = 0 ∧ ∀ l x, (s.leg l).session = some x → x.plan ≠ some h)
        ∨ ((∃ r, (s.plan h).record = some r ∧ r.background = b) ∧ ∀ c, b ≠ .shared c)) →
      ∃ t r, exec (.planSet tag (.fields f)) s = .next t ∧ t.plan h = { s.plan h with record := some r } ∧
        r.background = b ∧ r.musicLevel = f.musicLevel ∧ r.greeting.map Fin.val = f.greeting ∧
        r.announcements.map Fin.val = f.announcements ∧ r.firstDelay = f.firstDelay ∧ r.interval = max 250 f.interval ∧
        r.duck = min 16384 f.duck ∧ r.resume = decide (f.resume = 0) ∧ r.fallback.map Fin.val = f.fallback ∧
        (∀ g, g ≠ h → t.plan g = s.plan g) ∧ Rederived s t ∧ t.link = (s.ok 0x20 tag).link ∧
        t = { s with plans := t.plans, legs := t.legs, ears := t.ears, sends := t.sends, link := t.link }) ∧
  (∀ (s : State) (h : PlanId) (tag : Byte) (f : PlanFields) (b : Background) (old : PlanRecord), Ready s → f.plan = h.val →
    ((∀ n ∈ f.announcements, n < 256) ∧ (∀ n, f.greeting = some n → n < 256) ∧ (∀ n, f.fallback = some n → n < 4) ∧ f.resume < 2) →
    ((f.background = .absent ∧ b = .absent) ∨ (∃ k : ChanId, f.background = .program k.val ∧ b = .program k)
      ∨ (∃ c : ClipId, f.background = .shared c.val ∧ b = .shared c)) →
    f.announcements.length ≤ 8 → (s.plan h).record = some old → old.background ≠ b → 0 < (s.plan h).useCount →
    (∀ e, (s.plan h).bound = some e → (s.plan h).pending = false → (s.eng e).state = .playing → (s.eng e).closing = 0 →
      (s.eng e).owner = some (.shared h) →
      ∃ t r, exec (.planSet tag (.fields f)) s = .next t ∧ (t.plan h).record = some r ∧ r.background = b ∧
        (t.plan h).useCount = (s.plan h).useCount ∧ (t.plan h).bound = some e ∧
        t.eng e = { s.eng e with state := .stopping, stopOutcome := .stopped } ∧ (∀ d, d ≠ e → t.eng d = s.eng d) ∧
        t.link = (s.ok 0x20 tag).link ∧
        (∀ c, b = .shared c → s.isReady c = true → (t.plan h).pending = true ∧
          t.arbiter = { s.arbiter with held := s.arbiter.held ++ [⟨.shared h, c⟩] }) ∧
        ((∀ c, b = .shared c → s.isReady c = false) → (t.plan h).pending = false ∧ t.arbiter = s.arbiter)) ∧
    ((s.plan h).bound = none → (s.plan h).pending = true → (∀ c, b = .shared c → s.isReady c = false) →
      ∃ t, exec (.planSet tag (.fields f)) s = .next t ∧ (t.plan h).pending = false ∧ (t.plan h).bound = none ∧
        (∀ x ∈ t.arbiter.queue, x.owner ≠ .shared h) ∧ (∀ x ∈ t.arbiter.held, x.owner ≠ .shared h) ∧
        t.engines = s.engines ∧ t.link = (s.ok 0x20 tag).link)) ∧
  (∀ (s : State) (h : PlanId) (tag : Byte), Ready s →
    ((s.plan h).record = none → exec (.planDelete tag (.fields h.val)) s = .next (s.ok 0x21 tag)) ∧
    ((s.plan h).record ≠ none → 0 < (s.plan h).useCount →
      exec (.planDelete tag (.fields h.val)) s = .next (s.reply ⟨0x21, tag, .inUse, .none⟩)) ∧
    ((s.plan h).record ≠ none → (s.plan h).useCount = 0 →
      exec (.planDelete tag (.fields h.val)) s = .next ((s.modPlan h fun _ => ⟨none, 0, none, false⟩).ok 0x21 tag)))

/-- The block event of a hold session: in BACKGROUND on a plan the countdown falls by 1; when it is then 0 an announcement step is taken:
with an empty list, or with no READY clip in it, the interval is loaded again; else the first READY clip from the next index on, around the
list, is requested for the leg and the session enters ANNOUNCING at its place. The request is granted the lowest-numbered FREE engine, waits,
or is held behind an engine of the leg's own. With no session, and in the other phases, nothing happens (R142 to R144, R157; the row stands
for every such block event, log 1). -/
def Obligations.AnnouncementStep : Prop :=
  ∀ (s : State) (l : LegId),
    ((s.leg l).session = none → exec (.announcementStep l) s = .next s) ∧
    ∀ (x : Session) (h : PlanId) (r : PlanRecord), (s.leg l).session = some x → x.plan = some h → (s.plan h).record = some r →
      (x.phase ≠ .background → exec (.announcementStep l) s = .next s) ∧
      ∀ c, x.phase = .background → x.countdown = some c →
        (2 ≤ c → exec (.announcementStep l) s = .next
          (s.modLeg l fun y => { y with session := some { x with countdown := some (c - 1) } })) ∧
        (c ≤ 1 → r.announcements = [] → ∃ t, exec (.announcementStep l) s = .next t ∧
          t.leg l = { s.leg l with session := some { x with countdown := some r.interval } } ∧
          (∀ m, m ≠ l → t.leg m = s.leg m) ∧ Rederived s t ∧ t = { s with legs := t.legs, ears := t.ears, sends := t.sends }) ∧
        (c ≤ 1 → r.announcements ≠ [] → (∀ a ∈ r.announcements, s.isReady a = false) →
          ∃ t, exec (.announcementStep l) s = .next t ∧
            t.leg l = { s.leg l with session := some { x with
              countdown := some r.interval, nextIndex := x.nextIndex % r.announcements.length } } ∧
            (∀ m, m ≠ l → t.leg m = s.leg m) ∧ Rederived s t ∧
            t = { s with legs := t.legs, ears := t.ears, sends := t.sends }) ∧
        ∀ (k i : Nat) (a : ClipId), c ≤ 1 → k < r.announcements.length →
          i = (x.nextIndex % r.announcements.length + k) % r.announcements.length → r.announcements[i]? = some a →
          s.isReady a = true →
          (∀ j, j < k → ∀ b, r.announcements[(x.nextIndex % r.announcements.length + j) % r.announcements.length]? = some b →
            s.isReady b = false) →
          ∃ t e, exec (.announcementStep l) s = .next t ∧
            (t.leg l).session = some ⟨some h, .announcing, none, i, some ⟨a, some i, e⟩⟩ ∧ LegRequested s t l a e ∧
            (t.leg l).state = (s.leg l).state ∧ (∀ m, m ≠ l → t.leg m = s.leg m) ∧ (∀ p, t.pos p = s.pos p) ∧
            t.link.replies = s.link.replies

/-! ## The clip memory (chapter 6) -/

/-- CLIP_CREATE. An identifier beyond C255 gives RANGE before anything else; BUSY when the memory is away or a write context holds a clip;
then IN_USE for an entry that is not EMPTY, RANGE for a length outside 1..2097152 or a loop start at or above it, NO_RESOURCE when the
free slabs are fewer than the length needs. Otherwise the clip is WRITING on the lowest-numbered free slabs, the write context holds it,
and its first slab's erase begins on an idle port (R122, R123, R130). -/
def Obligations.ClipCreate : Prop :=
  ∀ (s : State) (c : ClipId) (tag : Byte) (n : Nat) (x : Option Nat), Ready s →
    (∀ k, 256 ≤ k → exec (.clipCreate tag (.fields ⟨k, n, x⟩)) s = .next (s.reply ⟨0x30, tag, .range, .none⟩)) ∧
    ((s.memory.mode ≠ .owned ∨ s.write.clip ≠ none) →
      exec (.clipCreate tag (.fields ⟨c.val, n, x⟩)) s = .next (s.reply ⟨0x30, tag, .busy, .none⟩)) ∧
    (s.memory.mode = .owned → s.write.clip = none →
      ((s.clip c).state ≠ .empty →
        exec (.clipCreate tag (.fields ⟨c.val, n, x⟩)) s = .next (s.reply ⟨0x30, tag, .inUse, .none⟩)) ∧
      ((s.clip c).state = .empty → (n = 0 ∨ 2097152 < n ∨ ∃ y, x = some y ∧ n ≤ y) →
        exec (.clipCreate tag (.fields ⟨c.val, n, x⟩)) s = .next (s.reply ⟨0x30, tag, .range, .none⟩)) ∧
      ((s.clip c).state = .empty → 1 ≤ n → n ≤ 2097152 → (∀ y, x = some y → y < n) →
        (s.freeSlabs.length * 32768 < n →
          exec (.clipCreate tag (.fields ⟨c.val, n, x⟩)) s = .next (s.reply ⟨0x30, tag, .noResource, .none⟩)) ∧
        (n ≤ s.freeSlabs.length * 32768 → s.memory = ⟨.owned, none, none, [], []⟩ →
          ∃ k, (k - 1) * 32768 < n ∧ n ≤ k * 32768 ∧ exec (.clipCreate tag (.fields ⟨c.val, n, x⟩)) s = .next
            ({ s with
              freeSlabs := s.freeSlabs.drop k
              write := ⟨some c, 0, 0, 0, 0, [], none⟩
              clips := tset s.clips c ⟨.writing, n, x, s.freeSlabs.take k, 0, 0⟩
              memory := { s.memory with op := s.freeSlabs.head?.map .erase } }.ok 0x30 tag))))

/-- CLIP_DATA: BUSY unless the memory is owned and the clip WRITING; then LENGTH for no samples or more than 480, SEQUENCE for an offset
that is not the next expected one, RANGE beyond the length, BUSY for a write buffer that holds two messages. Otherwise the message joins
the buffer, and on an idle port with its slab erased the first program block begins (R124, R125). -/
def Obligations.ClipData : Prop :=
  ∀ (s : State) (c : ClipId) (tag : Byte) (at' : Nat) (data : List Sample), Ready s →
    ((s.memory.mode ≠ .owned ∨ (s.clip c).state ≠ .writing) →
      exec (.clipData tag (.fields ⟨c.val, at', data⟩)) s = .next (s.reply ⟨0x31, tag, .busy, .none⟩)) ∧
    (s.memory.mode = .owned → (s.clip c).state = .writing →
      ((data = [] ∨ 480 < data.length) →
        exec (.clipData tag (.fields ⟨c.val, at', data⟩)) s = .next (s.reply ⟨0x31, tag, .length, .none⟩)) ∧
      (data ≠ [] → data.length ≤ 480 →
        (at' ≠ s.write.expected →
          exec (.clipData tag (.fields ⟨c.val, at', data⟩)) s = .next (s.reply ⟨0x31, tag, .sequence, .none⟩)) ∧
        (at' = s.write.expected → (s.clip c).length < at' + data.length →
          exec (.clipData tag (.fields ⟨c.val, at', data⟩)) s = .next (s.reply ⟨0x31, tag, .range, .none⟩)) ∧
        (at' = s.write.expected → at' + data.length ≤ (s.clip c).length → 2 ≤ s.write.buffer.length →
          exec (.clipData tag (.fields ⟨c.val, at', data⟩)) s = .next (s.reply ⟨0x31, tag, .busy, .none⟩)) ∧
        (at' = s.write.expected → at' + data.length ≤ (s.clip c).length → s.write.buffer.length < 2 →
          ∃ t, exec (.clipData tag (.fields ⟨c.val, at', data⟩)) s = .next t ∧
            t.write = { s.write with buffer := s.write.buffer ++ [data], expected := at' + data.length } ∧
            t.link = (s.ok 0x31 tag).link ∧ t = { s with write := t.write, memory := t.memory, link := t.link } ∧
            ((∃ slab offset block stands, s.memory.op = some (.program slab offset block stands)) → t.memory = s.memory) ∧
            (∀ slab, s.memory = ⟨.owned, none, none, [], []⟩ → s.write.clip = some c → s.write.buffer = [] →
              s.write.programmed = at' → at' / 32768 < s.write.erased → (s.clip c).slabs[s.write.erased]? = none →
              (s.clip c).slabs[at' / 32768]? = some slab → min 64 ((s.clip c).length - at') ≤ data.length →
              t.memory = ⟨.owned, some (.program slab (at' % 32768) (data.take (min 64 ((s.clip c).length - at'))) true),
                none, [], []⟩))))

/-- CLIP_CLOSE: BUSY unless the memory is owned, the clip WRITING and its closing flag not set; SEQUENCE while samples are missing. With
blocks still to be programmed the closing flag and the host's sum wait; with all programmed the sums decide READY or DAMAGED at once, the
computed sum is stored and reported, the context is free and a directory update is queued. A clip that comes out READY is requested by a
plan in use that has it as its background, the lowest-numbered FREE engine bound to the plan (shown for one such plan); with no such plan
no engine and no request changes (R126, R132, R138, R143, R151). -/
def Obligations.ClipClose : Prop :=
  ∀ (s : State) (c : ClipId) (tag : Byte) (sum : Nat), Ready s →
    ((s.memory.mode ≠ .owned ∨ (s.clip c).state ≠ .writing ∨ s.write.closing ≠ none) →
      exec (.clipClose tag (.fields ⟨c.val, sum⟩)) s = .next (s.reply ⟨0x32, tag, .busy, .none⟩)) ∧
    (s.memory.mode = .owned → (s.clip c).state = .writing → s.write.closing = none → s.write.clip = some c →
      (s.write.expected < (s.clip c).length →
        exec (.clipClose tag (.fields ⟨c.val, sum⟩)) s = .next (s.reply ⟨0x32, tag, .sequence, .none⟩)) ∧
      ((s.clip c).length ≤ s.write.expected → s.write.programmed ≠ (s.clip c).length →
        exec (.clipClose tag (.fields ⟨c.val, sum⟩)) s = .next
          ({ s with write := { s.write with closing := some (BitVec.ofNat 32 sum) } }.ok 0x32 tag)) ∧
      ((s.clip c).length ≤ s.write.expected → s.write.programmed = (s.clip c).length →
        ∃ t, exec (.clipClose tag (.fields ⟨c.val, sum⟩)) s = .next t ∧
          t.clip c = { s.clip c with
            state := if s.write.sum = BitVec.ofNat 32 sum then .ready else .damaged
            sum := s.write.sum, useCount := (t.clip c).useCount } ∧
          t.write = ⟨none, 0, 0, 0, 0, [], none⟩ ∧ UpdateQueued t c ∧ t.flash = s.flash ∧ t.freeSlabs = s.freeSlabs ∧
          (s.write.sum ≠ BitVec.ofNat 32 sum → (∀ d, d ≠ c → t.clip d = s.clip d) ∧
            (t.clip c).useCount = (s.clip c).useCount ∧
            t.link = ((s.report (.clipState c .damaged .closed (some s.write.sum))).ok 0x32 tag).link ∧
            t = { s with clips := t.clips, write := t.write, memory := t.memory, link := t.link }) ∧
          (s.write.sum = BitVec.ofNat 32 sum →
            t.link = ((s.report (.clipState c .ready .closed (some s.write.sum))).ok 0x32 tag).link ∧
            ((∀ h r, (s.plan h).record = some r → r.background = .shared c → (s.plan h).useCount = 0) →
              (∀ d, d ≠ c → t.clip d = s.clip d) ∧ (t.clip c).useCount = (s.clip c).useCount ∧ Rederived s t ∧
              t = { s with
                clips := t.clips, write := t.write, memory := t.memory, ears := t.ears, sends := t.sends, link := t.link }) ∧
            ∀ h r e, (s.plan h).record = some r → r.background = .shared c → 0 < (s.plan h).useCount → (s.plan h).bound = none →
              (s.plan h).pending = false → (∀ d, (s.eng d).state = .free ∨ (s.eng d).owner ≠ some (.shared h)) →
              (∀ g q, g ≠ h → (s.plan g).record = some q → q.background = .shared c → (s.plan g).useCount = 0) →
              s.arbiter.scanning = false → (s.eng e).state = .free → (∀ d, d < e → (s.eng d).state ≠ .free) →
              t.plan h = { s.plan h with bound := some e } ∧ (t.clip c).useCount = (s.clip c).useCount + 1 ∧
              t.eng e = { Engine.idle with
                state := .priming, owner := some (.shared h), cls := 2, clip := some c, loop := true, grant := s.arbiter.grants } ∧
              (∀ d, d ≠ e → t.eng d = s.eng d) ∧ t.arbiter = { s.arbiter with grants := s.arbiter.grants + 1 })))

/-- CLIP_DELETE, with the memory owned: an EMPTY or RETIRING entry stays; a READY entry without engines and a DAMAGED one become EMPTY at
once, their slabs free; a READY entry with engines becomes RETIRING and plays on; each has a directory update queued. A WRITING entry's
write is abandoned with no report: its slabs free, an erase in progress or suspended dropped with its slab left partly erased, every byte of
it a free value, and a block program left to complete with its read-back discarded. With
the memory away it is refused with BUSY (R122, R127, R128, R132). That the bytes of the partly erased slab are free values is the model's
form of what R128 leaves open (log 41). -/
def Obligations.ClipDelete : Prop :=
  ∀ (s : State) (c : ClipId) (tag : Byte), Ready s →
    (s.memory.mode ≠ .owned → exec (.clipDelete tag (.fields c.val)) s = .next (s.reply ⟨0x33, tag, .busy, .none⟩)) ∧
    (s.memory.mode = .owned →
      (((s.clip c).state = .empty ∨ (s.clip c).state = .retiring) →
        exec (.clipDelete tag (.fields c.val)) s = .next (s.ok 0x33 tag)) ∧
      (((s.clip c).state = .ready ∧ (s.clip c).useCount = 0) ∨ (s.clip c).state = .damaged →
        ∃ t, exec (.clipDelete tag (.fields c.val)) s = .next t ∧ t.clip c = ⟨.empty, 0, none, [], 0, 0⟩ ∧
          t.freeSlabs = returnNumbers (s.clip c).slabs s.freeSlabs ∧ UpdateQueued t c ∧
          (∀ d, d ≠ c → t.clip d = s.clip d) ∧ t.link = (s.ok 0x33 tag).link ∧
          t = { s with clips := t.clips, freeSlabs := t.freeSlabs, memory := t.memory, link := t.link }) ∧
      ((s.clip c).state = .ready → 0 < (s.clip c).useCount →
        ∃ t, exec (.clipDelete tag (.fields c.val)) s = .next t ∧ t.clip c = { s.clip c with state := .retiring } ∧
          UpdateQueued t c ∧ (∀ d, d ≠ c → t.clip d = s.clip d) ∧ t.link = (s.ok 0x33 tag).link ∧
          t = { s with clips := t.clips, memory := t.memory, link := t.link }) ∧
      ((s.clip c).state = .writing → s.write.clip = some c → s.memory.fetches = [] → s.memory.updates = [] →
        ((s.memory.op = none ∨ ∃ e g, s.memory.op = some (.fetch e g)) → s.memory.suspended = none →
          exec (.clipDelete tag (.fields c.val)) s = .next ({ s with
            clips := tset s.clips c ⟨.empty, 0, none, [], 0, 0⟩, freeSlabs := returnNumbers (s.clip c).slabs s.freeSlabs
            write := ⟨none, 0, 0, 0, 0, [], none⟩, memory := ⟨.owned, s.memory.op, none, [], []⟩ }.ok 0x33 tag)) ∧
        (∀ slab op, ((s.memory.op = some (.erase slab) ∧ op = none)
            ∨ (s.memory.suspended = some slab ∧ op = s.memory.op ∧ ∃ e g, op = some (.fetch e g))) → FlashLaw s →
          ∃ m, PartlyErased s.flash m slab s.unfinishedOps ∧
            exec (.clipDelete tag (.fields c.val)) s = .next ({ s with
              clips := tset s.clips c ⟨.empty, 0, none, [], 0, 0⟩, freeSlabs := returnNumbers (s.clip c).slabs s.freeSlabs
              write := ⟨none, 0, 0, 0, 0, [], none⟩, memory := ⟨.owned, op, none, [], []⟩
              flash := m, unfinishedOps := s.unfinishedOps + 1 }.ok 0x33 tag)) ∧
        (∀ slab offset block stands, s.memory.op = some (.program slab offset block stands) → s.memory.suspended = none →
          exec (.clipDelete tag (.fields c.val)) s = .next ({ s with
            clips := tset s.clips c ⟨.empty, 0, none, [], 0, 0⟩, freeSlabs := returnNumbers (s.clip c).slabs s.freeSlabs
            write := ⟨none, 0, 0, 0, 0, [], none⟩
            memory := ⟨.owned, some (.program slab offset block false), none, [], []⟩ }.ok 0x33 tag))))

/-- CLIP_INFO is refused with BUSY during a directory scan and replied OK otherwise, with the working entry (state, length, loop start,
slab list, sample sum, use count), the write's progress for a WRITING clip, and every engine on the clip with its owner, state and
underrun count. PLAN_INFO is replied OK for any plan of H0 to H15: an undefined plan gives the defined field as no, and nothing more; a
defined plan gives its record, its use count, the bound engine with its state, whether a shared stream request is pending, and the source
that its MUSIC feeds take; a plan id beyond H15 is refused with RANGE. Neither clears anything: nothing but the reply changes. -/
def Obligations.RecordReplies : Prop :=
  (∀ (s : State) (c : ClipId) (tag : Byte), Ready s →
    (s.memory.mode = .scanning → exec (.clipInfo tag (.fields c.val)) s = .next (s.reply ⟨0x34, tag, .busy, .none⟩)) ∧
    (s.memory.mode ≠ .scanning →
      ∃ f : ClipInfo, exec (.clipInfo tag (.fields c.val)) s = .next (s.reply ⟨0x34, tag, .ok, .clipInfo f⟩) ∧
        f.entry.state = (s.clip c).state ∧ f.entry.length = (s.clip c).length ∧ f.entry.loopStart = (s.clip c).loopStart ∧
        f.entry.slabs = (s.clip c).slabs ∧ f.entry.sum = (s.clip c).sum ∧ f.entry.useCount = (s.clip c).useCount ∧
        ((s.clip c).state = .writing →
          f.writing = some (s.write.expected, s.write.programmed, s.write.closing.isSome)) ∧
        ((s.clip c).state ≠ .writing → f.writing = none) ∧
        ∀ v, v ∈ f.engines ↔ ∃ e, (s.eng e).state ≠ .free ∧ (s.eng e).clip = some c
          ∧ v = ⟨e, (s.eng e).owner, (s.eng e).state, (s.eng e).underruns⟩)) ∧
  (∀ (s : State) (h : PlanId) (tag : Byte), Ready s →
    (∀ n, 16 ≤ n → exec (.planInfo tag (.fields n)) s = .next (s.reply ⟨0x22, tag, .range, .none⟩)) ∧
    ((s.plan h).record = none →
      exec (.planInfo tag (.fields h.val)) s = .next (s.reply ⟨0x22, tag, .ok, .planInfo none⟩)) ∧
    ∀ r, (s.plan h).record = some r →
      ∃ f : PlanInfo, exec (.planInfo tag (.fields h.val)) s = .next (s.reply ⟨0x22, tag, .ok, .planInfo (some f)⟩) ∧
        f.record = r ∧ f.useCount = (s.plan h).useCount ∧ f.pending = (s.plan h).pending ∧
        ((s.plan h).bound = none → f.bound = none) ∧
        (∀ e, (s.plan h).bound = some e → f.bound = some (e, (s.eng e).state)) ∧
        (r.background = .absent → f.source = none) ∧ (∀ k, r.background = .program k → f.source = some (.program k)) ∧
        (∀ c, r.background = .shared c →
          (∀ e, (s.plan h).bound = some e → (s.eng e).state = .playing → f.source = some (.engine e)) ∧
          ((∀ e, (s.plan h).bound = some e → (s.eng e).state ≠ .playing) → f.source = r.fallback.map .program)))

/-- MEMORY_RELEASE: BUSY in SCANNING, no change in RELEASING and RELEASED. From OWNED with nothing in progress or queued the lines are
released at once, MEMORY_RELEASED following the reply; with a fetch in progress the port is RELEASING, and a write is abandoned, reported,
its slabs freed, an erase in progress or suspended dropped with its slab left partly erased, every byte of it a free value (R128, R133; the
place of the report after the reply is the model's reading, log 26). MEMORY_RECLAIM: BUSY unless RELEASED; from RELEASED every engine is FREE, the queued updates
are discarded, and the scan begins with the arbiter as in SCANNING (R135). -/
def Obligations.MemoryReleaseAndReclaim : Prop :=
  ∀ (s : State) (tag : Byte), Ready s →
    (s.memory.mode = .scanning →
      exec (.memoryRelease tag (.fields ())) s = .next (s.reply ⟨0x38, tag, .busy, .none⟩)) ∧
    ((s.memory.mode = .releasing ∨ s.memory.mode = .released) →
      exec (.memoryRelease tag (.fields ())) s = .next (s.ok 0x38 tag)) ∧
    (s.memory.mode = .owned → s.memory.op = none → s.memory.updates = [] → s.write.clip = none →
      exec (.memoryRelease tag (.fields ())) s = .next
        (({ s with memory := { s.memory with mode := .released } }.ok 0x38 tag).report .memoryReleased)) ∧
    (∀ c e g, s.memory.mode = .owned → s.memory.op = some (.fetch e g) → s.write.clip = some c →
      (s.memory.suspended = none → exec (.memoryRelease tag (.fields ())) s = .next
        (({ s with
          clips := tset s.clips c ⟨.empty, 0, none, [], 0, 0⟩, freeSlabs := returnNumbers (s.clip c).slabs s.freeSlabs
          write := ⟨none, 0, 0, 0, 0, [], none⟩
          memory := { s.memory with mode := .releasing } }.report (.clipState c .empty .abandoned none)).ok 0x38 tag)) ∧
      (∀ slab, s.memory.suspended = some slab → FlashLaw s →
        ∃ m, PartlyErased s.flash m slab s.unfinishedOps ∧ exec (.memoryRelease tag (.fields ())) s = .next
          (({ s with
            clips := tset s.clips c ⟨.empty, 0, none, [], 0, 0⟩, freeSlabs := returnNumbers (s.clip c).slabs s.freeSlabs
            write := ⟨none, 0, 0, 0, 0, [], none⟩, flash := m, unfinishedOps := s.unfinishedOps + 1
            memory := { s.memory with mode := .releasing, suspended := none } }.report
              (.clipState c .empty .abandoned none)).ok 0x38 tag))) ∧
    (∀ c slab, s.memory.mode = .owned → s.memory.op = some (.erase slab) → s.memory.updates = [] → s.write.clip = some c →
      FlashLaw s →
      ∃ m, PartlyErased s.flash m slab s.unfinishedOps ∧ exec (.memoryRelease tag (.fields ())) s = .next
        ((({ s with
          clips := tset s.clips c ⟨.empty, 0, none, [], 0, 0⟩, freeSlabs := returnNumbers (s.clip c).slabs s.freeSlabs
          write := ⟨none, 0, 0, 0, 0, [], none⟩, flash := m, unfinishedOps := s.unfinishedOps + 1
          memory := { s.memory with mode := .released, op := none, suspended := none } }.report
            (.clipState c .empty .abandoned none)).ok 0x38 tag).report .memoryReleased)) ∧
    (s.memory.mode ≠ .released →
      exec (.memoryReclaim tag (.fields ())) s = .next (s.reply ⟨0x39, tag, .busy, .none⟩)) ∧
    (s.memory.mode = .released →
      ∃ t, exec (.memoryReclaim tag (.fields ())) s = .next t ∧ (∀ e, (t.eng e).state = .free) ∧ t.memory.mode = .scanning ∧
        t.memory.updates = [] ∧ t.scan = ⟨0, 0, 0, 0⟩ ∧ t.arbiter.scanning = true ∧ t.flash = s.flash ∧
        t.link.replies = s.link.replies ++ [⟨0x39, tag, .ok, .none⟩])

/-- SCAN_ENTRY_READ does nothing outside SCANNING. A stored entry taken as EMPTY without complaint gives an EMPTY record; a good READY or
DAMAGED one, whose slabs are its own and no kept entry's, is taken and counted; a bad one, or one whose slab an entry kept before it
holds, is EMPTY, counted and reported with cause DISCARDED. The last entry, C255, makes the memory OWNED with the free set rebuilt and
SCAN_DONE reported, shown where nobody waits for an engine (R135, R136). That the row does nothing outside SCANNING (log 1), and that
bytes found to differ become the part's image (log 6), are the model's choices. -/
def Obligations.ScanEntryRead : Prop :=
  ∀ (s : State) (found : Option (List Byte)),
    (s.memory.mode ≠ .scanning → exec (.scanEntryRead found) s = .next s) ∧
    ∀ (c : ClipId) (b : List Byte), s.memory.mode = .scanning → s.scan.next = c.val →
      b = found.getD (flashReadBytes s.flash (1024 * c.val) 146) →
      (c.val < 255 → ∃ t, exec (.scanEntryRead found) s = .next t ∧
        t.flash = (match found with | some x => flashWriteBytes s.flash (1024 * c.val) x | none => s.flash) ∧
        (∀ d, d ≠ c → t.clip d = s.clip d) ∧
        (readEntry b = .blank → t.clip c = ⟨.empty, 0, none, [], 0, 0⟩ ∧ t.scan = { s.scan with next := c.val + 1 } ∧
          t.link = s.link) ∧
        (readEntry b = .bad → t.clip c = ⟨.empty, 0, none, [], 0, 0⟩ ∧
          t.scan = { s.scan with next := c.val + 1, discarded := s.scan.discarded + 1 } ∧
          t.link = (s.report (.clipState c .empty .discarded none)).link) ∧
        (∀ x, readEntry b = .good x → x.slabs.Nodup → (∀ d, d.val < c.val → ∀ n ∈ x.slabs, n ∉ (s.clip d).slabs) →
          t.clip c = x ∧ t.link = s.link ∧ t.scan.next = c.val + 1 ∧ t.scan.discarded = s.scan.discarded ∧
          (x.state = .ready → t.scan.ready = s.scan.ready + 1 ∧ t.scan.damaged = s.scan.damaged) ∧
          (x.state = .damaged → t.scan.damaged = s.scan.damaged + 1 ∧ t.scan.ready = s.scan.ready)) ∧
        (∀ x, readEntry b = .good x → (¬ x.slabs.Nodup ∨ ∃ d, d.val < c.val ∧ ∃ n ∈ x.slabs, n ∈ (s.clip d).slabs) →
          t.clip c = ⟨.empty, 0, none, [], 0, 0⟩ ∧
          t.scan = { s.scan with next := c.val + 1, discarded := s.scan.discarded + 1 } ∧
          t.link = (s.report (.clipState c .empty .discarded none)).link) ∧
        t = { s with flash := t.flash, clips := t.clips, scan := t.scan, link := t.link }) ∧
      (c.val = 255 → readEntry b = .blank → s.arbiter.queue = [] → (∀ h, (s.plan h).useCount = 0) → s.write.clip = none →
        s.memory = ⟨.scanning, none, none, [], []⟩ →
        ∃ t, exec (.scanEntryRead found) s = .next t ∧ t.memory = ⟨.owned, none, none, [], []⟩ ∧
          t.arbiter = { s.arbiter with scanning := false } ∧ t.clip c = ⟨.empty, 0, none, [], 0, 0⟩ ∧
          (∀ d, d ≠ c → t.clip d = s.clip d) ∧
          t.freeSlabs = ((List.range 1020).map (· + 4)).filter (fun n =>
            (List.finRange 256).all fun d => !(t.clip d).slabs.contains n) ∧
          t.link = (s.report (.scanDone s.scan.ready s.scan.damaged s.scan.discarded)).link ∧ Rederived s t ∧
          t.engines = s.engines ∧ t.legs = s.legs)

/-- FETCH_COMPLETE, the clip found as its image has it. The block of a fetch whose allocation has ended, or whose engine is not PRIMING or
PLAYING, is discarded. Otherwise it joins the engine's buffer: 64 samples from the fetch position on, with zeros beyond the length for a
clip that does not loop, and the fetch position moves on, from the last sample of a looping clip to its loop start; a PRIMING engine
enters PLAYING with two blocks, or with no data left to fetch (R138). That the position moves on at the fetch's completion, and not at all
for a discarded block, is the model's choice (log 33). -/
def Obligations.BlockFetched : Prop :=
  ∀ (s : State) (e : EngId) (g : Nat), s.memory.op = some (.fetch e g) →
    ((g ≠ (s.eng e).grant ∨ ((s.eng e).state ≠ .priming ∧ (s.eng e).state ≠ .playing)) →
      ∃ t, exec (.fetchComplete none) s = .next t ∧ t = { s with memory := t.memory, link := t.link } ∧
        t.link.replies = s.link.replies ∧
        (s.memory = ⟨.owned, some (.fetch e g), none, [], []⟩ → s.write.clip = none →
          t.memory = ⟨.owned, none, none, [], []⟩ ∧ t.link = s.link)) ∧
    ∀ (c : ClipId), g = (s.eng e).grant → ((s.eng e).state = .priming ∨ (s.eng e).state = .playing) → (s.eng e).clip = some c →
      ((s.eng e).loop = true → (s.eng e).fetchPos + 64 ≤ (s.clip c).length) →
      ∃ (t : State) (b : Fetched), exec (.fetchComplete none) s = .next t ∧
        t.eng e = { s.eng e with
          buffer := (s.eng e).buffer ++ [b]
          fetchPos := if (s.eng e).loop = true ∧ (s.eng e).fetchPos + 64 = (s.clip c).length
            then (s.clip c).loopStart.getD 0 else (s.eng e).fetchPos + 64
          state := if (s.eng e).state = .playing ∨ 1 ≤ (s.eng e).buffer.length
              ∨ ((s.eng e).loop = false ∧ (s.clip c).length ≤ (s.eng e).fetchPos + 64) then .playing else .priming } ∧
        b.samples.length = 64 ∧
        (∀ i a, i < 64 → (s.eng e).fetchPos + i < (s.clip c).length →
          sampleAddress (s.clip c) ((s.eng e).fetchPos + i) = some a → b.samples[i]? = some (flashSample s.flash a)) ∧
        (∀ i, i < 64 → (s.clip c).length ≤ (s.eng e).fetchPos + i → b.samples[i]? = some 0) ∧
        (b.final = true ↔ (s.eng e).loop = false ∧ (s.eng e).fetchPos < (s.clip c).length
          ∧ (s.clip c).length ≤ (s.eng e).fetchPos + 64) ∧
        (∀ d, d ≠ e → t.eng d = s.eng d) ∧ t.link.replies = s.link.replies ∧
        t = { s with
          positions := t.positions, engines := t.engines, memory := t.memory, legs := t.legs, ears := t.ears, sends := t.sends
          link := t.link }

/-- PROGRAM_COMPLETE stores the samples as read back, adds them to the running sum, counts them, and lets go of the messages whose last
sample is programmed (shown for one message); a program that no longer stands changes the flash alone. With the closing flag set, the
program that brings the samples programmed to the length finishes the write: READY or DAMAGED by the sums, the sum stored and reported,
the context free, a directory update queued; where no plan in use has the clip as its background, no engine and no request changes. ERASE_COMPLETE leaves the slab reading erased and counts it. DIRECTORY_UPDATE_COMPLETE stores
the entry taken at its start. Every other byte of the flash reads as before (R125, R126, R131, R132). Bytes erased read 0xFF, and samples
lie least significant byte first, by the model's choice (log 5). -/
def Obligations.MemoryCompletions : Prop :=
  ∀ s : State, FlashLaw s →
    (∀ slab offset block stands, s.memory.op = some (.program slab offset block stands) →
      (s.write.closing = none ∨ ∀ c, s.write.clip = some c → s.write.programmed + block.length ≠ (s.clip c).length) →
      ∃ t, exec (.programComplete none) s = .next t ∧
        (∀ i x, block[i]? = some x → flashSample t.flash (slab * 65536 + offset * 2 + 2 * i) = x) ∧
        (∀ a, (a < slab * 65536 + offset * 2 ∨ slab * 65536 + offset * 2 + 2 * block.length ≤ a) →
          flashRead t.flash a = flashRead s.flash a) ∧
        (stands = false → t.write = s.write) ∧
        (stands = true → t.write.sum = addWords s.write.sum block ∧
          t.write.programmed = s.write.programmed + block.length ∧ t.write.expected = s.write.expected ∧
          t.write.clip = s.write.clip ∧ t.write.erased = s.write.erased ∧ t.write.closing = s.write.closing ∧
          ∀ m, s.write.buffer = [m] →
            (s.write.expected - m.length + m.length ≤ s.write.programmed + block.length → t.write.buffer = []) ∧
            (s.write.programmed + block.length < s.write.expected - m.length + m.length → t.write.buffer = [m])) ∧
        t = { s with flash := t.flash, write := t.write, memory := t.memory, link := t.link }) ∧
    (∀ slab offset block c given, s.memory.op = some (.program slab offset block true) → s.memory.mode = .owned →
      s.write.clip = some c → s.write.closing = some given → s.write.programmed + block.length = (s.clip c).length →
      ∃ t, exec (.programComplete none) s = .next t ∧
        (∀ i x, block[i]? = some x → flashSample t.flash (slab * 65536 + offset * 2 + 2 * i) = x) ∧
        t.clip c = { s.clip c with
          state := if addWords s.write.sum block = given then .ready else .damaged
          sum := addWords s.write.sum block, useCount := (t.clip c).useCount } ∧
        t.write = ⟨none, 0, 0, 0, 0, [], none⟩ ∧ UpdateQueued t c ∧ t.freeSlabs = s.freeSlabs ∧
        (addWords s.write.sum block ≠ given → (∀ d, d ≠ c → t.clip d = s.clip d) ∧ (t.clip c).useCount = (s.clip c).useCount ∧
          t.link = (s.report (.clipState c .damaged .closed (some (addWords s.write.sum block)))).link ∧
          t = { s with flash := t.flash, clips := t.clips, write := t.write, memory := t.memory, link := t.link }) ∧
        (addWords s.write.sum block = given →
          t.link = (s.report (.clipState c .ready .closed (some (addWords s.write.sum block)))).link ∧
          ((∀ h r, (s.plan h).record = some r → r.background = .shared c → (s.plan h).useCount = 0) →
            (∀ d, d ≠ c → t.clip d = s.clip d) ∧ (t.clip c).useCount = (s.clip c).useCount ∧ Rederived s t ∧
            t = { s with
              flash := t.flash, clips := t.clips, write := t.write, memory := t.memory, ears := t.ears, sends := t.sends
              link := t.link }))) ∧
    (∀ slab, s.memory.op = some (.erase slab) →
      ∃ t, exec .eraseComplete s = .next t ∧
        (∀ a, slab * 65536 ≤ a → a < (slab + 1) * 65536 → flashRead t.flash a = 0xFF) ∧
        (∀ a, (a < slab * 65536 ∨ (slab + 1) * 65536 ≤ a) → flashRead t.flash a = flashRead s.flash a) ∧
        t.write = { s.write with erased := s.write.erased + 1 } ∧
        t = { s with flash := t.flash, write := t.write, memory := t.memory, link := t.link }) ∧
    (∀ c image, s.memory.op = some (.update c image) →
      ∃ t, exec .directoryUpdateComplete s = .next t ∧
        flashReadBytes t.flash (1024 * c.val) image.length = image ∧
        (∀ a, (a < 1024 * c.val ∨ 1024 * c.val + image.length ≤ a) → flashRead t.flash a = flashRead s.flash a) ∧
        t = { s with flash := t.flash, memory := t.memory, link := t.link })

/-! ## Playback engines (chapter 6) -/

/-- ENGINE_BLOCK_EVENT. A FREE or PRIMING engine's block is zeros. A PLAYING one puts out its oldest block, or zeros counted as an
underrun, the first of an allocation reported. After the block with the final sample, and after the fade block of a STOPPING engine (its
oldest block under a gain falling by 256 a sample), one zero block follows, and then the release: a greeting's or announcement's engine is
FREE again, its clip's use count one lower, and the session that requested it is in BACKGROUND, after a greeting with the first delay loaded
and its index unchanged, after an announcement with the interval and the next place, a preempted one reported as ANNOUNCE_PREEMPTED, shown
where nobody waits for an engine; a shared stream's engine goes at its release to the
request that its plan has had held behind it, PRIMING on the new clip and bound to the plan (R137 to R141, R143, R144, R152, R156, R158). -/
def Obligations.EngineBlock : Prop :=
  ∀ (s : State) (e : EngId), s.memory.mode ≠ .releasing →
    (((s.eng e).state = .free ∨ (s.eng e).state = .priming) → exec (.engineBlockEvent e) s = .next
      { s with sources := { s.sources with engine := tset s.sources.engine e (List.replicate 64 0) } }) ∧
    (∀ b rest, (s.eng e).state = .playing → (s.eng e).closing = 0 → (s.eng e).buffer = b :: rest →
      ∃ t, exec (.engineBlockEvent e) s = .next t ∧ tget t.sources.engine e = b.samples ∧
        t.eng e = { s.eng e with buffer := rest, closing := if b.final then 1 else 0 } ∧ (∀ d, d ≠ e → t.eng d = s.eng d) ∧
        t = { s with sources := { s.sources with engine := t.sources.engine }, engines := t.engines, memory := t.memory }) ∧
    ((s.eng e).state = .playing → (s.eng e).closing = 0 → (s.eng e).buffer = [] →
      ∃ t, exec (.engineBlockEvent e) s = .next t ∧ tget t.sources.engine e = List.replicate 64 0 ∧
        t.eng e = { s.eng e with underruns := min 65535 ((s.eng e).underruns + 1) } ∧ (∀ d, d ≠ e → t.eng d = s.eng d) ∧
        t.link = (if (s.eng e).underruns = 0
          then (s.report (.engineUnderrun e (s.eng e).owner (s.eng e).clip)).link else s.link) ∧
        t = { s with
          sources := { s.sources with engine := t.sources.engine }, engines := t.engines, memory := t.memory, link := t.link }) ∧
    (∀ b rest, (s.eng e).state = .stopping → (s.eng e).closing = 0 → (s.eng e).buffer = b :: rest → (s.eng e).fadeGain = 16384 →
      b.samples.length = 64 →
      ∃ (t : State) (out : Block), exec (.engineBlockEvent e) s = .next t ∧
        t = { s with
          sources := { s.sources with engine := tset s.sources.engine e out }
          engines := tset s.engines e { s.eng e with buffer := rest, closing := 1, fadeGain := 0 } } ∧
        out.length = 64 ∧ ∀ i x, b.samples[i]? = some x → out[i]? = some (scale x (16384 - 256 * i))) ∧
    (((s.eng e).state = .playing ∨ (s.eng e).state = .stopping) → (s.eng e).closing = 1 →
      exec (.engineBlockEvent e) s = .next { s with
        sources := { s.sources with engine := tset s.sources.engine e (List.replicate 64 0) }
        engines := tset s.engines e { s.eng e with closing := 2 } }) ∧
    (∀ l c, ((s.eng e).state = .playing ∨ (s.eng e).state = .stopping) → (s.eng e).closing = 2 → s.arbiter.queue = [] →
      s.arbiter.held = [] → (s.eng e).owner = some (.leg l) → (s.eng e).clip = some c → (s.clip c).state = .ready →
      ∃ t, exec (.engineBlockEvent e) s = .next t ∧ (t.eng e).state = .free ∧ (t.eng e).owner = none ∧
        (t.eng e).buffer = [] ∧ (∀ d, d ≠ e → t.eng d = s.eng d) ∧
        t.clip c = { s.clip c with useCount := (s.clip c).useCount - 1 } ∧ (∀ d, d ≠ c → t.clip d = s.clip d) ∧
        tget t.sources.engine e = List.replicate 64 0 ∧ (∀ p, ∀ f ∈ tget t.ears p, f.source ≠ .engine e) ∧
        (∀ m, ∀ f ∈ tget t.sends m, f.source ≠ .engine e) ∧
        (∀ x r i rec', (s.leg l).session = some x → x.request = some r → r.engine = some e → r.place = some i →
          s.sessionRecord x = some rec' → rec'.announcements ≠ [] → (t.leg l).session = some { x with
            request := none, phase := .background, countdown := some rec'.interval
            nextIndex := (i + 1) % rec'.announcements.length }) ∧
        (∀ x r rec', (s.leg l).session = some x → x.request = some r → r.engine = some e → r.place = none →
          s.sessionRecord x = some rec' → (t.leg l).session = some { x with
            request := none, phase := .background, countdown := some rec'.firstDelay }) ∧
        (∀ x r, (s.leg l).session = some x → x.request = some r → r.engine = some e →
          ((s.eng e).state = .playing ∨ (s.eng e).stopOutcome ≠ .preempted → t.link = s.link) ∧
          ((s.eng e).state = .stopping → (s.eng e).stopOutcome = .preempted →
            t.link = (s.report (.announcePreempted l x.plan r.clip (if r.place = none then .greeting else .announcement)
              r.place)).link))) ∧
    ∀ h c c', (s.eng e).state = .stopping → (s.eng e).closing = 2 → (s.eng e).owner = some (.shared h) → (s.eng e).clip = some c →
      (s.clip c).state = .ready → (s.plan h).bound = some e → s.arbiter.held = [⟨.shared h, c'⟩] → s.isReady c' = true →
      s.arbiter.scanning = false → (∀ d, d ≠ e → (s.eng d).state ≠ .free) →
      ∃ t, exec (.engineBlockEvent e) s = .next t ∧ tget t.sources.engine e = List.replicate 64 0 ∧
        t.plan h = { s.plan h with bound := some e, pending := false } ∧
        t.eng e = { Engine.idle with
          state := .priming, owner := some (.shared h), cls := 2, clip := some c', loop := true, grant := s.arbiter.grants } ∧
        (∀ d, d ≠ e → t.eng d = s.eng d) ∧ t.arbiter = { s.arbiter with held := [], grants := s.arbiter.grants + 1 }

/-! ## Whispers and supervision (chapter 8) -/

/-- WHISPER_PROMPT: RANGE for a position, clip or flag that names nothing; BUSY unless the port is LIVE; QUEUE_FULL with four entries.
Otherwise the PROMPT joins the queue and the reply is OK. Behind a head request or a gap it waits. Alone, it ends at once as
WHISPER_SKIPPED, cause CLIP, when its clip is not READY; is granted the lowest-numbered FREE engine, PRIMING on the clip; or, with none
FREE, waits behind the class-0 requests and ahead of the others, and preempts the class-1 engine of the latest grant, if there is one that
is PLAYING and not finishing (R138, R142 to R144, R165, R167, R170). That a flag that names nothing is refused ahead of BUSY and
QUEUE_FULL is the model's choice (log 37). -/
def Obligations.WhisperPromptPlaced : Prop :=
  ∀ (s : State) (p : PosId) (c : ClipId) (tag : Byte) (flag host : Nat), Ready s →
    (∀ k m, (32 ≤ k ∨ 256 ≤ m ∨ 2 ≤ flag) →
      exec (.whisperPrompt tag (.fields ⟨k, m, flag, host⟩)) s = .next (s.reply ⟨0x40, tag, .range, .none⟩)) ∧
    (flag < 2 → (s.pos p).port.state ≠ .live →
      exec (.whisperPrompt tag (.fields ⟨p.val, c.val, flag, host⟩)) s = .next (s.reply ⟨0x40, tag, .busy, .none⟩)) ∧
    (flag < 2 → (s.pos p).port.state = .live → 4 ≤ (s.pos p).whisper.entries.length →
      exec (.whisperPrompt tag (.fields ⟨p.val, c.val, flag, host⟩)) s = .next (s.reply ⟨0x40, tag, .queueFull, .none⟩)) ∧
    (flag < 2 → (s.pos p).port.state = .live → (s.pos p).whisper.entries.length < 4 →
      ((s.pos p).whisper.head ≠ .none ∨ (s.pos p).whisper.gap ≠ none) →
      ∃ t, exec (.whisperPrompt tag (.fields ⟨p.val, c.val, flag, host⟩)) s = .next t ∧ (∀ q, q ≠ p → t.pos q = s.pos q) ∧
        t.pos p = { s.pos p with whisper := { (s.pos p).whisper with
          entries := (s.pos p).whisper.entries ++ [⟨.prompt (decide (flag = 0)) host, c, false⟩] } } ∧
        Rederived s t ∧ t.link = (s.ok 0x40 tag).link ∧
        t = { s with positions := t.positions, ears := t.ears, sends := t.sends, link := t.link }) ∧
    (flag < 2 → (s.pos p).port.state = .live → (s.pos p).whisper.entries = [] → (s.pos p).whisper.head = .none →
      (s.pos p).whisper.gap = none →
      (s.isReady c = false → ∃ t, exec (.whisperPrompt tag (.fields ⟨p.val, c.val, flag, host⟩)) s = .next t ∧ Rederived s t ∧
        t.link = ((s.report (.whisperSkipped ⟨p, c, host, some .clip⟩)).ok 0x40 tag).link ∧
        t = { s with ears := t.ears, sends := t.sends, link := t.link }) ∧
      (s.isReady c = true → s.arbiter.scanning = false → (∀ e, (s.eng e).state = .free ∨ (s.eng e).owner ≠ some (.whisper p)) →
        (∀ e, (s.eng e).state = .free → (∀ d, d < e → (s.eng d).state ≠ .free) →
          ∃ t, exec (.whisperPrompt tag (.fields ⟨p.val, c.val, flag, host⟩)) s = .next t ∧
            t.pos p = { s.pos p with whisper := { (s.pos p).whisper with
              entries := [⟨.prompt (decide (flag = 0)) host, c, false⟩], head := .granted e } } ∧
            (∀ q, q ≠ p → t.pos q = s.pos q) ∧
            t.eng e = { Engine.idle with
              state := .priming, owner := some (.whisper p), cls := 0, clip := some c, grant := s.arbiter.grants } ∧
            (∀ d, d ≠ e → t.eng d = s.eng d) ∧ t.clip c = { s.clip c with useCount := (s.clip c).useCount + 1 } ∧
            (0 < (s.clip c).length → e ∈ t.memory.fetches ∨ ∃ g, t.memory.op = some (.fetch e g)) ∧
            t.arbiter = { s.arbiter with grants := s.arbiter.grants + 1 } ∧
            t.link.replies = s.link.replies ++ [⟨0x40, tag, .ok, .none⟩]) ∧
        ((∀ e, (s.eng e).state ≠ .free ∧ ((s.eng e).cls = 1 → (s.eng e).state ≠ .priming)) →
          ∃ (t : State) (ahead behind : List WaitEntry),
            exec (.whisperPrompt tag (.fields ⟨p.val, c.val, flag, host⟩)) s = .next t ∧
            (t.pos p).whisper.head = .waiting 0 ∧ s.arbiter.queue = ahead ++ behind ∧
            t.arbiter.queue = ahead ++ [⟨.whisper p, c⟩] ++ behind ∧ (∀ x ∈ ahead, x.owner.cls = 0) ∧
            (∀ x, behind.head? = some x → 0 < x.owner.cls) ∧ t.link = (s.ok 0x40 tag).link ∧
            ((∀ e, (s.eng e).cls = 1 → (s.eng e).state = .playing → 0 < (s.eng e).closing) → t.engines = s.engines) ∧
            (∀ v, (s.eng v).cls = 1 → (s.eng v).state = .playing → (s.eng v).closing = 0 →
              (∀ d, d ≠ v → (s.eng d).cls = 1 → (s.eng d).state = .playing → (s.eng d).closing = 0 →
                (s.eng d).grant < (s.eng v).grant) →
              t.eng v = { s.eng v with state := .stopping, stopOutcome := .preempted } ∧ v ∉ t.memory.fetches ∧
              ∀ d, d ≠ v → t.eng d = s.eng d))))

/-- WHISPER_FLUSH leaves no PROMPT in the queue, and is replied OK. A waiting PROMPT alone is reported WHISPER_ABORTED, cause FLUSH, and
its request withdrawn; a PLAYING one's engine is stopped, stays on as the detached engine, and a gap starts; an empty queue stays as it is
(R168, R173). -/
def Obligations.WhisperFlushed : Prop :=
  ∀ (s : State) (p : PosId) (tag : Byte), Ready s →
    (∃ t, exec (.whisperFlush tag (.fields p.val)) s = .next t ∧ (∀ w ∈ (t.pos p).whisper.entries, w.isPrompt = false) ∧
      (t.pos p).port = (s.pos p).port ∧ (t.pos p).mute = (s.pos p).mute ∧ t.flash = s.flash ∧
      t.link.replies = s.link.replies ++ [⟨0x41, tag, .ok, .none⟩]) ∧
    ((s.pos p).whisper.entries = [] → exec (.whisperFlush tag (.fields p.val)) s = .next (s.ok 0x41 tag)) ∧
    ∀ (w : WhisperEntry) (stop : Bool) (host : Nat), (s.pos p).whisper.entries = [w] → w.kind = .prompt stop host →
      (∀ d, (s.pos p).whisper.head = .waiting d →
        ∃ t, exec (.whisperFlush tag (.fields p.val)) s = .next t ∧
          t.pos p = { s.pos p with whisper := { (s.pos p).whisper with entries := [], head := .none } } ∧
          (∀ q, q ≠ p → t.pos q = s.pos q) ∧ (∀ x ∈ t.arbiter.queue, x.owner ≠ .whisper p) ∧
          (∀ x ∈ t.arbiter.held, x.owner ≠ .whisper p) ∧ Rederived s t ∧
          t.link = ((s.report (.whisperAborted ⟨p, w.clip, host, some .flush⟩)).ok 0x41 tag).link ∧
          t = { s with
            positions := t.positions, ears := t.ears, sends := t.sends, arbiter := t.arbiter, link := t.link }) ∧
      (∀ e, (s.pos p).whisper.head = .granted e → (s.eng e).state = .playing → (s.eng e).closing = 0 →
        ∃ t, exec (.whisperFlush tag (.fields p.val)) s = .next t ∧
          t.pos p = { s.pos p with whisper := { (s.pos p).whisper with
            entries := [], head := .none, gap := if (s.pos p).config.whisperGap = 0 then none else some 0
            detached := some e } } ∧
          (∀ q, q ≠ p → t.pos q = s.pos q) ∧ t.eng e = { s.eng e with state := .stopping, stopOutcome := .stopped } ∧
          (∀ d, d ≠ e → t.eng d = s.eng d) ∧
          t.link = ((s.report (.whisperAborted ⟨p, w.clip, host, some .flush⟩)).ok 0x41 tag).link)

/-- The queue's block event. GAP_END: with no gap running nothing happens; the gap's count rises by 1, and at the gap value the gap ends.
WHISPER_DEADLINE_EXPIRY: with no request waiting nothing happens; the deadline count rises by 1, and at the deadline the request is
withdrawn and the entry ends skipped: a PROMPT as WHISPER_SKIPPED, cause DEADLINE, a CALL_WHISPER as CONNECT_DONE, skipped, with its leg
ACTIVE; no gap starts (R42, R168 to R171; the rows stand for every such block event, log 1). -/
def Obligations.GapAndDeadline : Prop :=
  ∀ (s : State) (p : PosId),
    ((s.pos p).whisper.gap = none → exec (.gapEnd p) s = .next s) ∧
    (∀ c, (s.pos p).whisper.gap = some c → c + 1 < (s.pos p).config.whisperGap →
      exec (.gapEnd p) s = .next (s.modWhisper p fun q => { q with gap := some (c + 1) })) ∧
    (∀ c, (s.pos p).whisper.gap = some c → (s.pos p).config.whisperGap ≤ c + 1 → (s.pos p).whisper.entries = [] →
      ∃ t, exec (.gapEnd p) s = .next t ∧ t.pos p = { s.pos p with whisper := { (s.pos p).whisper with gap := none } } ∧
        (∀ q, q ≠ p → t.pos q = s.pos q) ∧ Rederived s t ∧
        t = { s with positions := t.positions, ears := t.ears, sends := t.sends }) ∧
    ((∀ c, (s.pos p).whisper.head ≠ .waiting c) → exec (.whisperDeadlineExpiry p) s = .next s) ∧
    (∀ c, (s.pos p).whisper.head = .waiting c → c + 1 < (s.pos p).config.whisperDeadline →
      exec (.whisperDeadlineExpiry p) s = .next (s.modWhisper p fun q => { q with head := .waiting (c + 1) })) ∧
    ∀ (c : Nat) (w : WhisperEntry), (s.pos p).whisper.head = .waiting c → (s.pos p).config.whisperDeadline ≤ c + 1 →
      (s.pos p).whisper.entries = [w] →
      ∃ t, exec (.whisperDeadlineExpiry p) s = .next t ∧
        (t.pos p).whisper = { (s.pos p).whisper with entries := [], head := .none } ∧
        (∀ x ∈ t.arbiter.queue, x.owner ≠ .whisper p) ∧ (∀ x ∈ t.arbiter.held, x.owner ≠ .whisper p) ∧
        (∀ stop host, w.kind = .prompt stop host → t.legs = s.legs ∧ (∀ q, q ≠ p → t.pos q = s.pos q) ∧
          t.link = (s.report (.whisperSkipped ⟨p, w.clip, host, some .deadline⟩)).link) ∧
        (∀ l, w.kind = .call l → (s.leg l).session = none →
          t.leg l = { s.leg l with
            state := .active, attached := some p, origin := none, last := some p
            ec := { (s.leg l).ec with settle := 25 } } ∧
          (t.pos p).leg = some l ∧ t.link = (s.report (.connectDone l p .skipped)).link)

/-- SUPERVISE: RANGE for a position or a mode that names nothing; a supervising position keeps its agent, changes its mode, and is refused
with BUSY for another agent; otherwise it is accepted when both ports are LIVE, the positions differ, the supervisor has no leg and is not
supervised, and the agent neither supervises nor is supervised, and refused with BUSY if not. A start in BARGE, or a change to or from
BARGE, gives the agent's ACTIVE leg notice. SUPERVISE_END: the record becomes absent, with notice when it ended in BARGE; no change
without one. No report is made (R53, R54, R56, R178 to R180). -/
def Obligations.Supervising : Prop :=
  ∀ (s : State) (q a : PosId) (tag : Byte), Ready s →
    (∀ k m n, (32 ≤ k ∨ 32 ≤ m ∨ 3 ≤ n) →
      exec (.supervise tag (.fields ⟨k, m, n⟩)) s = .next (s.reply ⟨0x42, tag, .range, .none⟩)) ∧
    (∀ (n : Nat) (mode : SuperMode), n = mode.place →
      (∀ r, (s.pos q).supervision = some r → r.agent ≠ a →
        exec (.supervise tag (.fields ⟨q.val, a.val, n⟩)) s = .next (s.reply ⟨0x42, tag, .busy, .none⟩)) ∧
      ((s.pos q).supervision = none →
        ¬ ((s.pos q).port.state = .live ∧ (s.pos a).port.state = .live ∧ q ≠ a ∧ (s.pos q).leg = none
          ∧ s.supervisorOf q = none ∧ (s.pos a).supervision = none ∧ s.supervisorOf a = none) →
        exec (.supervise tag (.fields ⟨q.val, a.val, n⟩)) s = .next (s.reply ⟨0x42, tag, .busy, .none⟩)) ∧
      ((s.pos q).supervision = some ⟨a, mode⟩ →
        exec (.supervise tag (.fields ⟨q.val, a.val, n⟩)) s = .next (s.ok 0x42 tag)) ∧
      (∀ was : Bool, ((s.pos q).supervision = none ∧ was = false ∧ (s.pos q).port.state = .live ∧ (s.pos a).port.state = .live
          ∧ q ≠ a ∧ (s.pos q).leg = none ∧ s.supervisorOf q = none ∧ (s.pos a).supervision = none ∧ s.supervisorOf a = none)
        ∨ (∃ old, (s.pos q).supervision = some ⟨a, old⟩ ∧ old ≠ mode ∧ was = decide (old = .barge)) →
        ∃ t, exec (.supervise tag (.fields ⟨q.val, a.val, n⟩)) s = .next t ∧
          t.pos q = { s.pos q with supervision := some ⟨a, mode⟩ } ∧ (∀ p, p ≠ q → t.pos p = s.pos p) ∧
          (∀ l, t.leg l = if s.activeLeg a = some l ∧ was ≠ decide (mode = .barge)
            then { s.leg l with ec := { (s.leg l).ec with settle := 25 } } else s.leg l) ∧
          Rederived s t ∧ t.link = (s.ok 0x42 tag).link ∧
          t = { s with positions := t.positions, legs := t.legs, ears := t.ears, sends := t.sends, link := t.link })) ∧
    ((s.pos q).supervision = none → exec (.superviseEnd tag (.fields q.val)) s = .next (s.ok 0x43 tag)) ∧
    ∀ r, (s.pos q).supervision = some r →
      ∃ t, exec (.superviseEnd tag (.fields q.val)) s = .next t ∧ t.pos q = { s.pos q with supervision := none } ∧
        (∀ p, p ≠ q → t.pos p = s.pos p) ∧
        (∀ l, t.leg l = if s.activeLeg r.agent = some l ∧ r.mode = .barge
          then { s.leg l with ec := { (s.leg l).ec with settle := 25 } } else s.leg l) ∧
        Rederived s t ∧ t.link = (s.ok 0x43 tag).link ∧
        t = { s with positions := t.positions, legs := t.legs, ears := t.ears, sends := t.sends, link := t.link }

/-! ## The control link (chapter 9) -/

/-- The host's bytes, in and out. Each command that brings bytes takes them one after the other: what a command brings, and what the next
brings, is what one command that brings both would do, so that a frame behind a finished or a discarded one is judged like any other. A byte
in HUNT does nothing unless it is 0xA5, which begins a frame at the present period. In FRAME and CHECK, up to 250 periods from the start,
bytes are collected, 0xA5 like any other; with the last payload byte the receiver is in CHECK; at the last check byte a good request is
buffered with a reply place and a buffer place free, answered OVERLOAD with a reply place alone, and discarded as OVERRUN with neither, and a
frame with a wrong check or of another kind, or at its second length byte a length above 1020, is discarded with its cause; the receiver is
then in HUNT. Out of time, FRAME_TIMEOUT or the next byte discards the frame as TIMEOUT, and the byte is judged in HUNT. At the same time as
many bytes are sent: idle fill, or bytes of the message being sent, which at its last byte leaves its queue (R182, R183, R185, R186, R192).
The model's choices: that FRAME_TIMEOUT with no frame out of time does nothing (log 1); that 250 periods are still in time (log 12); that
bytes come in commands of any number (log 21) of five rows, what the host's fill is in two of them, and that a byte sent takes effect
ahead of the byte taken in (log 36). -/
def Obligations.FrameReception : Prop :=
  (∀ (s t : State) (bytes more : List Byte) (i j k : Instr), Brings s i bytes → exec i s = .next t → Brings t j more →
    Brings s k (bytes ++ more) → exec k s = exec j t) ∧
  (∀ s : State, s.link.receiver = .hunt → exec .frameTimeout s = .next s) ∧
  (∀ (s u : State) (bytes : List Byte) (i : Instr), Brings s i bytes → Sent s u bytes.length → s.link.receiver = .hunt →
    (0xA5 ∉ bytes → exec i s = .next u) ∧
    (∀ ahead rest : List Byte, bytes = ahead ++ 0xA5 :: rest → 0xA5 ∉ ahead → rest.length < 5 →
      exec i s = .next (u.setReceiver (.frame s.highway.period rest)))) ∧
  ∀ (s : State) (start : BitVec 32) (got : List Byte),
    (s.link.receiver = .frame start got ∨ s.link.receiver = .check start got) →
    (250 < (s.highway.period - start).toNat →
      exec .frameTimeout s = .next ((s.linkError .timeout).setReceiver .hunt) ∧
      ∀ (u : State) (b : Byte) (i : Instr), Brings s i [b] → Sent s u 1 → exec i s = .next
        ((u.linkError .timeout).setReceiver (if b = 0xA5 then .frame s.highway.period [] else .hunt))) ∧
    ((s.highway.period - start).toNat ≤ 250 →
      exec .frameTimeout s = .next s ∧
      ∀ (u : State) (bytes : List Byte) (i : Instr) (kind code tag : Byte) (payload : List Byte), Brings s i bytes →
        Sent s u bytes.length → payload.length ≤ 1020 →
        (∀ n, n < 5 + payload.length → got ++ bytes = (frameBody kind code tag payload).take n →
          exec i s = .next (u.setReceiver (.frame start (got ++ bytes)))) ∧
        (got ++ bytes = frameBody kind code tag payload →
          exec i s = .next (u.setReceiver (.check start (got ++ bytes)))) ∧
        (∀ x : Byte, got ++ bytes = frameBody kind code tag payload ++ [x] →
          exec i s = .next (u.setReceiver (.check start (got ++ bytes)))) ∧
        (got ++ bytes = frameBody kind code tag payload ++ wordBytes (crc (frameBody kind code tag payload)).toNat →
          (kind = 0x01 → 8 ≤ u.link.replies.length + u.link.buffer.length →
            exec i s = .next ((u.linkError .overrun).setReceiver .hunt)) ∧
          (kind = 0x01 → u.link.replies.length + u.link.buffer.length < 8 → u.link.buffer.length < 4 →
            exec i s = .next { u with link := { u.link with
              receiver := .hunt, buffer := u.link.buffer ++ [⟨code, tag, payload⟩] } }) ∧
          (kind = 0x01 → u.link.replies.length + u.link.buffer.length < 8 → 4 ≤ u.link.buffer.length →
            exec i s = .next ((u.reply ⟨code, tag, .overload, .none⟩).setReceiver .hunt)) ∧
          (kind ≠ 0x01 → exec i s = .next ((u.linkError .kind).setReceiver .hunt))) ∧
        (∀ x : BitVec 16, x ≠ crc (frameBody kind code tag payload) →
          got ++ bytes = frameBody kind code tag payload ++ wordBytes x.toNat →
          exec i s = .next ((u.linkError .check).setReceiver .hunt)) ∧
        (∀ n, 1020 < n → n < 65536 → got ++ bytes = [kind, code, tag] ++ wordBytes n →
          exec i s = .next ((u.linkError .length).setReceiver .hunt)))

/-- A link error of each of the five causes, as its event makes it, increments the link error count (16 bits, saturating) and makes
LINK_ERROR with the cause and the count after the increment, a report like any other: dropped, and counted as lost, when 32 reports
stand. The count is 0 after hardware reset, kept across soft reset, and returned and cleared by DEVICE_STATUS (R185, R187, R193). That 250
periods are still in time is the model's reading (log 12), and that a byte sent takes effect ahead of the byte taken in its choice (log 36). -/
def Obligations.LinkErrors : Prop :=
  (∀ (s u : State) (start : BitVec 32) (cause : LinkCause) (got bytes : List Byte) (i : Instr),
    (s.link.receiver = .frame start got ∨ s.link.receiver = .check start got) →
    ((cause = .timeout ∧ 250 < (s.highway.period - start).toNat
        ∧ ((i = .frameTimeout ∧ u = s) ∨ ∃ b, Brings s i [b] ∧ Sent s u 1))
      ∨ ((s.highway.period - start).toNat ≤ 250 ∧ Brings s i bytes ∧ Sent s u bytes.length
          ∧ (∀ n, n < bytes.length → judgeFrame (got ++ bytes.take n) = .unfinished)
          ∧ (judgeFrame (got ++ bytes) = .error cause
            ∨ (cause = .overrun ∧ (∃ r, judgeFrame (got ++ bytes) = .request r)
              ∧ 8 ≤ u.link.replies.length + u.link.buffer.length)))) →
    ∃ t : State, exec i s = .next t ∧
      t.link.linkErrors = min 65535 (s.link.linkErrors + 1) ∧
      (u.link.reports.length < 32 →
        t.link.reports = u.link.reports ++ [⟨s.highway.period, .linkError cause (min 65535 (s.link.linkErrors + 1))⟩] ∧
        t.link.lostReports = s.link.lostReports) ∧
      (32 ≤ u.link.reports.length →
        t.link.reports = u.link.reports ∧ t.link.lostReports = min 65535 (s.link.lostReports + 1)) ∧
      t = { s with link := t.link }) ∧
  (∀ s : State, ∃ t, exec .hardwareReset s = .next t ∧ t.link.linkErrors = 0) ∧
  (∀ (s : State) (tag : Byte) (rest : List Reply), s.link.paused = true → s.link.sending = .reply →
    s.link.replies = ⟨0x71, tag, .ok, .none⟩ :: rest → s.link.receiver = .hunt →
    s.link.position < (⟨0x71, tag, .ok, .none⟩ : Reply).frame.length →
    ∃ t, exec .softReset s = .next t ∧ t.link.paused = false ∧ t.link.linkErrors = s.link.linkErrors) ∧
  ∀ (s : State) (tag : Byte), Ready s →
    ∃ f : DeviceStatus, f.linkErrors = s.link.linkErrors ∧ f.lostReports = s.link.lostReports ∧ f.highway = s.highway.state ∧
      f.period = s.highway.period ∧ f.memory = s.memory.mode ∧ f.freeSegments = s.pool.free.length ∧
      f.freeSlabs = s.freeSlabs.length ∧ f.waiting = s.arbiter.queue.length ∧
      exec (.deviceStatus tag (.fields ())) s = .next
        ({ s with link := { s.link with linkErrors := 0, lostReports := 0 } }.reply ⟨0x70, tag, .ok, .deviceStatus f⟩)

/-- Messages go out a byte for each byte that the host clocks, here fill of its own. While no message is sent the byte is idle fill; short
of a message's last byte the next of its bytes goes out; with its last byte the reply or report leaves its queue, and the next message is the
oldest reply, else the oldest report, else fill; a reply that ends a pause is the soft reset's (R182, R190 to R192). The model's choices:
that MESSAGE_SENT with no message being sent, and SOFT_RESET with another than the reply to DEVICE_RESET, do nothing (log 1), and what the
host's fill is in them (log 36). -/
def Obligations.MessagesSent : Prop :=
  (∀ s : State, s.link.sending = .fill → exec .messageSent s = .next s) ∧
  (∀ s : State, (s.link.paused = false ∨ s.link.sending ≠ .reply
      ∨ ∃ r rest, s.link.replies = r :: rest ∧ (r.code ≠ 0x71 ∨ r.status ≠ .ok)) → exec .softReset s = .next s) ∧
  ∀ (s : State) (bytes : List Byte) (i : Instr), Brings s i bytes → s.link.receiver = .hunt → 0xA5 ∉ bytes → 0 < bytes.length →
    (s.link.sending = .fill → exec i s = .next { s with link := { s.link with outByte := 0xFF } }) ∧
    (∀ m : List Byte, ((∃ r rest, s.link.sending = .reply ∧ s.link.replies = r :: rest ∧ m = r.frame)
        ∨ (∃ r rest, s.link.sending = .report ∧ s.link.reports = r :: rest ∧ m = r.frame)) →
      s.link.position + bytes.length < m.length →
      exec i s = .next { s with link := { s.link with
        position := s.link.position + bytes.length, outByte := m.getD (s.link.position + bytes.length - 1) 0 } }) ∧
    (∀ r rest, s.link.sending = .reply → s.link.replies = r :: rest → s.link.position + bytes.length = r.frame.length →
      (s.link.paused = false ∨ r.code ≠ 0x71 ∨ r.status ≠ .ok) →
      exec i s = .next { s with link := { s.link with
        replies := rest, lastSent := r.frame, position := 0, outByte := r.frame.getLastD 0xFF
        sending := if rest ≠ [] then .reply else if s.link.reports ≠ [] then .report else .fill } }) ∧
    (∀ r rest, s.link.sending = .report → s.link.reports = r :: rest → s.link.position + bytes.length = r.frame.length →
      exec i s = .next { s with link := { s.link with
        reports := rest, lastSent := r.frame, position := 0, outByte := r.frame.getLastD 0xFF
        sending := if s.link.replies ≠ [] then .reply else if rest ≠ [] then .report else .fill } })

/-- What the handler refuses before an owner is asked: a payload that does not match its request gives LENGTH, and a code that names no
request UNKNOWN; an identifier beyond its range gives RANGE (R184, R188, R189). -/
def Obligations.RequestsRefusedByTheHandler : Prop :=
  ∀ (s : State) (tag : Byte), Ready s →
    (exec (.portEnable tag .malformed) s = .next (s.reply ⟨0x01, tag, .length, .none⟩) ∧
      exec (.portDisable tag .malformed) s = .next (s.reply ⟨0x02, tag, .length, .none⟩) ∧
      exec (.positionConfig tag .malformed) s = .next (s.reply ⟨0x03, tag, .length, .none⟩) ∧
      exec (.positionMute tag .malformed) s = .next (s.reply ⟨0x04, tag, .length, .none⟩) ∧
      exec (.positionStatus tag .malformed) s = .next (s.reply ⟨0x05, tag, .length, .none⟩) ∧
      exec (.positionStats tag .malformed) s = .next (s.reply ⟨0x06, tag, .length, .none⟩) ∧
      exec (.legOpen tag .malformed) s = .next (s.reply ⟨0x10, tag, .length, .none⟩) ∧
      exec (.legHold tag .malformed) s = .next (s.reply ⟨0x11, tag, .length, .none⟩) ∧
      exec (.legConnect tag .malformed) s = .next (s.reply ⟨0x12, tag, .length, .none⟩) ∧
      exec (.legCancelConnect tag .malformed) s = .next (s.reply ⟨0x13, tag, .length, .none⟩) ∧
      exec (.legClose tag .malformed) s = .next (s.reply ⟨0x14, tag, .length, .none⟩) ∧
      exec (.legStatus tag .malformed) s = .next (s.reply ⟨0x15, tag, .length, .none⟩) ∧
      exec (.ecConfig tag .malformed) s = .next (s.reply ⟨0x16, tag, .length, .none⟩) ∧
      exec (.planSet tag .malformed) s = .next (s.reply ⟨0x20, tag, .length, .none⟩) ∧
      exec (.planDelete tag .malformed) s = .next (s.reply ⟨0x21, tag, .length, .none⟩) ∧
      exec (.planInfo tag .malformed) s = .next (s.reply ⟨0x22, tag, .length, .none⟩) ∧
      exec (.clipCreate tag .malformed) s = .next (s.reply ⟨0x30, tag, .length, .none⟩) ∧
      exec (.clipData tag .malformed) s = .next (s.reply ⟨0x31, tag, .length, .none⟩) ∧
      exec (.clipClose tag .malformed) s = .next (s.reply ⟨0x32, tag, .length, .none⟩) ∧
      exec (.clipDelete tag .malformed) s = .next (s.reply ⟨0x33, tag, .length, .none⟩) ∧
      exec (.clipInfo tag .malformed) s = .next (s.reply ⟨0x34, tag, .length, .none⟩) ∧
      exec (.memoryRelease tag .malformed) s = .next (s.reply ⟨0x38, tag, .length, .none⟩) ∧
      exec (.memoryReclaim tag .malformed) s = .next (s.reply ⟨0x39, tag, .length, .none⟩) ∧
      exec (.whisperPrompt tag .malformed) s = .next (s.reply ⟨0x40, tag, .length, .none⟩) ∧
      exec (.whisperFlush tag .malformed) s = .next (s.reply ⟨0x41, tag, .length, .none⟩) ∧
      exec (.supervise tag .malformed) s = .next (s.reply ⟨0x42, tag, .length, .none⟩) ∧
      exec (.superviseEnd tag .malformed) s = .next (s.reply ⟨0x43, tag, .length, .none⟩) ∧
      exec (.deviceStatus tag .malformed) s = .next (s.reply ⟨0x70, tag, .length, .none⟩) ∧
      exec (.deviceReset tag .malformed) s = .next (s.reply ⟨0x71, tag, .length, .none⟩)) ∧
    (∀ code, code ∉ requestCodes → exec (.unknown tag code) s = .next (s.reply ⟨code, tag, .unknown, .none⟩)) ∧
    (∀ n, 32 ≤ n → exec (.portEnable tag (.fields n)) s = .next (s.reply ⟨0x01, tag, .range, .none⟩) ∧
      exec (.portDisable tag (.fields n)) s = .next (s.reply ⟨0x02, tag, .range, .none⟩) ∧
      exec (.positionStatus tag (.fields n)) s = .next (s.reply ⟨0x05, tag, .range, .none⟩) ∧
      exec (.positionStats tag (.fields n)) s = .next (s.reply ⟨0x06, tag, .range, .none⟩) ∧
      exec (.whisperFlush tag (.fields n)) s = .next (s.reply ⟨0x41, tag, .range, .none⟩) ∧
      exec (.superviseEnd tag (.fields n)) s = .next (s.reply ⟨0x43, tag, .range, .none⟩)) ∧
    (∀ n, 64 ≤ n → exec (.legCancelConnect tag (.fields n)) s = .next (s.reply ⟨0x13, tag, .range, .none⟩) ∧
      exec (.legClose tag (.fields n)) s = .next (s.reply ⟨0x14, tag, .range, .none⟩) ∧
      exec (.legStatus tag (.fields n)) s = .next (s.reply ⟨0x15, tag, .range, .none⟩)) ∧
    (∀ n, 16 ≤ n → exec (.planDelete tag (.fields n)) s = .next (s.reply ⟨0x21, tag, .range, .none⟩)) ∧
    ∀ n, 256 ≤ n → exec (.clipDelete tag (.fields n)) s = .next (s.reply ⟨0x33, tag, .range, .none⟩) ∧
      exec (.clipInfo tag (.fields n)) s = .next (s.reply ⟨0x34, tag, .range, .none⟩)

/-- Every request that the handler takes has one reply, placed behind the replies that stand, with the request's code; and a request
answered otherwise than OK changes nothing but the reply queue. A paused handler takes none, and a request for which no reply place is
free is lost as OVERRUN. A request that waits at the head of the buffer is the one its command takes: it leaves the buffer and is
answered, and the requests behind it stay; a command that is not the head's changes nothing (shown for LEG_STATUS and an unknown code)
(R186, R188, R190; that a request command on an empty buffer is its arrival and its handling is log 4). -/
def Obligations.OneReplyAndRefusalsChangeNothing : Prop :=
  (∀ (i : Instr) (code : Byte) (s : State), i.requestCode = some code → i.wf = true →
    (s.link.paused = true → exec i s = .next s) ∧
    (s.link.paused = false → s.link.buffer = [] → 8 ≤ s.link.replies.length → exec i s = .next (s.linkError .overrun)) ∧
    (Ready s → ∃ (t : State) (r : Reply), exec i s = .next t ∧ t.link.replies = s.link.replies ++ [r] ∧ r.code = code ∧
      (r.status ≠ .ok → t = s.reply r))) ∧
  (∀ (s : State) (l : LegId) (tag : Byte) (r : RequestFrame) (rest : List RequestFrame), s.link.paused = false →
    s.link.buffer = r :: rest →
    (r = ⟨0x15, tag, wordBytes l.val⟩ → ∃ f : Machine.LegStatus, f.state = (s.leg l).state ∧
      exec (.legStatus tag (.fields l.val)) s = .next
        ({ s with link := { s.link with buffer := rest } }.reply ⟨0x15, tag, .ok, .legStatus f⟩)) ∧
    ((r.code ≠ 0x15 ∨ r.tag ≠ tag) → exec (.legStatus tag (.fields l.val)) s = .next s) ∧
    (r.code ∉ requestCodes → exec (.unknown r.tag r.code) s = .next
      ({ s with link := { s.link with buffer := rest } }.reply ⟨r.code, r.tag, .unknown, .none⟩)))

/-- Payloads as R184 lays them out are read as the fields that they carry, least significant byte first, with their presence bytes and
counts; a payload of another length, or with a presence byte above 1, is malformed. Shown for the requests' nine shapes below. -/
def Obligations.PayloadsAreRead : Prop :=
  ∀ a b c : Nat, a < 65536 → b < 65536 → c < 65536 →
    readPayload wordField (wordBytes a) = .fields a ∧
    readPayload muteFields (wordBytes a ++ [1]) = .fields ⟨a, 1⟩ ∧
    readPayload openFields (wordBytes a ++ wordBytes b ++ [0]) = .fields ⟨a, b, .auto⟩ ∧
    readPayload openFields (wordBytes a ++ wordBytes b ++ [1] ++ wordBytes c) = .fields ⟨a, b, .fixed c⟩ ∧
    readPayload holdFields (wordBytes a ++ [0]) = .fields ⟨a, none⟩ ∧
    readPayload holdFields (wordBytes a ++ [1] ++ wordBytes b) = .fields ⟨a, some b⟩ ∧
    readPayload holdFields (wordBytes a ++ [2] ++ wordBytes b) = .malformed ∧
    readPayload holdFields (wordBytes a ++ [0] ++ wordBytes b) = .malformed ∧
    readPayload connectFields (wordBytes a ++ wordBytes b ++ [1] ++ wordBytes c) = .fields ⟨a, b, some c⟩ ∧
    readPayload createFields (wordBytes a ++ longBytes (65536 * b + c) ++ [0]) = .fields ⟨a, 65536 * b + c, none⟩ ∧
    readPayload closeFields (wordBytes a ++ longBytes (65536 * b + c)) = .fields ⟨a, 65536 * b + c⟩ ∧
    readPayload promptFields (wordBytes a ++ wordBytes b ++ [0] ++ wordBytes c) = .fields ⟨a, b, 0, c⟩ ∧
    readPayload superviseFields (wordBytes a ++ wordBytes b ++ [2]) = .fields ⟨a, b, 2⟩ ∧
    (∀ samples : List Sample, samples.length < 65536 →
      readPayload dataFields (wordBytes a ++ longBytes b ++ listBytes (fun x : Sample => wordBytes x.toNat) samples)
        = .fields ⟨a, b, samples⟩) ∧
    ∀ x : Byte, readPayload wordField (wordBytes a ++ [x]) = .malformed ∧ readPayload wordField [x] = .malformed

/-! ## The forms that carry everything, and the laws that every step keeps -/

/-- A request frame built as Table 9-1 and R183 lay it out, its bytes from kind through the check, is judged to be that request, for every
code, tag and payload of up to 1020 bytes; and the check of the nine bytes 31 to 39 is 29B1. -/
def Obligations.FrameRoundTrip : Prop :=
  (∀ (code tag : Byte) (payload : List Byte), payload.length ≤ 1020 →
    judgeFrame (frameBody 0x01 code tag payload ++ wordBytes (crc (frameBody 0x01 code tag payload)).toNat)
      = .request ⟨code, tag, payload⟩) ∧
  crc [0x31, 0x32, 0x33, 0x34, 0x35, 0x36, 0x37, 0x38, 0x39] = 0x29B1

/-- A READY or DAMAGED entry, stored by a directory update and read back by a scan, is the entry that was stored, with no engine on it; an
entry in another state is stored as EMPTY or taken as EMPTY (R132, R136, Table 6-8). -/
def Obligations.EntryRoundTrip : Prop :=
  (∀ c : Clip, (c.state = .ready ∨ c.state = .damaged) → 1 ≤ c.length → c.length ≤ 2097152 →
    (∀ y, c.loopStart = some y → y < c.length) → (c.slabs.length - 1) * 32768 < c.length →
    c.length ≤ c.slabs.length * 32768 → (∀ n ∈ c.slabs, 4 ≤ n ∧ n < 1024) →
    (entryImage c).length = 146 ∧ readEntry (entryImage c) = .good { c with useCount := 0 }) ∧
  ∀ c : Clip, (c.state = .empty ∨ c.state = .writing ∨ c.state = .retiring) → readEntry (entryImage c) = .blank

/-- Every step keeps the sizes of the inbound buffer, the reply places and the report queue; the sizes of the elastic buffers with the
widths of the port counts; and the engine wait queue in the order of its classes (R12, R17, R71, R142, R186, R190, R191). -/
def Obligations.LinkAndPortLawsKept : Prop :=
  (∀ s t : State, LinkLaw s → step s = .next t → LinkLaw t) ∧
  (∀ s t : State, PortLaw s → step s = .next t → PortLaw t) ∧
  (∀ s t : State, WaitLaw s → step s = .next t → WaitLaw t)

/-- Every step keeps the flash image in its canonical form; every feed list within 8 feeds, no two with one key; and the directory's law:
the free slabs and the clips' slabs are the 1020 data slabs, each once, a clip's use count is the number of engines on it, which is above
0 for READY and RETIRING clips alone, and the write context holds the clip that is WRITING (R51, R120 to R122, R126, R135, R136). -/
def Obligations.FlashAndFeedLawsKept : Prop :=
  (∀ s t : State, FlashLaw s → step s = .next t → FlashLaw t) ∧
  (∀ s t : State, FeedLaw s → step s = .next t → FeedLaw t) ∧
  (∀ s t : State, DirectoryLaw s → step s = .next t → DirectoryLaw t)

/-- Every step keeps the tap pool's law: the 512 segments are free or held, each once (R90, R93). -/
def Obligations.PoolLawKept : Prop := ∀ s t : State, PoolLaw s → step s = .next t → PoolLaw t

/-- Every step keeps the law of attachment: legs and positions name one another, and a CALL_WHISPER stands exactly for a CONNECTING leg;
and, with it, the law of supervision, and the law of the whisper queues: at most four entries, and none but the head begun (R35, R41,
R164, R166, R177, R178). -/
def Obligations.AttachAndSuperLawsKept : Prop :=
  (∀ s t : State, AttachLaw s → step s = .next t → AttachLaw t) ∧
  (∀ s t : State, AttachLaw s → SuperLaw s → step s = .next t → SuperLaw t) ∧
  (∀ s t : State, AttachLaw s → WhisperLaw s → step s = .next t → WhisperLaw t)

/-- The part right after hardware reset meets every law that the steps keep. -/
def Obligations.ResetMeetsLaws : Prop :=
  LinkLaw State.reset ∧ PortLaw State.reset ∧ WaitLaw State.reset ∧ FlashLaw State.reset ∧ FeedLaw State.reset
    ∧ DirectoryLaw State.reset ∧ PoolLaw State.reset ∧ AttachLaw State.reset ∧ SuperLaw State.reset ∧ WhisperLaw State.reset
end

