-- ==== Sys2Proof/Laws/State.lean ====
section
/-! SUPPORT. One lemma for each update of State and each field that it leaves alone, and the reading of one record after an update of
its table. -/

namespace Sys2Proof.Machine

/-! ## Tables -/

@[simp] theorem tget_tset_same {α : Type} {n : Nat} (t : Table α n) (i : Fin n) (x : α) : tget (tset t i x) i = x := by
  simp [tget, tset]

@[simp] theorem tget_tset_ne {α : Type} {n : Nat} (t : Table α n) (i j : Fin n) (x : α) (h : i ≠ j) :
    tget (tset t i x) j = tget t j := by
  have h' : i.val ≠ j.val := fun e => h (Fin.ext e)
  simp [tget, tset, Vector.getElem_set_ne, h']

@[simp] theorem tget_tmap {α β : Type} {n : Nat} (f : Fin n → α → β) (t : Table α n) (i : Fin n) :
    tget (tmap f t) i = f i (tget t i) := by
  simp [tget, tmap]

@[simp] theorem tget_replicate {α : Type} {n : Nat} (x : α) (i : Fin n) : tget (Vector.replicate n x) i = x := by
  simp [tget]

/-- Setting a record to what it is changes nothing. -/
@[simp] theorem tset_tget {α : Type} {n : Nat} (t : Table α n) (i : Fin n) : tset t i (tget t i) = t := by
  simp [tget, tset]

@[simp] theorem toId_val {n : Nat} (i : Fin n) : toId n i.val = some i := by simp [toId]

theorem toId_none {n k : Nat} (h : n ≤ k) : toId n k = none := by simp [toId, Nat.not_lt.mpr h]

/-! ## One record after an update -/

@[simp] theorem State.pos_modPos_same (s : State) (i : PosId) (f : Position → Position) : (s.modPos i f).pos i = f (s.pos i) := by
  simp [State.pos, State.modPos]

@[simp] theorem State.pos_modPos_ne (s : State) (i j : PosId) (f : Position → Position) (h : i ≠ j) : (s.modPos i f).pos j = s.pos j := by
  simp [State.pos, State.modPos, h]

/-- A record of a table that stays is the same record. -/
theorem State.pos_congr {s t : State} (h : t.positions = s.positions) (i : PosId) : t.pos i = s.pos i := by simp [State.pos, h]

@[simp] theorem State.leg_modLeg_same (s : State) (i : LegId) (f : Leg → Leg) : (s.modLeg i f).leg i = f (s.leg i) := by
  simp [State.leg, State.modLeg]

@[simp] theorem State.leg_modLeg_ne (s : State) (i j : LegId) (f : Leg → Leg) (h : i ≠ j) : (s.modLeg i f).leg j = s.leg j := by
  simp [State.leg, State.modLeg, h]

/-- A record of a table that stays is the same record. -/
theorem State.leg_congr {s t : State} (h : t.legs = s.legs) (i : LegId) : t.leg i = s.leg i := by simp [State.leg, h]

@[simp] theorem State.eng_modEng_same (s : State) (i : EngId) (f : Engine → Engine) : (s.modEng i f).eng i = f (s.eng i) := by
  simp [State.eng, State.modEng]

@[simp] theorem State.eng_modEng_ne (s : State) (i j : EngId) (f : Engine → Engine) (h : i ≠ j) : (s.modEng i f).eng j = s.eng j := by
  simp [State.eng, State.modEng, h]

/-- A record of a table that stays is the same record. -/
theorem State.eng_congr {s t : State} (h : t.engines = s.engines) (i : EngId) : t.eng i = s.eng i := by simp [State.eng, h]

@[simp] theorem State.clip_modClip_same (s : State) (i : ClipId) (f : Clip → Clip) : (s.modClip i f).clip i = f (s.clip i) := by
  simp [State.clip, State.modClip]

@[simp] theorem State.clip_modClip_ne (s : State) (i j : ClipId) (f : Clip → Clip) (h : i ≠ j) : (s.modClip i f).clip j = s.clip j := by
  simp [State.clip, State.modClip, h]

/-- A record of a table that stays is the same record. -/
theorem State.clip_congr {s t : State} (h : t.clips = s.clips) (i : ClipId) : t.clip i = s.clip i := by simp [State.clip, h]

@[simp] theorem State.plan_modPlan_same (s : State) (i : PlanId) (f : Plan → Plan) : (s.modPlan i f).plan i = f (s.plan i) := by
  simp [State.plan, State.modPlan]

@[simp] theorem State.plan_modPlan_ne (s : State) (i j : PlanId) (f : Plan → Plan) (h : i ≠ j) : (s.modPlan i f).plan j = s.plan j := by
  simp [State.plan, State.modPlan, h]

/-- A record of a table that stays is the same record. -/
theorem State.plan_congr {s t : State} (h : t.plans = s.plans) (i : PlanId) : t.plan i = s.plan i := by simp [State.plan, h]

@[simp] theorem State.pos_modPort_same (s : State) (p : PosId) (f : Port → Port) :
    (s.modPort p f).pos p = { s.pos p with port := f (s.pos p).port } := by simp [State.modPort]

@[simp] theorem State.pos_modPort_ne (s : State) (p q : PosId) (f : Port → Port) (h : p ≠ q) :
    (s.modPort p f).pos q = s.pos q := by simp [State.modPort, h]

@[simp] theorem State.pos_modWhisper_same (s : State) (p : PosId) (f : WhisperQueue → WhisperQueue) :
    (s.modWhisper p f).pos p = { s.pos p with whisper := f (s.pos p).whisper } := by simp [State.modWhisper]

@[simp] theorem State.pos_modWhisper_ne (s : State) (p q : PosId) (f : WhisperQueue → WhisperQueue) (h : p ≠ q) :
    (s.modWhisper p f).pos q = s.pos q := by simp [State.modWhisper, h]

@[simp] theorem State.leg_modEc_same (s : State) (l : LegId) (f : Canceller → Canceller) :
    (s.modEc l f).leg l = { s.leg l with ec := f (s.leg l).ec } := by simp [State.modEc]

@[simp] theorem State.leg_modEc_ne (s : State) (l m : LegId) (f : Canceller → Canceller) (h : l ≠ m) :
    (s.modEc l f).leg m = s.leg m := by simp [State.modEc, h]

/-! ## modPos -/

@[simp] theorem State.modPos_pending (s : State) (p : PosId) (f : Position → Position) : (s.modPos p f).pending = s.pending := rfl
@[simp] theorem State.modPos_highway (s : State) (p : PosId) (f : Position → Position) : (s.modPos p f).highway = s.highway := rfl
@[simp] theorem State.modPos_sources (s : State) (p : PosId) (f : Position → Position) : (s.modPos p f).sources = s.sources := rfl
@[simp] theorem State.modPos_before (s : State) (p : PosId) (f : Position → Position) : (s.modPos p f).before = s.before := rfl
@[simp] theorem State.modPos_legs (s : State) (p : PosId) (f : Position → Position) : (s.modPos p f).legs = s.legs := rfl
@[simp] theorem State.modPos_leg (s : State) (p : PosId) (f : Position → Position) (i : LegId) : (s.modPos p f).leg i = s.leg i := rfl
@[simp] theorem State.modPos_pool (s : State) (p : PosId) (f : Position → Position) : (s.modPos p f).pool = s.pool := rfl
@[simp] theorem State.modPos_ears (s : State) (p : PosId) (f : Position → Position) : (s.modPos p f).ears = s.ears := rfl
@[simp] theorem State.modPos_sends (s : State) (p : PosId) (f : Position → Position) : (s.modPos p f).sends = s.sends := rfl
@[simp] theorem State.modPos_plans (s : State) (p : PosId) (f : Position → Position) : (s.modPos p f).plans = s.plans := rfl
@[simp] theorem State.modPos_plan (s : State) (p : PosId) (f : Position → Position) (i : PlanId) : (s.modPos p f).plan i = s.plan i := rfl
@[simp] theorem State.modPos_clips (s : State) (p : PosId) (f : Position → Position) : (s.modPos p f).clips = s.clips := rfl
@[simp] theorem State.modPos_clip (s : State) (p : PosId) (f : Position → Position) (i : ClipId) : (s.modPos p f).clip i = s.clip i := rfl
@[simp] theorem State.modPos_freeSlabs (s : State) (p : PosId) (f : Position → Position) : (s.modPos p f).freeSlabs = s.freeSlabs := rfl
@[simp] theorem State.modPos_write (s : State) (p : PosId) (f : Position → Position) : (s.modPos p f).write = s.write := rfl
@[simp] theorem State.modPos_memory (s : State) (p : PosId) (f : Position → Position) : (s.modPos p f).memory = s.memory := rfl
@[simp] theorem State.modPos_scan (s : State) (p : PosId) (f : Position → Position) : (s.modPos p f).scan = s.scan := rfl
@[simp] theorem State.modPos_flash (s : State) (p : PosId) (f : Position → Position) : (s.modPos p f).flash = s.flash := rfl
@[simp] theorem State.modPos_unfinishedOps (s : State) (p : PosId) (f : Position → Position) : (s.modPos p f).unfinishedOps = s.unfinishedOps := rfl
@[simp] theorem State.modPos_engines (s : State) (p : PosId) (f : Position → Position) : (s.modPos p f).engines = s.engines := rfl
@[simp] theorem State.modPos_eng (s : State) (p : PosId) (f : Position → Position) (i : EngId) : (s.modPos p f).eng i = s.eng i := rfl
@[simp] theorem State.modPos_arbiter (s : State) (p : PosId) (f : Position → Position) : (s.modPos p f).arbiter = s.arbiter := rfl
@[simp] theorem State.modPos_link (s : State) (p : PosId) (f : Position → Position) : (s.modPos p f).link = s.link := rfl

/-! ## modPort -/

@[simp] theorem State.modPort_pending (s : State) (p : PosId) (f : Port → Port) : (s.modPort p f).pending = s.pending := rfl
@[simp] theorem State.modPort_highway (s : State) (p : PosId) (f : Port → Port) : (s.modPort p f).highway = s.highway := rfl
@[simp] theorem State.modPort_sources (s : State) (p : PosId) (f : Port → Port) : (s.modPort p f).sources = s.sources := rfl
@[simp] theorem State.modPort_before (s : State) (p : PosId) (f : Port → Port) : (s.modPort p f).before = s.before := rfl
@[simp] theorem State.modPort_legs (s : State) (p : PosId) (f : Port → Port) : (s.modPort p f).legs = s.legs := rfl
@[simp] theorem State.modPort_leg (s : State) (p : PosId) (f : Port → Port) (i : LegId) : (s.modPort p f).leg i = s.leg i := rfl
@[simp] theorem State.modPort_pool (s : State) (p : PosId) (f : Port → Port) : (s.modPort p f).pool = s.pool := rfl
@[simp] theorem State.modPort_ears (s : State) (p : PosId) (f : Port → Port) : (s.modPort p f).ears = s.ears := rfl
@[simp] theorem State.modPort_sends (s : State) (p : PosId) (f : Port → Port) : (s.modPort p f).sends = s.sends := rfl
@[simp] theorem State.modPort_plans (s : State) (p : PosId) (f : Port → Port) : (s.modPort p f).plans = s.plans := rfl
@[simp] theorem State.modPort_plan (s : State) (p : PosId) (f : Port → Port) (i : PlanId) : (s.modPort p f).plan i = s.plan i := rfl
@[simp] theorem State.modPort_clips (s : State) (p : PosId) (f : Port → Port) : (s.modPort p f).clips = s.clips := rfl
@[simp] theorem State.modPort_clip (s : State) (p : PosId) (f : Port → Port) (i : ClipId) : (s.modPort p f).clip i = s.clip i := rfl
@[simp] theorem State.modPort_freeSlabs (s : State) (p : PosId) (f : Port → Port) : (s.modPort p f).freeSlabs = s.freeSlabs := rfl
@[simp] theorem State.modPort_write (s : State) (p : PosId) (f : Port → Port) : (s.modPort p f).write = s.write := rfl
@[simp] theorem State.modPort_memory (s : State) (p : PosId) (f : Port → Port) : (s.modPort p f).memory = s.memory := rfl
@[simp] theorem State.modPort_scan (s : State) (p : PosId) (f : Port → Port) : (s.modPort p f).scan = s.scan := rfl
@[simp] theorem State.modPort_flash (s : State) (p : PosId) (f : Port → Port) : (s.modPort p f).flash = s.flash := rfl
@[simp] theorem State.modPort_unfinishedOps (s : State) (p : PosId) (f : Port → Port) : (s.modPort p f).unfinishedOps = s.unfinishedOps := rfl
@[simp] theorem State.modPort_engines (s : State) (p : PosId) (f : Port → Port) : (s.modPort p f).engines = s.engines := rfl
@[simp] theorem State.modPort_eng (s : State) (p : PosId) (f : Port → Port) (i : EngId) : (s.modPort p f).eng i = s.eng i := rfl
@[simp] theorem State.modPort_arbiter (s : State) (p : PosId) (f : Port → Port) : (s.modPort p f).arbiter = s.arbiter := rfl
@[simp] theorem State.modPort_link (s : State) (p : PosId) (f : Port → Port) : (s.modPort p f).link = s.link := rfl

/-! ## modWhisper -/

@[simp] theorem State.modWhisper_pending (s : State) (p : PosId) (f : WhisperQueue → WhisperQueue) : (s.modWhisper p f).pending = s.pending := rfl
@[simp] theorem State.modWhisper_highway (s : State) (p : PosId) (f : WhisperQueue → WhisperQueue) : (s.modWhisper p f).highway = s.highway := rfl
@[simp] theorem State.modWhisper_sources (s : State) (p : PosId) (f : WhisperQueue → WhisperQueue) : (s.modWhisper p f).sources = s.sources := rfl
@[simp] theorem State.modWhisper_before (s : State) (p : PosId) (f : WhisperQueue → WhisperQueue) : (s.modWhisper p f).before = s.before := rfl
@[simp] theorem State.modWhisper_legs (s : State) (p : PosId) (f : WhisperQueue → WhisperQueue) : (s.modWhisper p f).legs = s.legs := rfl
@[simp] theorem State.modWhisper_leg (s : State) (p : PosId) (f : WhisperQueue → WhisperQueue) (i : LegId) : (s.modWhisper p f).leg i = s.leg i := rfl
@[simp] theorem State.modWhisper_pool (s : State) (p : PosId) (f : WhisperQueue → WhisperQueue) : (s.modWhisper p f).pool = s.pool := rfl
@[simp] theorem State.modWhisper_ears (s : State) (p : PosId) (f : WhisperQueue → WhisperQueue) : (s.modWhisper p f).ears = s.ears := rfl
@[simp] theorem State.modWhisper_sends (s : State) (p : PosId) (f : WhisperQueue → WhisperQueue) : (s.modWhisper p f).sends = s.sends := rfl
@[simp] theorem State.modWhisper_plans (s : State) (p : PosId) (f : WhisperQueue → WhisperQueue) : (s.modWhisper p f).plans = s.plans := rfl
@[simp] theorem State.modWhisper_plan (s : State) (p : PosId) (f : WhisperQueue → WhisperQueue) (i : PlanId) : (s.modWhisper p f).plan i = s.plan i := rfl
@[simp] theorem State.modWhisper_clips (s : State) (p : PosId) (f : WhisperQueue → WhisperQueue) : (s.modWhisper p f).clips = s.clips := rfl
@[simp] theorem State.modWhisper_clip (s : State) (p : PosId) (f : WhisperQueue → WhisperQueue) (i : ClipId) : (s.modWhisper p f).clip i = s.clip i := rfl
@[simp] theorem State.modWhisper_freeSlabs (s : State) (p : PosId) (f : WhisperQueue → WhisperQueue) : (s.modWhisper p f).freeSlabs = s.freeSlabs := rfl
@[simp] theorem State.modWhisper_write (s : State) (p : PosId) (f : WhisperQueue → WhisperQueue) : (s.modWhisper p f).write = s.write := rfl
@[simp] theorem State.modWhisper_memory (s : State) (p : PosId) (f : WhisperQueue → WhisperQueue) : (s.modWhisper p f).memory = s.memory := rfl
@[simp] theorem State.modWhisper_scan (s : State) (p : PosId) (f : WhisperQueue → WhisperQueue) : (s.modWhisper p f).scan = s.scan := rfl
@[simp] theorem State.modWhisper_flash (s : State) (p : PosId) (f : WhisperQueue → WhisperQueue) : (s.modWhisper p f).flash = s.flash := rfl
@[simp] theorem State.modWhisper_unfinishedOps (s : State) (p : PosId) (f : WhisperQueue → WhisperQueue) : (s.modWhisper p f).unfinishedOps = s.unfinishedOps := rfl
@[simp] theorem State.modWhisper_engines (s : State) (p : PosId) (f : WhisperQueue → WhisperQueue) : (s.modWhisper p f).engines = s.engines := rfl
@[simp] theorem State.modWhisper_eng (s : State) (p : PosId) (f : WhisperQueue → WhisperQueue) (i : EngId) : (s.modWhisper p f).eng i = s.eng i := rfl
@[simp] theorem State.modWhisper_arbiter (s : State) (p : PosId) (f : WhisperQueue → WhisperQueue) : (s.modWhisper p f).arbiter = s.arbiter := rfl
@[simp] theorem State.modWhisper_link (s : State) (p : PosId) (f : WhisperQueue → WhisperQueue) : (s.modWhisper p f).link = s.link := rfl

/-! ## modLeg -/

@[simp] theorem State.modLeg_pending (s : State) (l : LegId) (f : Leg → Leg) : (s.modLeg l f).pending = s.pending := rfl
@[simp] theorem State.modLeg_positions (s : State) (l : LegId) (f : Leg → Leg) : (s.modLeg l f).positions = s.positions := rfl
@[simp] theorem State.modLeg_pos (s : State) (l : LegId) (f : Leg → Leg) (i : PosId) : (s.modLeg l f).pos i = s.pos i := rfl
@[simp] theorem State.modLeg_highway (s : State) (l : LegId) (f : Leg → Leg) : (s.modLeg l f).highway = s.highway := rfl
@[simp] theorem State.modLeg_sources (s : State) (l : LegId) (f : Leg → Leg) : (s.modLeg l f).sources = s.sources := rfl
@[simp] theorem State.modLeg_before (s : State) (l : LegId) (f : Leg → Leg) : (s.modLeg l f).before = s.before := rfl
@[simp] theorem State.modLeg_pool (s : State) (l : LegId) (f : Leg → Leg) : (s.modLeg l f).pool = s.pool := rfl
@[simp] theorem State.modLeg_ears (s : State) (l : LegId) (f : Leg → Leg) : (s.modLeg l f).ears = s.ears := rfl
@[simp] theorem State.modLeg_sends (s : State) (l : LegId) (f : Leg → Leg) : (s.modLeg l f).sends = s.sends := rfl
@[simp] theorem State.modLeg_plans (s : State) (l : LegId) (f : Leg → Leg) : (s.modLeg l f).plans = s.plans := rfl
@[simp] theorem State.modLeg_plan (s : State) (l : LegId) (f : Leg → Leg) (i : PlanId) : (s.modLeg l f).plan i = s.plan i := rfl
@[simp] theorem State.modLeg_clips (s : State) (l : LegId) (f : Leg → Leg) : (s.modLeg l f).clips = s.clips := rfl
@[simp] theorem State.modLeg_clip (s : State) (l : LegId) (f : Leg → Leg) (i : ClipId) : (s.modLeg l f).clip i = s.clip i := rfl
@[simp] theorem State.modLeg_freeSlabs (s : State) (l : LegId) (f : Leg → Leg) : (s.modLeg l f).freeSlabs = s.freeSlabs := rfl
@[simp] theorem State.modLeg_write (s : State) (l : LegId) (f : Leg → Leg) : (s.modLeg l f).write = s.write := rfl
@[simp] theorem State.modLeg_memory (s : State) (l : LegId) (f : Leg → Leg) : (s.modLeg l f).memory = s.memory := rfl
@[simp] theorem State.modLeg_scan (s : State) (l : LegId) (f : Leg → Leg) : (s.modLeg l f).scan = s.scan := rfl
@[simp] theorem State.modLeg_flash (s : State) (l : LegId) (f : Leg → Leg) : (s.modLeg l f).flash = s.flash := rfl
@[simp] theorem State.modLeg_unfinishedOps (s : State) (l : LegId) (f : Leg → Leg) : (s.modLeg l f).unfinishedOps = s.unfinishedOps := rfl
@[simp] theorem State.modLeg_engines (s : State) (l : LegId) (f : Leg → Leg) : (s.modLeg l f).engines = s.engines := rfl
@[simp] theorem State.modLeg_eng (s : State) (l : LegId) (f : Leg → Leg) (i : EngId) : (s.modLeg l f).eng i = s.eng i := rfl
@[simp] theorem State.modLeg_arbiter (s : State) (l : LegId) (f : Leg → Leg) : (s.modLeg l f).arbiter = s.arbiter := rfl
@[simp] theorem State.modLeg_link (s : State) (l : LegId) (f : Leg → Leg) : (s.modLeg l f).link = s.link := rfl

/-! ## modEc -/

@[simp] theorem State.modEc_pending (s : State) (l : LegId) (f : Canceller → Canceller) : (s.modEc l f).pending = s.pending := rfl
@[simp] theorem State.modEc_positions (s : State) (l : LegId) (f : Canceller → Canceller) : (s.modEc l f).positions = s.positions := rfl
@[simp] theorem State.modEc_pos (s : State) (l : LegId) (f : Canceller → Canceller) (i : PosId) : (s.modEc l f).pos i = s.pos i := rfl
@[simp] theorem State.modEc_highway (s : State) (l : LegId) (f : Canceller → Canceller) : (s.modEc l f).highway = s.highway := rfl
@[simp] theorem State.modEc_sources (s : State) (l : LegId) (f : Canceller → Canceller) : (s.modEc l f).sources = s.sources := rfl
@[simp] theorem State.modEc_before (s : State) (l : LegId) (f : Canceller → Canceller) : (s.modEc l f).before = s.before := rfl
@[simp] theorem State.modEc_pool (s : State) (l : LegId) (f : Canceller → Canceller) : (s.modEc l f).pool = s.pool := rfl
@[simp] theorem State.modEc_ears (s : State) (l : LegId) (f : Canceller → Canceller) : (s.modEc l f).ears = s.ears := rfl
@[simp] theorem State.modEc_sends (s : State) (l : LegId) (f : Canceller → Canceller) : (s.modEc l f).sends = s.sends := rfl
@[simp] theorem State.modEc_plans (s : State) (l : LegId) (f : Canceller → Canceller) : (s.modEc l f).plans = s.plans := rfl
@[simp] theorem State.modEc_plan (s : State) (l : LegId) (f : Canceller → Canceller) (i : PlanId) : (s.modEc l f).plan i = s.plan i := rfl
@[simp] theorem State.modEc_clips (s : State) (l : LegId) (f : Canceller → Canceller) : (s.modEc l f).clips = s.clips := rfl
@[simp] theorem State.modEc_clip (s : State) (l : LegId) (f : Canceller → Canceller) (i : ClipId) : (s.modEc l f).clip i = s.clip i := rfl
@[simp] theorem State.modEc_freeSlabs (s : State) (l : LegId) (f : Canceller → Canceller) : (s.modEc l f).freeSlabs = s.freeSlabs := rfl
@[simp] theorem State.modEc_write (s : State) (l : LegId) (f : Canceller → Canceller) : (s.modEc l f).write = s.write := rfl
@[simp] theorem State.modEc_memory (s : State) (l : LegId) (f : Canceller → Canceller) : (s.modEc l f).memory = s.memory := rfl
@[simp] theorem State.modEc_scan (s : State) (l : LegId) (f : Canceller → Canceller) : (s.modEc l f).scan = s.scan := rfl
@[simp] theorem State.modEc_flash (s : State) (l : LegId) (f : Canceller → Canceller) : (s.modEc l f).flash = s.flash := rfl
@[simp] theorem State.modEc_unfinishedOps (s : State) (l : LegId) (f : Canceller → Canceller) : (s.modEc l f).unfinishedOps = s.unfinishedOps := rfl
@[simp] theorem State.modEc_engines (s : State) (l : LegId) (f : Canceller → Canceller) : (s.modEc l f).engines = s.engines := rfl
@[simp] theorem State.modEc_eng (s : State) (l : LegId) (f : Canceller → Canceller) (i : EngId) : (s.modEc l f).eng i = s.eng i := rfl
@[simp] theorem State.modEc_arbiter (s : State) (l : LegId) (f : Canceller → Canceller) : (s.modEc l f).arbiter = s.arbiter := rfl
@[simp] theorem State.modEc_link (s : State) (l : LegId) (f : Canceller → Canceller) : (s.modEc l f).link = s.link := rfl

/-! ## modEng -/

@[simp] theorem State.modEng_pending (s : State) (e : EngId) (f : Engine → Engine) : (s.modEng e f).pending = s.pending := rfl
@[simp] theorem State.modEng_positions (s : State) (e : EngId) (f : Engine → Engine) : (s.modEng e f).positions = s.positions := rfl
@[simp] theorem State.modEng_pos (s : State) (e : EngId) (f : Engine → Engine) (i : PosId) : (s.modEng e f).pos i = s.pos i := rfl
@[simp] theorem State.modEng_highway (s : State) (e : EngId) (f : Engine → Engine) : (s.modEng e f).highway = s.highway := rfl
@[simp] theorem State.modEng_sources (s : State) (e : EngId) (f : Engine → Engine) : (s.modEng e f).sources = s.sources := rfl
@[simp] theorem State.modEng_before (s : State) (e : EngId) (f : Engine → Engine) : (s.modEng e f).before = s.before := rfl
@[simp] theorem State.modEng_legs (s : State) (e : EngId) (f : Engine → Engine) : (s.modEng e f).legs = s.legs := rfl
@[simp] theorem State.modEng_leg (s : State) (e : EngId) (f : Engine → Engine) (i : LegId) : (s.modEng e f).leg i = s.leg i := rfl
@[simp] theorem State.modEng_pool (s : State) (e : EngId) (f : Engine → Engine) : (s.modEng e f).pool = s.pool := rfl
@[simp] theorem State.modEng_ears (s : State) (e : EngId) (f : Engine → Engine) : (s.modEng e f).ears = s.ears := rfl
@[simp] theorem State.modEng_sends (s : State) (e : EngId) (f : Engine → Engine) : (s.modEng e f).sends = s.sends := rfl
@[simp] theorem State.modEng_plans (s : State) (e : EngId) (f : Engine → Engine) : (s.modEng e f).plans = s.plans := rfl
@[simp] theorem State.modEng_plan (s : State) (e : EngId) (f : Engine → Engine) (i : PlanId) : (s.modEng e f).plan i = s.plan i := rfl
@[simp] theorem State.modEng_clips (s : State) (e : EngId) (f : Engine → Engine) : (s.modEng e f).clips = s.clips := rfl
@[simp] theorem State.modEng_clip (s : State) (e : EngId) (f : Engine → Engine) (i : ClipId) : (s.modEng e f).clip i = s.clip i := rfl
@[simp] theorem State.modEng_freeSlabs (s : State) (e : EngId) (f : Engine → Engine) : (s.modEng e f).freeSlabs = s.freeSlabs := rfl
@[simp] theorem State.modEng_write (s : State) (e : EngId) (f : Engine → Engine) : (s.modEng e f).write = s.write := rfl
@[simp] theorem State.modEng_memory (s : State) (e : EngId) (f : Engine → Engine) : (s.modEng e f).memory = s.memory := rfl
@[simp] theorem State.modEng_scan (s : State) (e : EngId) (f : Engine → Engine) : (s.modEng e f).scan = s.scan := rfl
@[simp] theorem State.modEng_flash (s : State) (e : EngId) (f : Engine → Engine) : (s.modEng e f).flash = s.flash := rfl
@[simp] theorem State.modEng_unfinishedOps (s : State) (e : EngId) (f : Engine → Engine) : (s.modEng e f).unfinishedOps = s.unfinishedOps := rfl
@[simp] theorem State.modEng_arbiter (s : State) (e : EngId) (f : Engine → Engine) : (s.modEng e f).arbiter = s.arbiter := rfl
@[simp] theorem State.modEng_link (s : State) (e : EngId) (f : Engine → Engine) : (s.modEng e f).link = s.link := rfl

/-! ## modClip -/

@[simp] theorem State.modClip_pending (s : State) (c : ClipId) (f : Clip → Clip) : (s.modClip c f).pending = s.pending := rfl
@[simp] theorem State.modClip_positions (s : State) (c : ClipId) (f : Clip → Clip) : (s.modClip c f).positions = s.positions := rfl
@[simp] theorem State.modClip_pos (s : State) (c : ClipId) (f : Clip → Clip) (i : PosId) : (s.modClip c f).pos i = s.pos i := rfl
@[simp] theorem State.modClip_highway (s : State) (c : ClipId) (f : Clip → Clip) : (s.modClip c f).highway = s.highway := rfl
@[simp] theorem State.modClip_sources (s : State) (c : ClipId) (f : Clip → Clip) : (s.modClip c f).sources = s.sources := rfl
@[simp] theorem State.modClip_before (s : State) (c : ClipId) (f : Clip → Clip) : (s.modClip c f).before = s.before := rfl
@[simp] theorem State.modClip_legs (s : State) (c : ClipId) (f : Clip → Clip) : (s.modClip c f).legs = s.legs := rfl
@[simp] theorem State.modClip_leg (s : State) (c : ClipId) (f : Clip → Clip) (i : LegId) : (s.modClip c f).leg i = s.leg i := rfl
@[simp] theorem State.modClip_pool (s : State) (c : ClipId) (f : Clip → Clip) : (s.modClip c f).pool = s.pool := rfl
@[simp] theorem State.modClip_ears (s : State) (c : ClipId) (f : Clip → Clip) : (s.modClip c f).ears = s.ears := rfl
@[simp] theorem State.modClip_sends (s : State) (c : ClipId) (f : Clip → Clip) : (s.modClip c f).sends = s.sends := rfl
@[simp] theorem State.modClip_plans (s : State) (c : ClipId) (f : Clip → Clip) : (s.modClip c f).plans = s.plans := rfl
@[simp] theorem State.modClip_plan (s : State) (c : ClipId) (f : Clip → Clip) (i : PlanId) : (s.modClip c f).plan i = s.plan i := rfl
@[simp] theorem State.modClip_freeSlabs (s : State) (c : ClipId) (f : Clip → Clip) : (s.modClip c f).freeSlabs = s.freeSlabs := rfl
@[simp] theorem State.modClip_write (s : State) (c : ClipId) (f : Clip → Clip) : (s.modClip c f).write = s.write := rfl
@[simp] theorem State.modClip_memory (s : State) (c : ClipId) (f : Clip → Clip) : (s.modClip c f).memory = s.memory := rfl
@[simp] theorem State.modClip_scan (s : State) (c : ClipId) (f : Clip → Clip) : (s.modClip c f).scan = s.scan := rfl
@[simp] theorem State.modClip_flash (s : State) (c : ClipId) (f : Clip → Clip) : (s.modClip c f).flash = s.flash := rfl
@[simp] theorem State.modClip_unfinishedOps (s : State) (c : ClipId) (f : Clip → Clip) : (s.modClip c f).unfinishedOps = s.unfinishedOps := rfl
@[simp] theorem State.modClip_engines (s : State) (c : ClipId) (f : Clip → Clip) : (s.modClip c f).engines = s.engines := rfl
@[simp] theorem State.modClip_eng (s : State) (c : ClipId) (f : Clip → Clip) (i : EngId) : (s.modClip c f).eng i = s.eng i := rfl
@[simp] theorem State.modClip_arbiter (s : State) (c : ClipId) (f : Clip → Clip) : (s.modClip c f).arbiter = s.arbiter := rfl
@[simp] theorem State.modClip_link (s : State) (c : ClipId) (f : Clip → Clip) : (s.modClip c f).link = s.link := rfl

/-! ## modPlan -/

@[simp] theorem State.modPlan_pending (s : State) (h : PlanId) (f : Plan → Plan) : (s.modPlan h f).pending = s.pending := rfl
@[simp] theorem State.modPlan_positions (s : State) (h : PlanId) (f : Plan → Plan) : (s.modPlan h f).positions = s.positions := rfl
@[simp] theorem State.modPlan_pos (s : State) (h : PlanId) (f : Plan → Plan) (i : PosId) : (s.modPlan h f).pos i = s.pos i := rfl
@[simp] theorem State.modPlan_highway (s : State) (h : PlanId) (f : Plan → Plan) : (s.modPlan h f).highway = s.highway := rfl
@[simp] theorem State.modPlan_sources (s : State) (h : PlanId) (f : Plan → Plan) : (s.modPlan h f).sources = s.sources := rfl
@[simp] theorem State.modPlan_before (s : State) (h : PlanId) (f : Plan → Plan) : (s.modPlan h f).before = s.before := rfl
@[simp] theorem State.modPlan_legs (s : State) (h : PlanId) (f : Plan → Plan) : (s.modPlan h f).legs = s.legs := rfl
@[simp] theorem State.modPlan_leg (s : State) (h : PlanId) (f : Plan → Plan) (i : LegId) : (s.modPlan h f).leg i = s.leg i := rfl
@[simp] theorem State.modPlan_pool (s : State) (h : PlanId) (f : Plan → Plan) : (s.modPlan h f).pool = s.pool := rfl
@[simp] theorem State.modPlan_ears (s : State) (h : PlanId) (f : Plan → Plan) : (s.modPlan h f).ears = s.ears := rfl
@[simp] theorem State.modPlan_sends (s : State) (h : PlanId) (f : Plan → Plan) : (s.modPlan h f).sends = s.sends := rfl
@[simp] theorem State.modPlan_clips (s : State) (h : PlanId) (f : Plan → Plan) : (s.modPlan h f).clips = s.clips := rfl
@[simp] theorem State.modPlan_clip (s : State) (h : PlanId) (f : Plan → Plan) (i : ClipId) : (s.modPlan h f).clip i = s.clip i := rfl
@[simp] theorem State.modPlan_freeSlabs (s : State) (h : PlanId) (f : Plan → Plan) : (s.modPlan h f).freeSlabs = s.freeSlabs := rfl
@[simp] theorem State.modPlan_write (s : State) (h : PlanId) (f : Plan → Plan) : (s.modPlan h f).write = s.write := rfl
@[simp] theorem State.modPlan_memory (s : State) (h : PlanId) (f : Plan → Plan) : (s.modPlan h f).memory = s.memory := rfl
@[simp] theorem State.modPlan_scan (s : State) (h : PlanId) (f : Plan → Plan) : (s.modPlan h f).scan = s.scan := rfl
@[simp] theorem State.modPlan_flash (s : State) (h : PlanId) (f : Plan → Plan) : (s.modPlan h f).flash = s.flash := rfl
@[simp] theorem State.modPlan_unfinishedOps (s : State) (h : PlanId) (f : Plan → Plan) : (s.modPlan h f).unfinishedOps = s.unfinishedOps := rfl
@[simp] theorem State.modPlan_engines (s : State) (h : PlanId) (f : Plan → Plan) : (s.modPlan h f).engines = s.engines := rfl
@[simp] theorem State.modPlan_eng (s : State) (h : PlanId) (f : Plan → Plan) (i : EngId) : (s.modPlan h f).eng i = s.eng i := rfl
@[simp] theorem State.modPlan_arbiter (s : State) (h : PlanId) (f : Plan → Plan) : (s.modPlan h f).arbiter = s.arbiter := rfl
@[simp] theorem State.modPlan_link (s : State) (h : PlanId) (f : Plan → Plan) : (s.modPlan h f).link = s.link := rfl

/-! ## report -/

@[simp] theorem State.report_pending (s : State) (b : ReportBody) : (s.report b).pending = s.pending := rfl
@[simp] theorem State.report_positions (s : State) (b : ReportBody) : (s.report b).positions = s.positions := rfl
@[simp] theorem State.report_pos (s : State) (b : ReportBody) (i : PosId) : (s.report b).pos i = s.pos i := rfl
@[simp] theorem State.report_highway (s : State) (b : ReportBody) : (s.report b).highway = s.highway := rfl
@[simp] theorem State.report_sources (s : State) (b : ReportBody) : (s.report b).sources = s.sources := rfl
@[simp] theorem State.report_before (s : State) (b : ReportBody) : (s.report b).before = s.before := rfl
@[simp] theorem State.report_legs (s : State) (b : ReportBody) : (s.report b).legs = s.legs := rfl
@[simp] theorem State.report_leg (s : State) (b : ReportBody) (i : LegId) : (s.report b).leg i = s.leg i := rfl
@[simp] theorem State.report_pool (s : State) (b : ReportBody) : (s.report b).pool = s.pool := rfl
@[simp] theorem State.report_ears (s : State) (b : ReportBody) : (s.report b).ears = s.ears := rfl
@[simp] theorem State.report_sends (s : State) (b : ReportBody) : (s.report b).sends = s.sends := rfl
@[simp] theorem State.report_plans (s : State) (b : ReportBody) : (s.report b).plans = s.plans := rfl
@[simp] theorem State.report_plan (s : State) (b : ReportBody) (i : PlanId) : (s.report b).plan i = s.plan i := rfl
@[simp] theorem State.report_clips (s : State) (b : ReportBody) : (s.report b).clips = s.clips := rfl
@[simp] theorem State.report_clip (s : State) (b : ReportBody) (i : ClipId) : (s.report b).clip i = s.clip i := rfl
@[simp] theorem State.report_freeSlabs (s : State) (b : ReportBody) : (s.report b).freeSlabs = s.freeSlabs := rfl
@[simp] theorem State.report_write (s : State) (b : ReportBody) : (s.report b).write = s.write := rfl
@[simp] theorem State.report_memory (s : State) (b : ReportBody) : (s.report b).memory = s.memory := rfl
@[simp] theorem State.report_scan (s : State) (b : ReportBody) : (s.report b).scan = s.scan := rfl
@[simp] theorem State.report_flash (s : State) (b : ReportBody) : (s.report b).flash = s.flash := rfl
@[simp] theorem State.report_unfinishedOps (s : State) (b : ReportBody) : (s.report b).unfinishedOps = s.unfinishedOps := rfl
@[simp] theorem State.report_engines (s : State) (b : ReportBody) : (s.report b).engines = s.engines := rfl
@[simp] theorem State.report_eng (s : State) (b : ReportBody) (i : EngId) : (s.report b).eng i = s.eng i := rfl
@[simp] theorem State.report_arbiter (s : State) (b : ReportBody) : (s.report b).arbiter = s.arbiter := rfl

/-! ## linkError -/

@[simp] theorem State.linkError_pending (s : State) (c : LinkCause) : (s.linkError c).pending = s.pending := rfl
@[simp] theorem State.linkError_positions (s : State) (c : LinkCause) : (s.linkError c).positions = s.positions := rfl
@[simp] theorem State.linkError_pos (s : State) (c : LinkCause) (i : PosId) : (s.linkError c).pos i = s.pos i := rfl
@[simp] theorem State.linkError_highway (s : State) (c : LinkCause) : (s.linkError c).highway = s.highway := rfl
@[simp] theorem State.linkError_sources (s : State) (c : LinkCause) : (s.linkError c).sources = s.sources := rfl
@[simp] theorem State.linkError_before (s : State) (c : LinkCause) : (s.linkError c).before = s.before := rfl
@[simp] theorem State.linkError_legs (s : State) (c : LinkCause) : (s.linkError c).legs = s.legs := rfl
@[simp] theorem State.linkError_leg (s : State) (c : LinkCause) (i : LegId) : (s.linkError c).leg i = s.leg i := rfl
@[simp] theorem State.linkError_pool (s : State) (c : LinkCause) : (s.linkError c).pool = s.pool := rfl
@[simp] theorem State.linkError_ears (s : State) (c : LinkCause) : (s.linkError c).ears = s.ears := rfl
@[simp] theorem State.linkError_sends (s : State) (c : LinkCause) : (s.linkError c).sends = s.sends := rfl
@[simp] theorem State.linkError_plans (s : State) (c : LinkCause) : (s.linkError c).plans = s.plans := rfl
@[simp] theorem State.linkError_plan (s : State) (c : LinkCause) (i : PlanId) : (s.linkError c).plan i = s.plan i := rfl
@[simp] theorem State.linkError_clips (s : State) (c : LinkCause) : (s.linkError c).clips = s.clips := rfl
@[simp] theorem State.linkError_clip (s : State) (c : LinkCause) (i : ClipId) : (s.linkError c).clip i = s.clip i := rfl
@[simp] theorem State.linkError_freeSlabs (s : State) (c : LinkCause) : (s.linkError c).freeSlabs = s.freeSlabs := rfl
@[simp] theorem State.linkError_write (s : State) (c : LinkCause) : (s.linkError c).write = s.write := rfl
@[simp] theorem State.linkError_memory (s : State) (c : LinkCause) : (s.linkError c).memory = s.memory := rfl
@[simp] theorem State.linkError_scan (s : State) (c : LinkCause) : (s.linkError c).scan = s.scan := rfl
@[simp] theorem State.linkError_flash (s : State) (c : LinkCause) : (s.linkError c).flash = s.flash := rfl
@[simp] theorem State.linkError_unfinishedOps (s : State) (c : LinkCause) : (s.linkError c).unfinishedOps = s.unfinishedOps := rfl
@[simp] theorem State.linkError_engines (s : State) (c : LinkCause) : (s.linkError c).engines = s.engines := rfl
@[simp] theorem State.linkError_eng (s : State) (c : LinkCause) (i : EngId) : (s.linkError c).eng i = s.eng i := rfl
@[simp] theorem State.linkError_arbiter (s : State) (c : LinkCause) : (s.linkError c).arbiter = s.arbiter := rfl

/-! ## reply -/

@[simp] theorem State.reply_pending (s : State) (r : Reply) : (s.reply r).pending = s.pending := rfl
@[simp] theorem State.reply_positions (s : State) (r : Reply) : (s.reply r).positions = s.positions := rfl
@[simp] theorem State.reply_pos (s : State) (r : Reply) (i : PosId) : (s.reply r).pos i = s.pos i := rfl
@[simp] theorem State.reply_highway (s : State) (r : Reply) : (s.reply r).highway = s.highway := rfl
@[simp] theorem State.reply_sources (s : State) (r : Reply) : (s.reply r).sources = s.sources := rfl
@[simp] theorem State.reply_before (s : State) (r : Reply) : (s.reply r).before = s.before := rfl
@[simp] theorem State.reply_legs (s : State) (r : Reply) : (s.reply r).legs = s.legs := rfl
@[simp] theorem State.reply_leg (s : State) (r : Reply) (i : LegId) : (s.reply r).leg i = s.leg i := rfl
@[simp] theorem State.reply_pool (s : State) (r : Reply) : (s.reply r).pool = s.pool := rfl
@[simp] theorem State.reply_ears (s : State) (r : Reply) : (s.reply r).ears = s.ears := rfl
@[simp] theorem State.reply_sends (s : State) (r : Reply) : (s.reply r).sends = s.sends := rfl
@[simp] theorem State.reply_plans (s : State) (r : Reply) : (s.reply r).plans = s.plans := rfl
@[simp] theorem State.reply_plan (s : State) (r : Reply) (i : PlanId) : (s.reply r).plan i = s.plan i := rfl
@[simp] theorem State.reply_clips (s : State) (r : Reply) : (s.reply r).clips = s.clips := rfl
@[simp] theorem State.reply_clip (s : State) (r : Reply) (i : ClipId) : (s.reply r).clip i = s.clip i := rfl
@[simp] theorem State.reply_freeSlabs (s : State) (r : Reply) : (s.reply r).freeSlabs = s.freeSlabs := rfl
@[simp] theorem State.reply_write (s : State) (r : Reply) : (s.reply r).write = s.write := rfl
@[simp] theorem State.reply_memory (s : State) (r : Reply) : (s.reply r).memory = s.memory := rfl
@[simp] theorem State.reply_scan (s : State) (r : Reply) : (s.reply r).scan = s.scan := rfl
@[simp] theorem State.reply_flash (s : State) (r : Reply) : (s.reply r).flash = s.flash := rfl
@[simp] theorem State.reply_unfinishedOps (s : State) (r : Reply) : (s.reply r).unfinishedOps = s.unfinishedOps := rfl
@[simp] theorem State.reply_engines (s : State) (r : Reply) : (s.reply r).engines = s.engines := rfl
@[simp] theorem State.reply_eng (s : State) (r : Reply) (i : EngId) : (s.reply r).eng i = s.eng i := rfl
@[simp] theorem State.reply_arbiter (s : State) (r : Reply) : (s.reply r).arbiter = s.arbiter := rfl

/-! ## takeBuffered -/

@[simp] theorem State.takeBuffered_pending (s : State) : (s.takeBuffered).pending = s.pending := rfl
@[simp] theorem State.takeBuffered_positions (s : State) : (s.takeBuffered).positions = s.positions := rfl
@[simp] theorem State.takeBuffered_pos (s : State) (i : PosId) : (s.takeBuffered).pos i = s.pos i := rfl
@[simp] theorem State.takeBuffered_highway (s : State) : (s.takeBuffered).highway = s.highway := rfl
@[simp] theorem State.takeBuffered_sources (s : State) : (s.takeBuffered).sources = s.sources := rfl
@[simp] theorem State.takeBuffered_before (s : State) : (s.takeBuffered).before = s.before := rfl
@[simp] theorem State.takeBuffered_legs (s : State) : (s.takeBuffered).legs = s.legs := rfl
@[simp] theorem State.takeBuffered_leg (s : State) (i : LegId) : (s.takeBuffered).leg i = s.leg i := rfl
@[simp] theorem State.takeBuffered_pool (s : State) : (s.takeBuffered).pool = s.pool := rfl
@[simp] theorem State.takeBuffered_ears (s : State) : (s.takeBuffered).ears = s.ears := rfl
@[simp] theorem State.takeBuffered_sends (s : State) : (s.takeBuffered).sends = s.sends := rfl
@[simp] theorem State.takeBuffered_plans (s : State) : (s.takeBuffered).plans = s.plans := rfl
@[simp] theorem State.takeBuffered_plan (s : State) (i : PlanId) : (s.takeBuffered).plan i = s.plan i := rfl
@[simp] theorem State.takeBuffered_clips (s : State) : (s.takeBuffered).clips = s.clips := rfl
@[simp] theorem State.takeBuffered_clip (s : State) (i : ClipId) : (s.takeBuffered).clip i = s.clip i := rfl
@[simp] theorem State.takeBuffered_freeSlabs (s : State) : (s.takeBuffered).freeSlabs = s.freeSlabs := rfl
@[simp] theorem State.takeBuffered_write (s : State) : (s.takeBuffered).write = s.write := rfl
@[simp] theorem State.takeBuffered_memory (s : State) : (s.takeBuffered).memory = s.memory := rfl
@[simp] theorem State.takeBuffered_scan (s : State) : (s.takeBuffered).scan = s.scan := rfl
@[simp] theorem State.takeBuffered_flash (s : State) : (s.takeBuffered).flash = s.flash := rfl
@[simp] theorem State.takeBuffered_unfinishedOps (s : State) : (s.takeBuffered).unfinishedOps = s.unfinishedOps := rfl
@[simp] theorem State.takeBuffered_engines (s : State) : (s.takeBuffered).engines = s.engines := rfl
@[simp] theorem State.takeBuffered_eng (s : State) (i : EngId) : (s.takeBuffered).eng i = s.eng i := rfl
@[simp] theorem State.takeBuffered_arbiter (s : State) : (s.takeBuffered).arbiter = s.arbiter := rfl

/-! ## setReceiver -/

@[simp] theorem State.setReceiver_pending (s : State) (r : Receiver) : (s.setReceiver r).pending = s.pending := rfl
@[simp] theorem State.setReceiver_positions (s : State) (r : Receiver) : (s.setReceiver r).positions = s.positions := rfl
@[simp] theorem State.setReceiver_pos (s : State) (r : Receiver) (i : PosId) : (s.setReceiver r).pos i = s.pos i := rfl
@[simp] theorem State.setReceiver_highway (s : State) (r : Receiver) : (s.setReceiver r).highway = s.highway := rfl
@[simp] theorem State.setReceiver_sources (s : State) (r : Receiver) : (s.setReceiver r).sources = s.sources := rfl
@[simp] theorem State.setReceiver_before (s : State) (r : Receiver) : (s.setReceiver r).before = s.before := rfl
@[simp] theorem State.setReceiver_legs (s : State) (r : Receiver) : (s.setReceiver r).legs = s.legs := rfl
@[simp] theorem State.setReceiver_leg (s : State) (r : Receiver) (i : LegId) : (s.setReceiver r).leg i = s.leg i := rfl
@[simp] theorem State.setReceiver_pool (s : State) (r : Receiver) : (s.setReceiver r).pool = s.pool := rfl
@[simp] theorem State.setReceiver_ears (s : State) (r : Receiver) : (s.setReceiver r).ears = s.ears := rfl
@[simp] theorem State.setReceiver_sends (s : State) (r : Receiver) : (s.setReceiver r).sends = s.sends := rfl
@[simp] theorem State.setReceiver_plans (s : State) (r : Receiver) : (s.setReceiver r).plans = s.plans := rfl
@[simp] theorem State.setReceiver_plan (s : State) (r : Receiver) (i : PlanId) : (s.setReceiver r).plan i = s.plan i := rfl
@[simp] theorem State.setReceiver_clips (s : State) (r : Receiver) : (s.setReceiver r).clips = s.clips := rfl
@[simp] theorem State.setReceiver_clip (s : State) (r : Receiver) (i : ClipId) : (s.setReceiver r).clip i = s.clip i := rfl
@[simp] theorem State.setReceiver_freeSlabs (s : State) (r : Receiver) : (s.setReceiver r).freeSlabs = s.freeSlabs := rfl
@[simp] theorem State.setReceiver_write (s : State) (r : Receiver) : (s.setReceiver r).write = s.write := rfl
@[simp] theorem State.setReceiver_memory (s : State) (r : Receiver) : (s.setReceiver r).memory = s.memory := rfl
@[simp] theorem State.setReceiver_scan (s : State) (r : Receiver) : (s.setReceiver r).scan = s.scan := rfl
@[simp] theorem State.setReceiver_flash (s : State) (r : Receiver) : (s.setReceiver r).flash = s.flash := rfl
@[simp] theorem State.setReceiver_unfinishedOps (s : State) (r : Receiver) : (s.setReceiver r).unfinishedOps = s.unfinishedOps := rfl
@[simp] theorem State.setReceiver_engines (s : State) (r : Receiver) : (s.setReceiver r).engines = s.engines := rfl
@[simp] theorem State.setReceiver_eng (s : State) (r : Receiver) (i : EngId) : (s.setReceiver r).eng i = s.eng i := rfl
@[simp] theorem State.setReceiver_arbiter (s : State) (r : Receiver) : (s.setReceiver r).arbiter = s.arbiter := rfl

/-! ## notice -/

@[simp] theorem State.notice_pending (s : State) (l : LegId) : (s.notice l).pending = s.pending := rfl
@[simp] theorem State.notice_positions (s : State) (l : LegId) : (s.notice l).positions = s.positions := rfl
@[simp] theorem State.notice_pos (s : State) (l : LegId) (i : PosId) : (s.notice l).pos i = s.pos i := rfl
@[simp] theorem State.notice_highway (s : State) (l : LegId) : (s.notice l).highway = s.highway := rfl
@[simp] theorem State.notice_sources (s : State) (l : LegId) : (s.notice l).sources = s.sources := rfl
@[simp] theorem State.notice_before (s : State) (l : LegId) : (s.notice l).before = s.before := rfl
@[simp] theorem State.notice_pool (s : State) (l : LegId) : (s.notice l).pool = s.pool := rfl
@[simp] theorem State.notice_ears (s : State) (l : LegId) : (s.notice l).ears = s.ears := rfl
@[simp] theorem State.notice_sends (s : State) (l : LegId) : (s.notice l).sends = s.sends := rfl
@[simp] theorem State.notice_plans (s : State) (l : LegId) : (s.notice l).plans = s.plans := rfl
@[simp] theorem State.notice_plan (s : State) (l : LegId) (i : PlanId) : (s.notice l).plan i = s.plan i := rfl
@[simp] theorem State.notice_clips (s : State) (l : LegId) : (s.notice l).clips = s.clips := rfl
@[simp] theorem State.notice_clip (s : State) (l : LegId) (i : ClipId) : (s.notice l).clip i = s.clip i := rfl
@[simp] theorem State.notice_freeSlabs (s : State) (l : LegId) : (s.notice l).freeSlabs = s.freeSlabs := rfl
@[simp] theorem State.notice_write (s : State) (l : LegId) : (s.notice l).write = s.write := rfl
@[simp] theorem State.notice_memory (s : State) (l : LegId) : (s.notice l).memory = s.memory := rfl
@[simp] theorem State.notice_scan (s : State) (l : LegId) : (s.notice l).scan = s.scan := rfl
@[simp] theorem State.notice_flash (s : State) (l : LegId) : (s.notice l).flash = s.flash := rfl
@[simp] theorem State.notice_unfinishedOps (s : State) (l : LegId) : (s.notice l).unfinishedOps = s.unfinishedOps := rfl
@[simp] theorem State.notice_engines (s : State) (l : LegId) : (s.notice l).engines = s.engines := rfl
@[simp] theorem State.notice_eng (s : State) (l : LegId) (i : EngId) : (s.notice l).eng i = s.eng i := rfl
@[simp] theorem State.notice_arbiter (s : State) (l : LegId) : (s.notice l).arbiter = s.arbiter := rfl
@[simp] theorem State.notice_link (s : State) (l : LegId) : (s.notice l).link = s.link := rfl

/-! ## withdraw -/

@[simp] theorem State.withdraw_pending (s : State) (o : Owner) : (s.withdraw o).pending = s.pending := rfl
@[simp] theorem State.withdraw_positions (s : State) (o : Owner) : (s.withdraw o).positions = s.positions := rfl
@[simp] theorem State.withdraw_pos (s : State) (o : Owner) (i : PosId) : (s.withdraw o).pos i = s.pos i := rfl
@[simp] theorem State.withdraw_highway (s : State) (o : Owner) : (s.withdraw o).highway = s.highway := rfl
@[simp] theorem State.withdraw_sources (s : State) (o : Owner) : (s.withdraw o).sources = s.sources := rfl
@[simp] theorem State.withdraw_before (s : State) (o : Owner) : (s.withdraw o).before = s.before := rfl
@[simp] theorem State.withdraw_legs (s : State) (o : Owner) : (s.withdraw o).legs = s.legs := rfl
@[simp] theorem State.withdraw_leg (s : State) (o : Owner) (i : LegId) : (s.withdraw o).leg i = s.leg i := rfl
@[simp] theorem State.withdraw_pool (s : State) (o : Owner) : (s.withdraw o).pool = s.pool := rfl
@[simp] theorem State.withdraw_ears (s : State) (o : Owner) : (s.withdraw o).ears = s.ears := rfl
@[simp] theorem State.withdraw_sends (s : State) (o : Owner) : (s.withdraw o).sends = s.sends := rfl
@[simp] theorem State.withdraw_plans (s : State) (o : Owner) : (s.withdraw o).plans = s.plans := rfl
@[simp] theorem State.withdraw_plan (s : State) (o : Owner) (i : PlanId) : (s.withdraw o).plan i = s.plan i := rfl
@[simp] theorem State.withdraw_clips (s : State) (o : Owner) : (s.withdraw o).clips = s.clips := rfl
@[simp] theorem State.withdraw_clip (s : State) (o : Owner) (i : ClipId) : (s.withdraw o).clip i = s.clip i := rfl
@[simp] theorem State.withdraw_freeSlabs (s : State) (o : Owner) : (s.withdraw o).freeSlabs = s.freeSlabs := rfl
@[simp] theorem State.withdraw_write (s : State) (o : Owner) : (s.withdraw o).write = s.write := rfl
@[simp] theorem State.withdraw_memory (s : State) (o : Owner) : (s.withdraw o).memory = s.memory := rfl
@[simp] theorem State.withdraw_scan (s : State) (o : Owner) : (s.withdraw o).scan = s.scan := rfl
@[simp] theorem State.withdraw_flash (s : State) (o : Owner) : (s.withdraw o).flash = s.flash := rfl
@[simp] theorem State.withdraw_unfinishedOps (s : State) (o : Owner) : (s.withdraw o).unfinishedOps = s.unfinishedOps := rfl
@[simp] theorem State.withdraw_engines (s : State) (o : Owner) : (s.withdraw o).engines = s.engines := rfl
@[simp] theorem State.withdraw_eng (s : State) (o : Owner) (i : EngId) : (s.withdraw o).eng i = s.eng i := rfl
@[simp] theorem State.withdraw_link (s : State) (o : Owner) : (s.withdraw o).link = s.link := rfl

/-! ## withdrawFetch -/

@[simp] theorem State.withdrawFetch_pending (s : State) (e : EngId) : (s.withdrawFetch e).pending = s.pending := rfl
@[simp] theorem State.withdrawFetch_positions (s : State) (e : EngId) : (s.withdrawFetch e).positions = s.positions := rfl
@[simp] theorem State.withdrawFetch_pos (s : State) (e : EngId) (i : PosId) : (s.withdrawFetch e).pos i = s.pos i := rfl
@[simp] theorem State.withdrawFetch_highway (s : State) (e : EngId) : (s.withdrawFetch e).highway = s.highway := rfl
@[simp] theorem State.withdrawFetch_sources (s : State) (e : EngId) : (s.withdrawFetch e).sources = s.sources := rfl
@[simp] theorem State.withdrawFetch_before (s : State) (e : EngId) : (s.withdrawFetch e).before = s.before := rfl
@[simp] theorem State.withdrawFetch_legs (s : State) (e : EngId) : (s.withdrawFetch e).legs = s.legs := rfl
@[simp] theorem State.withdrawFetch_leg (s : State) (e : EngId) (i : LegId) : (s.withdrawFetch e).leg i = s.leg i := rfl
@[simp] theorem State.withdrawFetch_pool (s : State) (e : EngId) : (s.withdrawFetch e).pool = s.pool := rfl
@[simp] theorem State.withdrawFetch_ears (s : State) (e : EngId) : (s.withdrawFetch e).ears = s.ears := rfl
@[simp] theorem State.withdrawFetch_sends (s : State) (e : EngId) : (s.withdrawFetch e).sends = s.sends := rfl
@[simp] theorem State.withdrawFetch_plans (s : State) (e : EngId) : (s.withdrawFetch e).plans = s.plans := rfl
@[simp] theorem State.withdrawFetch_plan (s : State) (e : EngId) (i : PlanId) : (s.withdrawFetch e).plan i = s.plan i := rfl
@[simp] theorem State.withdrawFetch_clips (s : State) (e : EngId) : (s.withdrawFetch e).clips = s.clips := rfl
@[simp] theorem State.withdrawFetch_clip (s : State) (e : EngId) (i : ClipId) : (s.withdrawFetch e).clip i = s.clip i := rfl
@[simp] theorem State.withdrawFetch_freeSlabs (s : State) (e : EngId) : (s.withdrawFetch e).freeSlabs = s.freeSlabs := rfl
@[simp] theorem State.withdrawFetch_write (s : State) (e : EngId) : (s.withdrawFetch e).write = s.write := rfl
@[simp] theorem State.withdrawFetch_scan (s : State) (e : EngId) : (s.withdrawFetch e).scan = s.scan := rfl
@[simp] theorem State.withdrawFetch_flash (s : State) (e : EngId) : (s.withdrawFetch e).flash = s.flash := rfl
@[simp] theorem State.withdrawFetch_unfinishedOps (s : State) (e : EngId) : (s.withdrawFetch e).unfinishedOps = s.unfinishedOps := rfl
@[simp] theorem State.withdrawFetch_engines (s : State) (e : EngId) : (s.withdrawFetch e).engines = s.engines := rfl
@[simp] theorem State.withdrawFetch_eng (s : State) (e : EngId) (i : EngId) : (s.withdrawFetch e).eng i = s.eng i := rfl
@[simp] theorem State.withdrawFetch_arbiter (s : State) (e : EngId) : (s.withdrawFetch e).arbiter = s.arbiter := rfl
@[simp] theorem State.withdrawFetch_link (s : State) (e : EngId) : (s.withdrawFetch e).link = s.link := rfl

/-! ## dropEngineFeeds -/

@[simp] theorem State.dropEngineFeeds_pending (s : State) (e : EngId) : (s.dropEngineFeeds e).pending = s.pending := rfl
@[simp] theorem State.dropEngineFeeds_positions (s : State) (e : EngId) : (s.dropEngineFeeds e).positions = s.positions := rfl
@[simp] theorem State.dropEngineFeeds_pos (s : State) (e : EngId) (i : PosId) : (s.dropEngineFeeds e).pos i = s.pos i := rfl
@[simp] theorem State.dropEngineFeeds_highway (s : State) (e : EngId) : (s.dropEngineFeeds e).highway = s.highway := rfl
@[simp] theorem State.dropEngineFeeds_sources (s : State) (e : EngId) : (s.dropEngineFeeds e).sources = s.sources := rfl
@[simp] theorem State.dropEngineFeeds_before (s : State) (e : EngId) : (s.dropEngineFeeds e).before = s.before := rfl
@[simp] theorem State.dropEngineFeeds_legs (s : State) (e : EngId) : (s.dropEngineFeeds e).legs = s.legs := rfl
@[simp] theorem State.dropEngineFeeds_leg (s : State) (e : EngId) (i : LegId) : (s.dropEngineFeeds e).leg i = s.leg i := rfl
@[simp] theorem State.dropEngineFeeds_pool (s : State) (e : EngId) : (s.dropEngineFeeds e).pool = s.pool := rfl
@[simp] theorem State.dropEngineFeeds_plans (s : State) (e : EngId) : (s.dropEngineFeeds e).plans = s.plans := rfl
@[simp] theorem State.dropEngineFeeds_plan (s : State) (e : EngId) (i : PlanId) : (s.dropEngineFeeds e).plan i = s.plan i := rfl
@[simp] theorem State.dropEngineFeeds_clips (s : State) (e : EngId) : (s.dropEngineFeeds e).clips = s.clips := rfl
@[simp] theorem State.dropEngineFeeds_clip (s : State) (e : EngId) (i : ClipId) : (s.dropEngineFeeds e).clip i = s.clip i := rfl
@[simp] theorem State.dropEngineFeeds_freeSlabs (s : State) (e : EngId) : (s.dropEngineFeeds e).freeSlabs = s.freeSlabs := rfl
@[simp] theorem State.dropEngineFeeds_write (s : State) (e : EngId) : (s.dropEngineFeeds e).write = s.write := rfl
@[simp] theorem State.dropEngineFeeds_memory (s : State) (e : EngId) : (s.dropEngineFeeds e).memory = s.memory := rfl
@[simp] theorem State.dropEngineFeeds_scan (s : State) (e : EngId) : (s.dropEngineFeeds e).scan = s.scan := rfl
@[simp] theorem State.dropEngineFeeds_flash (s : State) (e : EngId) : (s.dropEngineFeeds e).flash = s.flash := rfl
@[simp] theorem State.dropEngineFeeds_unfinishedOps (s : State) (e : EngId) : (s.dropEngineFeeds e).unfinishedOps = s.unfinishedOps := rfl
@[simp] theorem State.dropEngineFeeds_engines (s : State) (e : EngId) : (s.dropEngineFeeds e).engines = s.engines := rfl
@[simp] theorem State.dropEngineFeeds_eng (s : State) (e : EngId) (i : EngId) : (s.dropEngineFeeds e).eng i = s.eng i := rfl
@[simp] theorem State.dropEngineFeeds_arbiter (s : State) (e : EngId) : (s.dropEngineFeeds e).arbiter = s.arbiter := rfl
@[simp] theorem State.dropEngineFeeds_link (s : State) (e : EngId) : (s.dropEngineFeeds e).link = s.link := rfl

/-! ## dropLegFeeds -/

@[simp] theorem State.dropLegFeeds_pending (s : State) (l : LegId) : (s.dropLegFeeds l).pending = s.pending := rfl
@[simp] theorem State.dropLegFeeds_positions (s : State) (l : LegId) : (s.dropLegFeeds l).positions = s.positions := rfl
@[simp] theorem State.dropLegFeeds_pos (s : State) (l : LegId) (i : PosId) : (s.dropLegFeeds l).pos i = s.pos i := rfl
@[simp] theorem State.dropLegFeeds_highway (s : State) (l : LegId) : (s.dropLegFeeds l).highway = s.highway := rfl
@[simp] theorem State.dropLegFeeds_sources (s : State) (l : LegId) : (s.dropLegFeeds l).sources = s.sources := rfl
@[simp] theorem State.dropLegFeeds_before (s : State) (l : LegId) : (s.dropLegFeeds l).before = s.before := rfl
@[simp] theorem State.dropLegFeeds_legs (s : State) (l : LegId) : (s.dropLegFeeds l).legs = s.legs := rfl
@[simp] theorem State.dropLegFeeds_leg (s : State) (l : LegId) (i : LegId) : (s.dropLegFeeds l).leg i = s.leg i := rfl
@[simp] theorem State.dropLegFeeds_pool (s : State) (l : LegId) : (s.dropLegFeeds l).pool = s.pool := rfl
@[simp] theorem State.dropLegFeeds_plans (s : State) (l : LegId) : (s.dropLegFeeds l).plans = s.plans := rfl
@[simp] theorem State.dropLegFeeds_plan (s : State) (l : LegId) (i : PlanId) : (s.dropLegFeeds l).plan i = s.plan i := rfl
@[simp] theorem State.dropLegFeeds_clips (s : State) (l : LegId) : (s.dropLegFeeds l).clips = s.clips := rfl
@[simp] theorem State.dropLegFeeds_clip (s : State) (l : LegId) (i : ClipId) : (s.dropLegFeeds l).clip i = s.clip i := rfl
@[simp] theorem State.dropLegFeeds_freeSlabs (s : State) (l : LegId) : (s.dropLegFeeds l).freeSlabs = s.freeSlabs := rfl
@[simp] theorem State.dropLegFeeds_write (s : State) (l : LegId) : (s.dropLegFeeds l).write = s.write := rfl
@[simp] theorem State.dropLegFeeds_memory (s : State) (l : LegId) : (s.dropLegFeeds l).memory = s.memory := rfl
@[simp] theorem State.dropLegFeeds_scan (s : State) (l : LegId) : (s.dropLegFeeds l).scan = s.scan := rfl
@[simp] theorem State.dropLegFeeds_flash (s : State) (l : LegId) : (s.dropLegFeeds l).flash = s.flash := rfl
@[simp] theorem State.dropLegFeeds_unfinishedOps (s : State) (l : LegId) : (s.dropLegFeeds l).unfinishedOps = s.unfinishedOps := rfl
@[simp] theorem State.dropLegFeeds_engines (s : State) (l : LegId) : (s.dropLegFeeds l).engines = s.engines := rfl
@[simp] theorem State.dropLegFeeds_eng (s : State) (l : LegId) (i : EngId) : (s.dropLegFeeds l).eng i = s.eng i := rfl
@[simp] theorem State.dropLegFeeds_arbiter (s : State) (l : LegId) : (s.dropLegFeeds l).arbiter = s.arbiter := rfl
@[simp] theorem State.dropLegFeeds_link (s : State) (l : LegId) : (s.dropLegFeeds l).link = s.link := rfl

/-! ## dropShortfall -/

@[simp] theorem State.dropShortfall_pending (s : State) (l : LegId) : (s.dropShortfall l).pending = s.pending := rfl
@[simp] theorem State.dropShortfall_positions (s : State) (l : LegId) : (s.dropShortfall l).positions = s.positions := rfl
@[simp] theorem State.dropShortfall_pos (s : State) (l : LegId) (i : PosId) : (s.dropShortfall l).pos i = s.pos i := rfl
@[simp] theorem State.dropShortfall_highway (s : State) (l : LegId) : (s.dropShortfall l).highway = s.highway := rfl
@[simp] theorem State.dropShortfall_sources (s : State) (l : LegId) : (s.dropShortfall l).sources = s.sources := rfl
@[simp] theorem State.dropShortfall_before (s : State) (l : LegId) : (s.dropShortfall l).before = s.before := rfl
@[simp] theorem State.dropShortfall_legs (s : State) (l : LegId) : (s.dropShortfall l).legs = s.legs := rfl
@[simp] theorem State.dropShortfall_leg (s : State) (l : LegId) (i : LegId) : (s.dropShortfall l).leg i = s.leg i := rfl
@[simp] theorem State.dropShortfall_ears (s : State) (l : LegId) : (s.dropShortfall l).ears = s.ears := rfl
@[simp] theorem State.dropShortfall_sends (s : State) (l : LegId) : (s.dropShortfall l).sends = s.sends := rfl
@[simp] theorem State.dropShortfall_plans (s : State) (l : LegId) : (s.dropShortfall l).plans = s.plans := rfl
@[simp] theorem State.dropShortfall_plan (s : State) (l : LegId) (i : PlanId) : (s.dropShortfall l).plan i = s.plan i := rfl
@[simp] theorem State.dropShortfall_clips (s : State) (l : LegId) : (s.dropShortfall l).clips = s.clips := rfl
@[simp] theorem State.dropShortfall_clip (s : State) (l : LegId) (i : ClipId) : (s.dropShortfall l).clip i = s.clip i := rfl
@[simp] theorem State.dropShortfall_freeSlabs (s : State) (l : LegId) : (s.dropShortfall l).freeSlabs = s.freeSlabs := rfl
@[simp] theorem State.dropShortfall_write (s : State) (l : LegId) : (s.dropShortfall l).write = s.write := rfl
@[simp] theorem State.dropShortfall_memory (s : State) (l : LegId) : (s.dropShortfall l).memory = s.memory := rfl
@[simp] theorem State.dropShortfall_scan (s : State) (l : LegId) : (s.dropShortfall l).scan = s.scan := rfl
@[simp] theorem State.dropShortfall_flash (s : State) (l : LegId) : (s.dropShortfall l).flash = s.flash := rfl
@[simp] theorem State.dropShortfall_unfinishedOps (s : State) (l : LegId) : (s.dropShortfall l).unfinishedOps = s.unfinishedOps := rfl
@[simp] theorem State.dropShortfall_engines (s : State) (l : LegId) : (s.dropShortfall l).engines = s.engines := rfl
@[simp] theorem State.dropShortfall_eng (s : State) (l : LegId) (i : EngId) : (s.dropShortfall l).eng i = s.eng i := rfl
@[simp] theorem State.dropShortfall_arbiter (s : State) (l : LegId) : (s.dropShortfall l).arbiter = s.arbiter := rfl
@[simp] theorem State.dropShortfall_link (s : State) (l : LegId) : (s.dropShortfall l).link = s.link := rfl

/-! ## setShortfall -/

@[simp] theorem State.setShortfall_pending (s : State) (l : LegId) (n : Nat) : (s.setShortfall l n).pending = s.pending := rfl
@[simp] theorem State.setShortfall_positions (s : State) (l : LegId) (n : Nat) : (s.setShortfall l n).positions = s.positions := rfl
@[simp] theorem State.setShortfall_pos (s : State) (l : LegId) (n : Nat) (i : PosId) : (s.setShortfall l n).pos i = s.pos i := rfl
@[simp] theorem State.setShortfall_highway (s : State) (l : LegId) (n : Nat) : (s.setShortfall l n).highway = s.highway := rfl
@[simp] theorem State.setShortfall_sources (s : State) (l : LegId) (n : Nat) : (s.setShortfall l n).sources = s.sources := rfl
@[simp] theorem State.setShortfall_before (s : State) (l : LegId) (n : Nat) : (s.setShortfall l n).before = s.before := rfl
@[simp] theorem State.setShortfall_legs (s : State) (l : LegId) (n : Nat) : (s.setShortfall l n).legs = s.legs := rfl
@[simp] theorem State.setShortfall_leg (s : State) (l : LegId) (n : Nat) (i : LegId) : (s.setShortfall l n).leg i = s.leg i := rfl
@[simp] theorem State.setShortfall_ears (s : State) (l : LegId) (n : Nat) : (s.setShortfall l n).ears = s.ears := rfl
@[simp] theorem State.setShortfall_sends (s : State) (l : LegId) (n : Nat) : (s.setShortfall l n).sends = s.sends := rfl
@[simp] theorem State.setShortfall_plans (s : State) (l : LegId) (n : Nat) : (s.setShortfall l n).plans = s.plans := rfl
@[simp] theorem State.setShortfall_plan (s : State) (l : LegId) (n : Nat) (i : PlanId) : (s.setShortfall l n).plan i = s.plan i := rfl
@[simp] theorem State.setShortfall_clips (s : State) (l : LegId) (n : Nat) : (s.setShortfall l n).clips = s.clips := rfl
@[simp] theorem State.setShortfall_clip (s : State) (l : LegId) (n : Nat) (i : ClipId) : (s.setShortfall l n).clip i = s.clip i := rfl
@[simp] theorem State.setShortfall_freeSlabs (s : State) (l : LegId) (n : Nat) : (s.setShortfall l n).freeSlabs = s.freeSlabs := rfl
@[simp] theorem State.setShortfall_write (s : State) (l : LegId) (n : Nat) : (s.setShortfall l n).write = s.write := rfl
@[simp] theorem State.setShortfall_memory (s : State) (l : LegId) (n : Nat) : (s.setShortfall l n).memory = s.memory := rfl
@[simp] theorem State.setShortfall_scan (s : State) (l : LegId) (n : Nat) : (s.setShortfall l n).scan = s.scan := rfl
@[simp] theorem State.setShortfall_flash (s : State) (l : LegId) (n : Nat) : (s.setShortfall l n).flash = s.flash := rfl
@[simp] theorem State.setShortfall_unfinishedOps (s : State) (l : LegId) (n : Nat) : (s.setShortfall l n).unfinishedOps = s.unfinishedOps := rfl
@[simp] theorem State.setShortfall_engines (s : State) (l : LegId) (n : Nat) : (s.setShortfall l n).engines = s.engines := rfl
@[simp] theorem State.setShortfall_eng (s : State) (l : LegId) (n : Nat) (i : EngId) : (s.setShortfall l n).eng i = s.eng i := rfl
@[simp] theorem State.setShortfall_arbiter (s : State) (l : LegId) (n : Nat) : (s.setShortfall l n).arbiter = s.arbiter := rfl
@[simp] theorem State.setShortfall_link (s : State) (l : LegId) (n : Nat) : (s.setShortfall l n).link = s.link := rfl

/-! ## endOp -/

@[simp] theorem State.endOp_pending (s : State) : (s.endOp).pending = s.pending := rfl
@[simp] theorem State.endOp_positions (s : State) : (s.endOp).positions = s.positions := rfl
@[simp] theorem State.endOp_pos (s : State) (i : PosId) : (s.endOp).pos i = s.pos i := rfl
@[simp] theorem State.endOp_highway (s : State) : (s.endOp).highway = s.highway := rfl
@[simp] theorem State.endOp_sources (s : State) : (s.endOp).sources = s.sources := rfl
@[simp] theorem State.endOp_before (s : State) : (s.endOp).before = s.before := rfl
@[simp] theorem State.endOp_legs (s : State) : (s.endOp).legs = s.legs := rfl
@[simp] theorem State.endOp_leg (s : State) (i : LegId) : (s.endOp).leg i = s.leg i := rfl
@[simp] theorem State.endOp_pool (s : State) : (s.endOp).pool = s.pool := rfl
@[simp] theorem State.endOp_ears (s : State) : (s.endOp).ears = s.ears := rfl
@[simp] theorem State.endOp_sends (s : State) : (s.endOp).sends = s.sends := rfl
@[simp] theorem State.endOp_plans (s : State) : (s.endOp).plans = s.plans := rfl
@[simp] theorem State.endOp_plan (s : State) (i : PlanId) : (s.endOp).plan i = s.plan i := rfl
@[simp] theorem State.endOp_clips (s : State) : (s.endOp).clips = s.clips := rfl
@[simp] theorem State.endOp_clip (s : State) (i : ClipId) : (s.endOp).clip i = s.clip i := rfl
@[simp] theorem State.endOp_freeSlabs (s : State) : (s.endOp).freeSlabs = s.freeSlabs := rfl
@[simp] theorem State.endOp_write (s : State) : (s.endOp).write = s.write := rfl
@[simp] theorem State.endOp_scan (s : State) : (s.endOp).scan = s.scan := rfl
@[simp] theorem State.endOp_flash (s : State) : (s.endOp).flash = s.flash := rfl
@[simp] theorem State.endOp_unfinishedOps (s : State) : (s.endOp).unfinishedOps = s.unfinishedOps := rfl
@[simp] theorem State.endOp_engines (s : State) : (s.endOp).engines = s.engines := rfl
@[simp] theorem State.endOp_eng (s : State) (i : EngId) : (s.endOp).eng i = s.eng i := rfl
@[simp] theorem State.endOp_arbiter (s : State) : (s.endOp).arbiter = s.arbiter := rfl
@[simp] theorem State.endOp_link (s : State) : (s.endOp).link = s.link := rfl

/-! ## putMic -/

@[simp] theorem State.putMic_pending (s : State) (p : PosId) (b : Block) : (s.putMic p b).pending = s.pending := rfl
@[simp] theorem State.putMic_positions (s : State) (p : PosId) (b : Block) : (s.putMic p b).positions = s.positions := rfl
@[simp] theorem State.putMic_pos (s : State) (p : PosId) (b : Block) (i : PosId) : (s.putMic p b).pos i = s.pos i := rfl
@[simp] theorem State.putMic_highway (s : State) (p : PosId) (b : Block) : (s.putMic p b).highway = s.highway := rfl
@[simp] theorem State.putMic_before (s : State) (p : PosId) (b : Block) : (s.putMic p b).before = s.before := rfl
@[simp] theorem State.putMic_legs (s : State) (p : PosId) (b : Block) : (s.putMic p b).legs = s.legs := rfl
@[simp] theorem State.putMic_leg (s : State) (p : PosId) (b : Block) (i : LegId) : (s.putMic p b).leg i = s.leg i := rfl
@[simp] theorem State.putMic_pool (s : State) (p : PosId) (b : Block) : (s.putMic p b).pool = s.pool := rfl
@[simp] theorem State.putMic_ears (s : State) (p : PosId) (b : Block) : (s.putMic p b).ears = s.ears := rfl
@[simp] theorem State.putMic_sends (s : State) (p : PosId) (b : Block) : (s.putMic p b).sends = s.sends := rfl
@[simp] theorem State.putMic_plans (s : State) (p : PosId) (b : Block) : (s.putMic p b).plans = s.plans := rfl
@[simp] theorem State.putMic_plan (s : State) (p : PosId) (b : Block) (i : PlanId) : (s.putMic p b).plan i = s.plan i := rfl
@[simp] theorem State.putMic_clips (s : State) (p : PosId) (b : Block) : (s.putMic p b).clips = s.clips := rfl
@[simp] theorem State.putMic_clip (s : State) (p : PosId) (b : Block) (i : ClipId) : (s.putMic p b).clip i = s.clip i := rfl
@[simp] theorem State.putMic_freeSlabs (s : State) (p : PosId) (b : Block) : (s.putMic p b).freeSlabs = s.freeSlabs := rfl
@[simp] theorem State.putMic_write (s : State) (p : PosId) (b : Block) : (s.putMic p b).write = s.write := rfl
@[simp] theorem State.putMic_memory (s : State) (p : PosId) (b : Block) : (s.putMic p b).memory = s.memory := rfl
@[simp] theorem State.putMic_scan (s : State) (p : PosId) (b : Block) : (s.putMic p b).scan = s.scan := rfl
@[simp] theorem State.putMic_flash (s : State) (p : PosId) (b : Block) : (s.putMic p b).flash = s.flash := rfl
@[simp] theorem State.putMic_unfinishedOps (s : State) (p : PosId) (b : Block) : (s.putMic p b).unfinishedOps = s.unfinishedOps := rfl
@[simp] theorem State.putMic_engines (s : State) (p : PosId) (b : Block) : (s.putMic p b).engines = s.engines := rfl
@[simp] theorem State.putMic_eng (s : State) (p : PosId) (b : Block) (i : EngId) : (s.putMic p b).eng i = s.eng i := rfl
@[simp] theorem State.putMic_arbiter (s : State) (p : PosId) (b : Block) : (s.putMic p b).arbiter = s.arbiter := rfl
@[simp] theorem State.putMic_link (s : State) (p : PosId) (b : Block) : (s.putMic p b).link = s.link := rfl

/-! ## putEngine -/

@[simp] theorem State.putEngine_pending (s : State) (e : EngId) (b : Block) : (s.putEngine e b).pending = s.pending := rfl
@[simp] theorem State.putEngine_positions (s : State) (e : EngId) (b : Block) : (s.putEngine e b).positions = s.positions := rfl
@[simp] theorem State.putEngine_pos (s : State) (e : EngId) (b : Block) (i : PosId) : (s.putEngine e b).pos i = s.pos i := rfl
@[simp] theorem State.putEngine_highway (s : State) (e : EngId) (b : Block) : (s.putEngine e b).highway = s.highway := rfl
@[simp] theorem State.putEngine_before (s : State) (e : EngId) (b : Block) : (s.putEngine e b).before = s.before := rfl
@[simp] theorem State.putEngine_legs (s : State) (e : EngId) (b : Block) : (s.putEngine e b).legs = s.legs := rfl
@[simp] theorem State.putEngine_leg (s : State) (e : EngId) (b : Block) (i : LegId) : (s.putEngine e b).leg i = s.leg i := rfl
@[simp] theorem State.putEngine_pool (s : State) (e : EngId) (b : Block) : (s.putEngine e b).pool = s.pool := rfl
@[simp] theorem State.putEngine_ears (s : State) (e : EngId) (b : Block) : (s.putEngine e b).ears = s.ears := rfl
@[simp] theorem State.putEngine_sends (s : State) (e : EngId) (b : Block) : (s.putEngine e b).sends = s.sends := rfl
@[simp] theorem State.putEngine_plans (s : State) (e : EngId) (b : Block) : (s.putEngine e b).plans = s.plans := rfl
@[simp] theorem State.putEngine_plan (s : State) (e : EngId) (b : Block) (i : PlanId) : (s.putEngine e b).plan i = s.plan i := rfl
@[simp] theorem State.putEngine_clips (s : State) (e : EngId) (b : Block) : (s.putEngine e b).clips = s.clips := rfl
@[simp] theorem State.putEngine_clip (s : State) (e : EngId) (b : Block) (i : ClipId) : (s.putEngine e b).clip i = s.clip i := rfl
@[simp] theorem State.putEngine_freeSlabs (s : State) (e : EngId) (b : Block) : (s.putEngine e b).freeSlabs = s.freeSlabs := rfl
@[simp] theorem State.putEngine_write (s : State) (e : EngId) (b : Block) : (s.putEngine e b).write = s.write := rfl
@[simp] theorem State.putEngine_memory (s : State) (e : EngId) (b : Block) : (s.putEngine e b).memory = s.memory := rfl
@[simp] theorem State.putEngine_scan (s : State) (e : EngId) (b : Block) : (s.putEngine e b).scan = s.scan := rfl
@[simp] theorem State.putEngine_flash (s : State) (e : EngId) (b : Block) : (s.putEngine e b).flash = s.flash := rfl
@[simp] theorem State.putEngine_unfinishedOps (s : State) (e : EngId) (b : Block) : (s.putEngine e b).unfinishedOps = s.unfinishedOps := rfl
@[simp] theorem State.putEngine_engines (s : State) (e : EngId) (b : Block) : (s.putEngine e b).engines = s.engines := rfl
@[simp] theorem State.putEngine_eng (s : State) (e : EngId) (b : Block) (i : EngId) : (s.putEngine e b).eng i = s.eng i := rfl
@[simp] theorem State.putEngine_arbiter (s : State) (e : EngId) (b : Block) : (s.putEngine e b).arbiter = s.arbiter := rfl
@[simp] theorem State.putEngine_link (s : State) (e : EngId) (b : Block) : (s.putEngine e b).link = s.link := rfl

/-! ## noticeMusic -/

@[simp] theorem State.noticeMusic_pending (s : State) (b : State) : (s.noticeMusic b).pending = s.pending := rfl
@[simp] theorem State.noticeMusic_positions (s : State) (b : State) : (s.noticeMusic b).positions = s.positions := rfl
@[simp] theorem State.noticeMusic_pos (s : State) (b : State) (i : PosId) : (s.noticeMusic b).pos i = s.pos i := rfl
@[simp] theorem State.noticeMusic_highway (s : State) (b : State) : (s.noticeMusic b).highway = s.highway := rfl
@[simp] theorem State.noticeMusic_sources (s : State) (b : State) : (s.noticeMusic b).sources = s.sources := rfl
@[simp] theorem State.noticeMusic_before (s : State) (b : State) : (s.noticeMusic b).before = s.before := rfl
@[simp] theorem State.noticeMusic_pool (s : State) (b : State) : (s.noticeMusic b).pool = s.pool := rfl
@[simp] theorem State.noticeMusic_ears (s : State) (b : State) : (s.noticeMusic b).ears = s.ears := rfl
@[simp] theorem State.noticeMusic_sends (s : State) (b : State) : (s.noticeMusic b).sends = s.sends := rfl
@[simp] theorem State.noticeMusic_plans (s : State) (b : State) : (s.noticeMusic b).plans = s.plans := rfl
@[simp] theorem State.noticeMusic_plan (s : State) (b : State) (i : PlanId) : (s.noticeMusic b).plan i = s.plan i := rfl
@[simp] theorem State.noticeMusic_clips (s : State) (b : State) : (s.noticeMusic b).clips = s.clips := rfl
@[simp] theorem State.noticeMusic_clip (s : State) (b : State) (i : ClipId) : (s.noticeMusic b).clip i = s.clip i := rfl
@[simp] theorem State.noticeMusic_freeSlabs (s : State) (b : State) : (s.noticeMusic b).freeSlabs = s.freeSlabs := rfl
@[simp] theorem State.noticeMusic_write (s : State) (b : State) : (s.noticeMusic b).write = s.write := rfl
@[simp] theorem State.noticeMusic_memory (s : State) (b : State) : (s.noticeMusic b).memory = s.memory := rfl
@[simp] theorem State.noticeMusic_scan (s : State) (b : State) : (s.noticeMusic b).scan = s.scan := rfl
@[simp] theorem State.noticeMusic_flash (s : State) (b : State) : (s.noticeMusic b).flash = s.flash := rfl
@[simp] theorem State.noticeMusic_unfinishedOps (s : State) (b : State) : (s.noticeMusic b).unfinishedOps = s.unfinishedOps := rfl
@[simp] theorem State.noticeMusic_engines (s : State) (b : State) : (s.noticeMusic b).engines = s.engines := rfl
@[simp] theorem State.noticeMusic_eng (s : State) (b : State) (i : EngId) : (s.noticeMusic b).eng i = s.eng i := rfl
@[simp] theorem State.noticeMusic_arbiter (s : State) (b : State) : (s.noticeMusic b).arbiter = s.arbiter := rfl
@[simp] theorem State.noticeMusic_link (s : State) (b : State) : (s.noticeMusic b).link = s.link := rfl

/-! ## rederiveAll -/

@[simp] theorem State.rederiveAll_pending (s : State) : (s.rederiveAll).pending = s.pending := rfl
@[simp] theorem State.rederiveAll_positions (s : State) : (s.rederiveAll).positions = s.positions := rfl
@[simp] theorem State.rederiveAll_pos (s : State) (i : PosId) : (s.rederiveAll).pos i = s.pos i := rfl
@[simp] theorem State.rederiveAll_highway (s : State) : (s.rederiveAll).highway = s.highway := rfl
@[simp] theorem State.rederiveAll_sources (s : State) : (s.rederiveAll).sources = s.sources := rfl
@[simp] theorem State.rederiveAll_before (s : State) : (s.rederiveAll).before = s.before := rfl
@[simp] theorem State.rederiveAll_legs (s : State) : (s.rederiveAll).legs = s.legs := rfl
@[simp] theorem State.rederiveAll_leg (s : State) (i : LegId) : (s.rederiveAll).leg i = s.leg i := rfl
@[simp] theorem State.rederiveAll_pool (s : State) : (s.rederiveAll).pool = s.pool := rfl
@[simp] theorem State.rederiveAll_plans (s : State) : (s.rederiveAll).plans = s.plans := rfl
@[simp] theorem State.rederiveAll_plan (s : State) (i : PlanId) : (s.rederiveAll).plan i = s.plan i := rfl
@[simp] theorem State.rederiveAll_clips (s : State) : (s.rederiveAll).clips = s.clips := rfl
@[simp] theorem State.rederiveAll_clip (s : State) (i : ClipId) : (s.rederiveAll).clip i = s.clip i := rfl
@[simp] theorem State.rederiveAll_freeSlabs (s : State) : (s.rederiveAll).freeSlabs = s.freeSlabs := rfl
@[simp] theorem State.rederiveAll_write (s : State) : (s.rederiveAll).write = s.write := rfl
@[simp] theorem State.rederiveAll_memory (s : State) : (s.rederiveAll).memory = s.memory := rfl
@[simp] theorem State.rederiveAll_scan (s : State) : (s.rederiveAll).scan = s.scan := rfl
@[simp] theorem State.rederiveAll_flash (s : State) : (s.rederiveAll).flash = s.flash := rfl
@[simp] theorem State.rederiveAll_unfinishedOps (s : State) : (s.rederiveAll).unfinishedOps = s.unfinishedOps := rfl
@[simp] theorem State.rederiveAll_engines (s : State) : (s.rederiveAll).engines = s.engines := rfl
@[simp] theorem State.rederiveAll_eng (s : State) (i : EngId) : (s.rederiveAll).eng i = s.eng i := rfl
@[simp] theorem State.rederiveAll_arbiter (s : State) : (s.rederiveAll).arbiter = s.arbiter := rfl
@[simp] theorem State.rederiveAll_link (s : State) : (s.rederiveAll).link = s.link := rfl

/-! ## finish -/

@[simp] theorem State.finish_pending (s : State) (b : State) : (s.finish b).pending = s.pending := rfl
@[simp] theorem State.finish_positions (s : State) (b : State) : (s.finish b).positions = s.positions := rfl
@[simp] theorem State.finish_pos (s : State) (b : State) (i : PosId) : (s.finish b).pos i = s.pos i := rfl
@[simp] theorem State.finish_highway (s : State) (b : State) : (s.finish b).highway = s.highway := rfl
@[simp] theorem State.finish_sources (s : State) (b : State) : (s.finish b).sources = s.sources := rfl
@[simp] theorem State.finish_before (s : State) (b : State) : (s.finish b).before = s.before := rfl
@[simp] theorem State.finish_pool (s : State) (b : State) : (s.finish b).pool = s.pool := rfl
@[simp] theorem State.finish_plans (s : State) (b : State) : (s.finish b).plans = s.plans := rfl
@[simp] theorem State.finish_plan (s : State) (b : State) (i : PlanId) : (s.finish b).plan i = s.plan i := rfl
@[simp] theorem State.finish_clips (s : State) (b : State) : (s.finish b).clips = s.clips := rfl
@[simp] theorem State.finish_clip (s : State) (b : State) (i : ClipId) : (s.finish b).clip i = s.clip i := rfl
@[simp] theorem State.finish_freeSlabs (s : State) (b : State) : (s.finish b).freeSlabs = s.freeSlabs := rfl
@[simp] theorem State.finish_write (s : State) (b : State) : (s.finish b).write = s.write := rfl
@[simp] theorem State.finish_memory (s : State) (b : State) : (s.finish b).memory = s.memory := rfl
@[simp] theorem State.finish_scan (s : State) (b : State) : (s.finish b).scan = s.scan := rfl
@[simp] theorem State.finish_flash (s : State) (b : State) : (s.finish b).flash = s.flash := rfl
@[simp] theorem State.finish_unfinishedOps (s : State) (b : State) : (s.finish b).unfinishedOps = s.unfinishedOps := rfl
@[simp] theorem State.finish_engines (s : State) (b : State) : (s.finish b).engines = s.engines := rfl
@[simp] theorem State.finish_eng (s : State) (b : State) (i : EngId) : (s.finish b).eng i = s.eng i := rfl
@[simp] theorem State.finish_arbiter (s : State) (b : State) : (s.finish b).arbiter = s.arbiter := rfl
@[simp] theorem State.finish_link (s : State) (b : State) : (s.finish b).link = s.link := rfl

end Sys2Proof.Machine
end

