-- ==== Sys2Proof/Laws/Ops.lean ====
section
/-! SUPPORT. What the shared operations can do: the link's queues, a request's handling, the flash image, lists in rising order. -/

namespace Sys2Proof.Machine

/-! ## The link's queues -/

@[simp] theorem Link.choose_replies (k : Link) : k.choose.replies = k.replies := by unfold Link.choose; split <;> rfl
@[simp] theorem Link.choose_reports (k : Link) : k.choose.reports = k.reports := by unfold Link.choose; split <;> rfl
@[simp] theorem Link.choose_buffer (k : Link) : k.choose.buffer = k.buffer := by unfold Link.choose; split <;> rfl
@[simp] theorem Link.choose_paused (k : Link) : k.choose.paused = k.paused := by unfold Link.choose; split <;> rfl
@[simp] theorem Link.choose_receiver (k : Link) : k.choose.receiver = k.receiver := by unfold Link.choose; split <;> rfl
@[simp] theorem Link.choose_linkErrors (k : Link) : k.choose.linkErrors = k.linkErrors := by unfold Link.choose; split <;> rfl
@[simp] theorem Link.choose_lostReports (k : Link) : k.choose.lostReports = k.lostReports := by unfold Link.choose; split <;> rfl
@[simp] theorem Link.choose_lastSent (k : Link) : k.choose.lastSent = k.lastSent := by unfold Link.choose; split <;> rfl
@[simp] theorem Link.choose_position (k : Link) : k.choose.position = k.position := by unfold Link.choose; split <;> rfl
@[simp] theorem Link.choose_outByte (k : Link) : k.choose.outByte = k.outByte := by unfold Link.choose; split <;> rfl

/-- Everything that placing a report can do (R191). -/
theorem Link.placeReport_cases (k : Link) (r : Report) :
    (32 ≤ k.reports.length ∧ k.placeReport r = { k with lostReports := sat16Count k.lostReports 1 }) ∨
    (k.reports.length < 32 ∧ k.placeReport r = Link.choose { k with reports := k.reports ++ [r] }) := by
  unfold Link.placeReport Config.reportPlaces
  split
  · exact .inl ⟨‹_›, rfl⟩
  · exact .inr ⟨by omega, rfl⟩

@[simp] theorem Link.placeReport_replies (k : Link) (r : Report) : (k.placeReport r).replies = k.replies := by
  unfold Link.placeReport; split <;> simp
@[simp] theorem Link.placeReport_buffer (k : Link) (r : Report) : (k.placeReport r).buffer = k.buffer := by
  unfold Link.placeReport; split <;> simp
@[simp] theorem Link.placeReport_paused (k : Link) (r : Report) : (k.placeReport r).paused = k.paused := by
  unfold Link.placeReport; split <;> simp
@[simp] theorem Link.placeReport_receiver (k : Link) (r : Report) : (k.placeReport r).receiver = k.receiver := by
  unfold Link.placeReport; split <;> simp
@[simp] theorem Link.placeReport_linkErrors (k : Link) (r : Report) : (k.placeReport r).linkErrors = k.linkErrors := by
  unfold Link.placeReport; split <;> simp
@[simp] theorem Link.placeReport_lastSent (k : Link) (r : Report) : (k.placeReport r).lastSent = k.lastSent := by
  unfold Link.placeReport; split <;> simp
@[simp] theorem Link.placeReport_position (k : Link) (r : Report) : (k.placeReport r).position = k.position := by
  unfold Link.placeReport; split <;> simp
@[simp] theorem Link.placeReport_outByte (k : Link) (r : Report) : (k.placeReport r).outByte = k.outByte := by
  unfold Link.placeReport; split <;> simp

/-- The report queue stays within its 32 places (R191). -/
theorem Link.placeReport_reports_le (k : Link) (r : Report) (h : k.reports.length ≤ 32) : (k.placeReport r).reports.length ≤ 32 := by
  rcases k.placeReport_cases r with ⟨_, e⟩ | ⟨_, e⟩ <;> rw [e]
  · exact h
  · simp; omega

/-- Reports are only added, behind those that wait (R191). -/
theorem Link.placeReport_extends (k : Link) (r : Report) : k.reports <+: (k.placeReport r).reports := by
  rcases k.placeReport_cases r with ⟨_, e⟩ | ⟨_, e⟩
  · rw [e]
  · rw [e]; simp

@[simp] theorem Link.placeReply_replies (k : Link) (r : Reply) : (k.placeReply r).replies = k.replies ++ [r] := by
  simp [Link.placeReply]
@[simp] theorem Link.placeReply_buffer (k : Link) (r : Reply) : (k.placeReply r).buffer = k.buffer := by simp [Link.placeReply]
@[simp] theorem Link.placeReply_reports (k : Link) (r : Reply) : (k.placeReply r).reports = k.reports := by simp [Link.placeReply]
@[simp] theorem Link.placeReply_paused (k : Link) (r : Reply) : (k.placeReply r).paused = k.paused := by simp [Link.placeReply]
@[simp] theorem Link.placeReply_receiver (k : Link) (r : Reply) : (k.placeReply r).receiver = k.receiver := by
  simp [Link.placeReply]
@[simp] theorem Link.placeReply_linkErrors (k : Link) (r : Reply) : (k.placeReply r).linkErrors = k.linkErrors := by
  simp [Link.placeReply]
@[simp] theorem Link.placeReply_lostReports (k : Link) (r : Reply) : (k.placeReply r).lostReports = k.lostReports := by
  simp [Link.placeReply]
@[simp] theorem Link.placeReply_position (k : Link) (r : Reply) : (k.placeReply r).position = k.position := by
  simp [Link.placeReply]
@[simp] theorem Link.placeReply_outByte (k : Link) (r : Reply) : (k.placeReply r).outByte = k.outByte := by
  simp [Link.placeReply]

@[simp] theorem State.report_link (s : State) (b : ReportBody) :
    (s.report b).link = s.link.placeReport ⟨s.highway.period, b⟩ := rfl
@[simp] theorem State.reply_link (s : State) (r : Reply) : (s.reply r).link = s.link.placeReply r := rfl

@[simp] theorem State.linkError_replies (s : State) (c : LinkCause) : (s.linkError c).link.replies = s.link.replies := by
  simp [State.linkError]
@[simp] theorem State.linkError_buffer (s : State) (c : LinkCause) : (s.linkError c).link.buffer = s.link.buffer := by
  simp [State.linkError]
@[simp] theorem State.linkError_paused (s : State) (c : LinkCause) : (s.linkError c).link.paused = s.link.paused := by
  simp [State.linkError]
@[simp] theorem State.linkError_count (s : State) (c : LinkCause) :
    (s.linkError c).link.linkErrors = sat16Count s.link.linkErrors 1 := by simp [State.linkError]

/-! ## The byte clock -/

/-- Everything that one byte sent can do (R182, R192). -/
theorem State.sendByte_cases (s : State) :
    (s.link.message = none ∧ s.sendByte = { s with link := { s.link with outByte := 0xFF } }) ∨
    (∃ m, s.link.message = some m ∧ s.link.position + 1 < m.length ∧ s.sendByte = { s with link := { s.link with
      outByte := m.getD s.link.position 0, position := s.link.position + 1 } }) ∨
    (∃ m, s.link.message = some m ∧ m.length ≤ s.link.position + 1 ∧ s.sendByte = s.messageSent) := by
  unfold State.sendByte
  split
  · exact .inl ⟨‹_›, rfl⟩
  · rename_i m h
    split
    · exact .inr (.inl ⟨m, h, ‹_›, rfl⟩)
    · exact .inr (.inr ⟨m, h, by omega, rfl⟩)

/-- Reading the message being sent to its end is clocking fill for the bytes it still has, and nothing where none is sent (R182, R192). -/
theorem State.readMessage_cases (s : State) :
    (s.link.message = none ∧ s.readMessage = s) ∨
    (∃ m, s.link.message = some m ∧ s.readMessage = s.clock (List.replicate (m.length - s.link.position) 0xFF)) := by
  unfold State.readMessage Link.remaining
  cases h : s.link.message with
  | none => exact .inl ⟨rfl, by simp [State.clock]⟩
  | some m => exact .inr ⟨m, rfl, rfl⟩

/-- Everything that a good request's disposal can do (R186). -/
theorem State.dispose_cases (s : State) (r : RequestFrame) :
    (8 ≤ s.link.places ∧ s.dispose r = s.linkError .overrun) ∨
    (s.link.places < 8 ∧ s.link.buffer.length < 4 ∧
      s.dispose r = { s with link := { s.link with buffer := s.link.buffer ++ [r] } }) ∨
    (s.link.places < 8 ∧ 4 ≤ s.link.buffer.length ∧ s.dispose r = s.reply ⟨r.code, r.tag, .overload, .none⟩) := by
  unfold State.dispose Config.replyPlaces Config.bufferRequests
  split
  · exact .inl ⟨‹_›, rfl⟩
  · split
    · exact .inr (.inl ⟨by omega, ‹_›, rfl⟩)
    · exact .inr (.inr ⟨by omega, by omega, rfl⟩)

/-- Everything that one byte taken in can do (R185). -/
theorem State.takeByte_cases (s : State) (b : Byte) :
    (s.link.receiver = .hunt ∧ s.takeByte b = s.huntByte b) ∨
    (∃ start got, (s.link.receiver = .frame start got ∨ s.link.receiver = .check start got) ∧
      ((250 < (s.highway.period - start).toNat ∧ s.takeByte b = ((s.linkError .timeout).setReceiver .hunt).huntByte b) ∨
        ((s.highway.period - start).toNat ≤ 250 ∧ s.takeByte b = s.judgeBytes start (got ++ [b])))) := by
  have key : ∀ start got, s.link.receiver.frame? = some (start, got) →
      (250 < (s.highway.period - start).toNat ∧ s.takeByte b = ((s.linkError .timeout).setReceiver .hunt).huntByte b) ∨
        ((s.highway.period - start).toNat ≤ 250 ∧ s.takeByte b = s.judgeBytes start (got ++ [b])) := by
    intro start got h
    unfold State.takeByte
    rw [h]
    by_cases e : Config.frameTimeout < (s.highway.period - start).toNat
    · exact .inl ⟨e, if_pos (decide_eq_true e)⟩
    · exact .inr ⟨Nat.le_of_not_lt e, if_neg fun h => e (of_decide_eq_true h)⟩
  match h : s.link.receiver with
  | .hunt => exact .inl ⟨rfl, by unfold State.takeByte; rw [h]; rfl⟩
  | .frame start got => exact .inr ⟨start, got, .inl rfl, key start got (by rw [h]; rfl)⟩
  | .check start got => exact .inr ⟨start, got, .inr rfl, key start got (by rw [h]; rfl)⟩

@[simp] theorem State.clock_nil (s : State) : s.clock [] = s := rfl
@[simp] theorem State.clock_cons (s : State) (b : Byte) (bytes : List Byte) :
    s.clock (b :: bytes) = (s.clockByte b).clock bytes := rfl

/-- Bytes brought in two commands are bytes brought in one (R182). -/
theorem State.clock_append (s : State) (a b : List Byte) : s.clock (a ++ b) = (s.clock a).clock b := by
  simp [State.clock, List.foldl_append]

/-! ## The handling of a request -/

/-- What the handler does with a request whose payload is well formed (R188). -/
@[simp] theorem respond_fields {α : Type} (code tag : Byte) (f : α) (owner : α → State → Handled) (s : State) :
    respond code tag (.fields f) owner s = (owner f s).state.reply ⟨code, tag, (owner f s).status, (owner f s).fields⟩ := rfl

@[simp] theorem respond_malformed {α : Type} (code tag : Byte) (owner : α → State → Handled) (s : State) :
    respond code tag .malformed owner s = s.reply ⟨code, tag, .length, .none⟩ := rfl

/-- Everything that a request command can do (R186, R188). -/
theorem serve_cases {α : Type} [DecidableEq α] (code tag : Byte) (fields : Parser α) (q : Payload α)
    (owner : α → State → Handled) (s : State) :
    serve code tag fields q owner s = s ∨
    (s.link.paused = false ∧ s.link.buffer = [] ∧ 8 ≤ s.link.replies.length ∧
      serve code tag fields q owner s = s.linkError .overrun) ∨
    (s.link.paused = false ∧ s.link.buffer = [] ∧ s.link.replies.length < 8 ∧
      serve code tag fields q owner s = respond code tag q owner s) ∨
    (s.link.paused = false ∧ (∃ r rest, s.link.buffer = r :: rest ∧ r.code = code ∧ r.tag = tag) ∧
      serve code tag fields q owner s = respond code tag q owner s.takeBuffered) := by
  unfold serve
  by_cases hp : s.link.paused = true
  · simp [hp]
  · simp only [hp]
    cases hb : s.link.buffer with
    | nil =>
      by_cases hr : Config.replyPlaces ≤ s.link.places
      · right; left
        simp [Config.replyPlaces, Link.places, hb] at hr ⊢
        simp [hr]
      · right; right; left
        simp [Config.replyPlaces, Link.places, hb] at hr ⊢
        simp [hr, Nat.not_le.mpr hr]
    | cons r rest =>
      by_cases hm : r.code = code ∧ r.tag = tag ∧ readPayload fields r.payload = q
      · right; right; right
        refine ⟨by simp, ⟨r, rest, rfl, hm.1, hm.2.1⟩, ?_⟩
        simp [hm]
      · left; simp [hm]

/-- With the handler not paused, an empty buffer and a reply place free, the request is handled (R186, R188). -/
theorem serve_ready {α : Type} [DecidableEq α] (code tag : Byte) (fields : Parser α) (q : Payload α)
    (owner : α → State → Handled) (s : State) (hp : s.link.paused = false) (hb : s.link.buffer = [])
    (hr : s.link.replies.length < 8) : serve code tag fields q owner s = respond code tag q owner s := by
  simp [serve, hp, hb, Config.replyPlaces, Link.places, Nat.not_le.mpr hr]

/-! ## The flash image -/

theorem flashRead_below (m : List Host.Cell) (a : Nat) (h : ∀ c ∈ m, a < c.1) : flashRead m a = flashBlank := by
  induction m with
  | nil => rfl
  | cons c m ih =>
    obtain ⟨b, v⟩ := c
    have hb : a < b := h (b, v) (by simp)
    simp [flashRead, Nat.ne_of_gt hb]
    exact ih fun c hc => h c (by simp [hc])

/-- The addresses after the first of a well-formed image lie above it. -/
theorem Memory.wf_above {c : Host.Cell} {m : List Host.Cell} (h : Memory.wf (c :: m) = true) : ∀ d ∈ m, c.1 < d.1 := by
  induction m generalizing c with
  | nil => simp
  | cons d m ih =>
    simp [Memory.wf] at h
    intro e he
    rcases List.mem_cons.mp he with rfl | he
    · exact h.1.2
    · exact Nat.lt_trans h.1.2 (ih h.2 e he)

theorem Memory.wf_tail {c : Host.Cell} {m : List Host.Cell} (h : Memory.wf (c :: m) = true) : Memory.wf m = true := by
  cases m with
  | nil => rfl
  | cons d m => simp [Memory.wf] at h; exact h.2

theorem Memory.wf_head {c : Host.Cell} {m : List Host.Cell} (h : Memory.wf (c :: m) = true) : c.2 ≠ flashBlank := by
  cases m with
  | nil => simpa [Memory.wf] using h
  | cons d m => simp [Memory.wf] at h; exact h.1.1

theorem Memory.wf_cons {c : Host.Cell} {m : List Host.Cell} (hc : c.2 ≠ flashBlank) (hm : Memory.wf m = true)
    (ha : ∀ d ∈ m, c.1 < d.1) : Memory.wf (c :: m) = true := by
  cases m with
  | nil => simpa [Memory.wf] using hc
  | cons d m => simp [Memory.wf, hc, hm, ha d (by simp)]

/-- Every address of an image after a write was there before, or is the one written. -/
theorem flashWrite_mem (m : List Host.Cell) (a : Nat) (v : Byte) : ∀ c ∈ flashWrite m a v, c ∈ m ∨ c.1 = a := by
  induction m with
  | nil => intro c; unfold flashWrite; split <;> simp +contextual
  | cons d m ih =>
    obtain ⟨b, w⟩ := d
    intro c
    unfold flashWrite
    split_ifs <;> intro hc
    · exact .inl hc
    · rcases List.mem_cons.mp hc with rfl | hc
      · exact .inr rfl
      · exact .inl hc
    · exact .inl (by simp [hc])
    · rcases List.mem_cons.mp hc with rfl | hc
      · exact .inr rfl
      · exact .inl (by simp [hc])
    · rcases List.mem_cons.mp hc with rfl | hc
      · exact .inl (by simp)
      · rcases ih c hc with h | h
        · exact .inl (by simp [h])
        · exact .inr h

/-- A write keeps the form of the image. -/
theorem flashWrite_wf (m : List Host.Cell) (a : Nat) (v : Byte) (h : Memory.wf m = true) : Memory.wf (flashWrite m a v) = true := by
  induction m with
  | nil => unfold flashWrite; split <;> simp_all [Memory.wf]
  | cons d m ih =>
    obtain ⟨b, w⟩ := d
    have hm := Memory.wf_tail h
    have hab := Memory.wf_above h
    unfold flashWrite
    split_ifs with h1 h2 h3 h4
    · exact h
    · refine Memory.wf_cons h2 h ?_
      intro c hc
      rcases List.mem_cons.mp hc with rfl | hc
      · exact h1
      · exact Nat.lt_trans h1 (hab c hc)
    · exact hm
    · subst h3; exact Memory.wf_cons h4 hm hab
    · refine Memory.wf_cons (Memory.wf_head h) (ih hm) ?_
      intro c hc
      rcases flashWrite_mem m a v c hc with hc | hc
      · exact hab c hc
      · show b < c.1; omega

/-- A written byte reads back (for any image in form). -/
theorem flashRead_flashWrite_same (m : List Host.Cell) (a : Nat) (v : Byte) (h : Memory.wf m = true) :
    flashRead (flashWrite m a v) a = v := by
  induction m with
  | nil => unfold flashWrite; split <;> simp_all [flashRead]
  | cons d m ih =>
    obtain ⟨b, w⟩ := d
    have hm := Memory.wf_tail h
    have hab := Memory.wf_above h
    unfold flashWrite
    split_ifs with h1 h2 h3 h4
    · rw [h2]; apply flashRead_below
      intro c hc
      rcases List.mem_cons.mp hc with rfl | hc
      · exact h1
      · exact Nat.lt_trans h1 (hab c hc)
    · simp [flashRead]
    · subst h3; rw [h4]; exact flashRead_below m a hab
    · simp [flashRead]
    · simp [flashRead, Ne.symm h3, ih hm]

/-- A write leaves every other byte alone. -/
theorem flashRead_flashWrite_other (m : List Host.Cell) (a b : Nat) (v : Byte) (h : a ≠ b) :
    flashRead (flashWrite m a v) b = flashRead m b := by
  induction m with
  | nil => unfold flashWrite; split <;> simp_all [flashRead]
  | cons d m ih =>
    obtain ⟨x, w⟩ := d
    unfold flashWrite
    split_ifs with h1 h2 h3 h4
    · rfl
    · simp [flashRead, h]
    · subst h3; simp [flashRead, h]
    · subst h3; simp [flashRead, h]
    · simp only [flashRead]; split <;> simp_all

theorem flashWriteBytes_wf (m : List Host.Cell) (a : Nat) (bytes : List Byte) (h : Memory.wf m = true) :
    Memory.wf (flashWriteBytes m a bytes) = true := by
  induction bytes generalizing m a with
  | nil => exact h
  | cons v vs ih => exact ih _ _ (flashWrite_wf m a v h)

theorem Memory.wf_filter (m : List Host.Cell) (f : Host.Cell → Bool) (h : Memory.wf m = true) :
    Memory.wf (m.filter f) = true := by
  induction m with
  | nil => rfl
  | cons c m ih =>
    rw [List.filter_cons]
    split
    · refine Memory.wf_cons (Memory.wf_head h) (ih (Memory.wf_tail h)) ?_
      intro d hd
      exact Memory.wf_above h d (List.mem_of_mem_filter hd)
    · exact ih (Memory.wf_tail h)

theorem flashFill_wf (m : List Host.Cell) (f : Nat → Byte) (as : List Nat) (h : Memory.wf m = true) :
    Memory.wf (flashFill m f as) = true := by
  induction as with
  | nil => exact h
  | cons a as ih => exact flashWrite_wf _ a _ ih

theorem flashRead_flashFill_other (m : List Host.Cell) (f : Nat → Byte) (as : List Nat) (b : Nat) (h : b ∉ as) :
    flashRead (flashFill m f as) b = flashRead m b := by
  induction as with
  | nil => rfl
  | cons a as ih =>
    rw [List.mem_cons, not_or] at h
    exact (flashRead_flashWrite_other _ a b _ (Ne.symm h.1)).trans (ih h.2)

theorem flashRead_flashFill_mem (m : List Host.Cell) (f : Nat → Byte) (as : List Nat) (b : Nat) (hm : Memory.wf m = true)
    (h : b ∈ as) : flashRead (flashFill m f as) b = f b := by
  induction as with
  | nil => cases h
  | cons a as ih =>
    by_cases e : a = b
    · subst e; exact flashRead_flashWrite_same _ a _ (flashFill_wf m f as hm)
    · exact (flashRead_flashWrite_other _ a b _ e).trans (ih ((List.mem_cons.1 h).resolve_left (Ne.symm e)))

theorem mem_addressesFrom (start n a : Nat) : a ∈ addressesFrom start n ↔ start ≤ a ∧ a < start + n := by
  simp only [addressesFrom, List.mem_map, List.mem_range]
  exact ⟨fun ⟨i, hi, e⟩ => by omega, fun ⟨h, h'⟩ => ⟨a - start, by omega, by omega⟩⟩

theorem mem_slabAddresses (slab a : Nat) : a ∈ slabAddresses slab ↔ slab * 65536 ≤ a ∧ a < (slab + 1) * 65536 := by
  unfold slabAddresses
  rw [mem_addressesFrom, Nat.add_mul, Nat.one_mul]
  rfl

@[simp] theorem State.leaveUnfinished_memory (s : State) (places : List Nat) : (s.leaveUnfinished places).memory = s.memory := rfl
@[simp] theorem State.leaveUnfinished_write (s : State) (places : List Nat) : (s.leaveUnfinished places).write = s.write := rfl
@[simp] theorem State.leaveUnfinished_clip (s : State) (places : List Nat) (c : ClipId) :
    (s.leaveUnfinished places).clip c = s.clip c := rfl
@[simp] theorem State.leaveUnfinished_unfinishedOps (s : State) (places : List Nat) :
    (s.leaveUnfinished places).unfinishedOps = s.unfinishedOps + 1 := rfl

/-- What an operation cut off leaves in the flash: a free value at each byte that it was changing, and every other byte as it was
(log 41). -/
theorem State.leaveUnfinished_read (s : State) (places : List Nat) (a : Nat) (h : Memory.wf s.flash = true) :
    flashRead (s.leaveUnfinished places).flash a =
      if a ∈ places then Config.unfinished s.unfinishedOps a else flashRead s.flash a := by
  unfold State.leaveUnfinished
  split
  · exact flashRead_flashFill_mem s.flash _ _ a h ‹_›
  · exact flashRead_flashFill_other s.flash _ _ a ‹_›

theorem State.leaveUnfinished_wf (s : State) (places : List Nat) (h : Memory.wf s.flash = true) :
    Memory.wf (s.leaveUnfinished places).flash = true := flashFill_wf s.flash _ _ h

/-- Everything that an abandonment can do to an erase (R128). -/
theorem State.abandonErase_cases (s : State) :
    (s.memory.erasing = none ∧ s.abandonErase = s) ∨
    ∃ slab, s.memory.erasing = some slab ∧ s.abandonErase = s.leaveUnfinished (slabAddresses slab) := by
  unfold State.abandonErase
  split
  · rename_i slab h
    exact .inr ⟨slab, h, rfl⟩
  · exact .inl ⟨‹_›, rfl⟩

theorem State.abandonErase_wf (s : State) (h : Memory.wf s.flash = true) : Memory.wf s.abandonErase.flash = true := by
  obtain ⟨-, e⟩ | ⟨slab, -, e⟩ := s.abandonErase_cases <;> rw [e]
  · exact h
  · exact s.leaveUnfinished_wf _ h

theorem flashErase_wf (m : List Host.Cell) (slab : Nat) (h : Memory.wf m = true) : Memory.wf (flashErase m slab) = true :=
  Memory.wf_filter m _ h

/-- An erase leaves every byte outside the slab alone. -/
theorem flashRead_flashErase_outside (m : List Host.Cell) (slab a : Nat)
    (h : a < slab * Config.slabBytes ∨ (slab + 1) * Config.slabBytes ≤ a) : flashRead (flashErase m slab) a = flashRead m a := by
  induction m with
  | nil => rfl
  | cons c m ih =>
    obtain ⟨b, v⟩ := c
    unfold flashErase at ih ⊢
    rw [List.filter_cons]
    by_cases hb : b = a
    · subst hb
      rw [if_pos (by simp; omega)]
      simp [flashRead]
    · split
      · simp only [flashRead, hb, if_false]; exact ih
      · simp only [flashRead, hb, if_false]; exact ih

/-- An erased slab reads blank. -/
theorem flashRead_flashErase_inside (m : List Host.Cell) (slab a : Nat) (h : slab * Config.slabBytes ≤ a)
    (h' : a < (slab + 1) * Config.slabBytes) : flashRead (flashErase m slab) a = flashBlank := by
  induction m with
  | nil => rfl
  | cons c m ih =>
    obtain ⟨b, v⟩ := c
    unfold flashErase at ih ⊢
    rw [List.filter_cons]
    split
    · rename_i hb
      have : b ≠ a := by
        intro e; subst e; simp at hb; omega
      simp only [flashRead, this, if_false]; exact ih
    · exact ih

/-! ## Lists in rising order -/

theorem mem_insertNumber (x y : Nat) (l : List Nat) : y ∈ insertNumber x l ↔ y = x ∨ y ∈ l := by
  induction l with
  | nil => simp [insertNumber]
  | cons z l ih =>
    unfold insertNumber
    split_ifs with h1 h2
    · simp
    · subst h2; simp
    · simp [ih]; tauto

theorem insertNumber_pairwise (x : Nat) (l : List Nat) (h : l.Pairwise (· < ·)) : (insertNumber x l).Pairwise (· < ·) := by
  induction l with
  | nil => simp [insertNumber]
  | cons z l ih =>
    unfold insertNumber
    rw [List.pairwise_cons] at h
    split_ifs with h1 h2
    · refine List.Pairwise.cons ?_ (List.Pairwise.cons h.1 h.2)
      intro y hy
      rcases List.mem_cons.mp hy with rfl | hy
      · exact h1
      · exact Nat.lt_trans h1 (h.1 y hy)
    · exact List.Pairwise.cons h.1 h.2
    · refine List.Pairwise.cons ?_ (ih h.2)
      intro y hy
      rcases (mem_insertNumber x y l).mp hy with rfl | hy
      · omega
      · exact h.1 y hy

theorem returnNumbers_pairwise (xs l : List Nat) (h : l.Pairwise (· < ·)) : (returnNumbers xs l).Pairwise (· < ·) := by
  induction xs generalizing l with
  | nil => exact h
  | cons x xs ih => exact ih _ (insertNumber_pairwise x l h)

theorem insertNumber_perm (x : Nat) (l : List Nat) (h : x ∉ l) : (insertNumber x l).Perm (x :: l) := by
  induction l with
  | nil => exact List.Perm.refl _
  | cons z l ih =>
    simp at h
    unfold insertNumber
    split_ifs with h1 h2
    · exact List.Perm.refl _
    · exact absurd h2 h.1
    · exact ((ih h.2).cons z).trans (List.Perm.swap x z l)

end Sys2Proof.Machine
end

