-- ==== Sys2Proof/Laws/Cascade.lean ====
section
/-! SUPPORT. What a chain of happenings (`State.run`) can never change, said once: the highway, the sources, the tap pool, the write
context, the scan and the flash; the replies, the inbound buffer and the handler's pause; every port, configuration and suppressor;
every canceller but for its settle count; every plan's record. -/

namespace Sys2Proof.Machine

/-- A canceller without its settle count. -/
def Canceller.unsettled (c : Canceller) : Canceller := { c with settle := 0 }

/-- Nothing but engines, clips, the arbiter, the memory port, feeds, whisper queues, legs' records and reports differs. -/
structure Outside (s t : State) : Prop where
  pending : t.pending = s.pending
  highway : t.highway = s.highway
  sources : t.sources = s.sources
  before : t.before = s.before
  pool : t.pool = s.pool
  write : t.write = s.write
  scan : t.scan = s.scan
  flash : t.flash = s.flash
  unfinishedOps : t.unfinishedOps = s.unfinishedOps
  scanning : t.arbiter.scanning = s.arbiter.scanning
  replies : t.link.replies = s.link.replies
  buffer : t.link.buffer = s.link.buffer
  paused : t.link.paused = s.link.paused
  receiver : t.link.receiver = s.link.receiver
  linkErrors : t.link.linkErrors = s.link.linkErrors
  reports : s.link.reports <+: t.link.reports
  reportsLe : s.link.reports.length ≤ 32 → t.link.reports.length ≤ 32
  port : ∀ p, (t.pos p).port = (s.pos p).port
  config : ∀ p, (t.pos p).config = (s.pos p).config
  mute : ∀ p, (t.pos p).mute = (s.pos p).mute
  earVolume : ∀ p, (t.pos p).earVolume = (s.pos p).earVolume
  ns : ∀ p, (t.pos p).ns = (s.pos p).ns
  vadBefore : ∀ p, (t.pos p).vadBefore = (s.pos p).vadBefore
  limiter : ∀ p, (t.pos p).limiter = (s.pos p).limiter
  supervision : ∀ p, (t.pos p).supervision = (s.pos p).supervision
  ec : ∀ l, (t.leg l).ec.unsettled = (s.leg l).ec.unsettled
  record : ∀ h, (t.plan h).record = (s.plan h).record

theorem Outside.refl (s : State) : Outside s s := by constructor <;> simp

theorem Outside.trans {s t u : State} (a : Outside s t) (b : Outside t u) : Outside s u where
  pending := b.pending.trans a.pending
  highway := b.highway.trans a.highway
  sources := b.sources.trans a.sources
  before := b.before.trans a.before
  pool := b.pool.trans a.pool
  write := b.write.trans a.write
  scan := b.scan.trans a.scan
  flash := b.flash.trans a.flash
  unfinishedOps := b.unfinishedOps.trans a.unfinishedOps
  scanning := b.scanning.trans a.scanning
  replies := b.replies.trans a.replies
  buffer := b.buffer.trans a.buffer
  paused := b.paused.trans a.paused
  receiver := b.receiver.trans a.receiver
  linkErrors := b.linkErrors.trans a.linkErrors
  reports := a.reports.trans b.reports
  reportsLe := fun h => b.reportsLe (a.reportsLe h)
  port := fun p => (b.port p).trans (a.port p)
  config := fun p => (b.config p).trans (a.config p)
  mute := fun p => (b.mute p).trans (a.mute p)
  earVolume := fun p => (b.earVolume p).trans (a.earVolume p)
  ns := fun p => (b.ns p).trans (a.ns p)
  vadBefore := fun p => (b.vadBefore p).trans (a.vadBefore p)
  limiter := fun p => (b.limiter p).trans (a.limiter p)
  supervision := fun p => (b.supervision p).trans (a.supervision p)
  ec := fun l => (b.ec l).trans (a.ec l)
  record := fun h => (b.record h).trans (a.record h)

/-! ## The pieces of a happening -/

theorem Outside.report {s t : State} (h : Outside s t) (b : ReportBody) : Outside s (t.report b) := by
  refine h.trans ?_
  constructor <;> try simp
  · exact Link.placeReport_extends _ _
  · exact Link.placeReport_reports_le _ _

theorem Outside.modEng {s t : State} (h : Outside s t) (e : EngId) (f : Engine → Engine) : Outside s (t.modEng e f) := by
  refine h.trans ?_
  constructor <;> simp

theorem Outside.modClip {s t : State} (h : Outside s t) (c : ClipId) (f : Clip → Clip) : Outside s (t.modClip c f) := by
  refine h.trans ?_
  constructor <;> simp

theorem Outside.withdraw {s t : State} (h : Outside s t) (o : Owner) : Outside s (t.withdraw o) := by
  refine h.trans ?_
  constructor <;> simp [State.withdraw, State.pos, State.leg, State.plan]

theorem Outside.withdrawFetch {s t : State} (h : Outside s t) (e : EngId) : Outside s (t.withdrawFetch e) := by
  refine h.trans ?_
  constructor <;> simp

theorem Outside.dropEngineFeeds {s t : State} (h : Outside s t) (e : EngId) : Outside s (t.dropEngineFeeds e) := by
  refine h.trans ?_
  constructor <;> simp

/-- A change of a whisper queue, or of the leg that a position names. -/
theorem Outside.modPos {s t : State} (h : Outside s t) (p : PosId) (f : Position → Position)
    (k : ∀ x, (f x).port = x.port ∧ (f x).config = x.config ∧ (f x).mute = x.mute ∧ (f x).earVolume = x.earVolume ∧ (f x).ns = x.ns
      ∧ (f x).vadBefore = x.vadBefore ∧ (f x).limiter = x.limiter ∧ (f x).supervision = x.supervision := by simp) :
    Outside s (t.modPos p f) := by
  refine h.trans ?_
  have key : ∀ q, ((t.modPos p f).pos q).port = (t.pos q).port ∧ ((t.modPos p f).pos q).config = (t.pos q).config
      ∧ ((t.modPos p f).pos q).mute = (t.pos q).mute ∧ ((t.modPos p f).pos q).earVolume = (t.pos q).earVolume
      ∧ ((t.modPos p f).pos q).ns = (t.pos q).ns ∧ ((t.modPos p f).pos q).vadBefore = (t.pos q).vadBefore
      ∧ ((t.modPos p f).pos q).limiter = (t.pos q).limiter ∧ ((t.modPos p f).pos q).supervision = (t.pos q).supervision := by
    intro q
    by_cases e : p = q
    · subst e; simpa using k (t.pos p)
    · simp [e]
  constructor <;> try simp
  · exact fun q => (key q).1
  · exact fun q => (key q).2.1
  · exact fun q => (key q).2.2.1
  · exact fun q => (key q).2.2.2.1
  · exact fun q => (key q).2.2.2.2.1
  · exact fun q => (key q).2.2.2.2.2.1
  · exact fun q => (key q).2.2.2.2.2.2.1
  · exact fun q => (key q).2.2.2.2.2.2.2

theorem Outside.modWhisper {s t : State} (h : Outside s t) (p : PosId) (f : WhisperQueue → WhisperQueue) :
    Outside s (t.modWhisper p f) := Outside.modPos h p _

/-- A change of a leg's record that leaves its canceller alone but for the settle count. -/
theorem Outside.modLeg {s t : State} (h : Outside s t) (l : LegId) (f : Leg → Leg)
    (k : ∀ x, (f x).ec.unsettled = x.ec.unsettled := by intro x; rfl) : Outside s (t.modLeg l f) := by
  refine h.trans ?_
  constructor <;> try simp
  intro m
  by_cases e : l = m
  · subst e; simpa using k (t.leg l)
  · simp [e]

theorem Outside.notice {s t : State} (h : Outside s t) (l : LegId) : Outside s (t.notice l) :=
  Outside.modLeg h l fun x => { x with ec := { x.ec with settle := Config.settleBlocks } }

/-- A change of a plan that keeps its record. -/
theorem Outside.modPlan {s t : State} (h : Outside s t) (i : PlanId) (f : Plan → Plan)
    (k : ∀ x, (f x).record = x.record := by intro x; rfl) : Outside s (t.modPlan i f) := by
  refine h.trans ?_
  constructor <;> try simp
  intro m
  by_cases e : i = m
  · subst e; simpa using k (t.plan i)
  · simp [e]

/-- A change of the memory port alone. -/
theorem Outside.memory {s t : State} (h : Outside s t) (m : MemoryPort) : Outside s { t with memory := m } := by
  refine h.trans ?_
  constructor <;> simp [State.pos, State.leg, State.plan]

/-- A change of the free slabs alone. -/
theorem Outside.freeSlabs {s t : State} (h : Outside s t) (x : List Nat) : Outside s { t with freeSlabs := x } := by
  refine h.trans ?_
  constructor <;> simp [State.pos, State.leg, State.plan]

/-- A change of the arbiter's queues and grants. -/
theorem Outside.arbiter {s t : State} (h : Outside s t) (a : Arbiter)
    (k : a.scanning = t.arbiter.scanning := by rfl) : Outside s { t with arbiter := a } := by
  refine h.trans ?_
  constructor <;> simp [State.pos, State.leg, State.plan, k]

theorem Outside.attach {s t : State} (h : Outside s t) (l : LegId) (p : PosId) : Outside s (t.attach l p) :=
  Outside.modPos (Outside.modLeg h l _) p _

theorem Outside.detach {s t : State} (h : Outside s t) (l : LegId) : Outside s (t.detach l) := by
  unfold State.detach
  split
  · exact Outside.modPos (Outside.modLeg h l _) _ _
  · exact h

theorem Outside.chooseOp {s t : State} (h : Outside s t) : Outside s t.chooseOp := by
  unfold State.chooseOp
  split
  · exact Outside.memory h _
  · split
    · exact Outside.memory h _
    · split
      · exact Outside.memory h _
      · split
        · exact Outside.memory h _
        · split
          · exact Outside.memory h _
          · exact h

theorem Outside.suspendErase {s t : State} (h : Outside s t) : Outside s t.suspendErase := by
  unfold State.suspendErase
  split
  · split
    · exact Outside.memory h _
    · exact h
  · exact h

theorem Outside.settlePort {s t : State} (h : Outside s t) : Outside s t.settlePort := by
  unfold State.settlePort
  split
  · dsimp only
    split
    · exact Outside.chooseOp (Outside.suspendErase h)
    · exact Outside.suspendErase h
  · split
    · split
      · exact Outside.memory h _
      · exact Outside.report (Outside.memory h _) _
    · exact h
  · exact h
  · exact h

theorem Outside.queueUpdate {s t : State} (h : Outside s t) (c : ClipId) : Outside s (t.queueUpdate c) := by
  unfold State.queueUpdate
  split
  · exact h
  · exact Outside.settlePort (Outside.memory h _)

theorem Outside.addFetch {s t : State} (h : Outside s t) (e : EngId) : Outside s (t.addFetch e) := by
  unfold State.addFetch
  split
  · exact Outside.memory h _
  · exact h

theorem Outside.issueFetch {s t : State} (h : Outside s t) (e : EngId) : Outside s (t.issueFetch e) :=
  Outside.settlePort (Outside.addFetch h e)

theorem Outside.emptyClip {s t : State} (h : Outside s t) (c : ClipId) : Outside s (t.emptyClip c) :=
  Outside.modClip (Outside.freeSlabs h _) c _

theorem Outside.clipReleased {s t : State} (h : Outside s t) (c : ClipId) : Outside s (t.clipReleased c) := by
  unfold State.clipReleased
  dsimp only
  split
  · exact Outside.report (Outside.queueUpdate (Outside.emptyClip (Outside.modClip h c _) c) c) _
  · exact Outside.modClip h c _

theorem Outside.clearBinding {s t : State} (h : Outside s t) (o : Owner) (e : EngId) : Outside s (t.clearBinding o e) := by
  unfold State.clearBinding
  split
  · exact Outside.modWhisper h _ _
  · exact h
  · exact Outside.modPlan h _ _ (by intro x; split <;> rfl)

theorem Outside.freeOne {s t : State} (h : Outside s t) (e : EngId) : Outside s (t.freeOne e) := by
  unfold State.freeOne
  dsimp only
  have h0 := Outside.dropEngineFeeds (Outside.modEng (Outside.withdrawFetch h e) e fun _ => Engine.idle) e
  cases (t.eng e).owner with
  | none =>
    cases (t.eng e).clip with
    | none => exact h0
    | some c => exact Outside.clipReleased h0 c
  | some o =>
    cases (t.eng e).clip with
    | none => exact Outside.clearBinding h0 o e
    | some c => exact Outside.clipReleased (Outside.clearBinding h0 o e) c

theorem Outside.ownerGranted {s t : State} (h : Outside s t) (o : Owner) (e : EngId) : Outside s (t.ownerGranted o e) := by
  unfold State.ownerGranted
  split
  · exact Outside.modWhisper h _ _
  · exact Outside.modLeg h _ _
  · exact Outside.modPlan h _ _

theorem Outside.grant {s t : State} (h : Outside s t) (e : EngId) (w : WaitEntry) : Outside s (t.grant e w) :=
  Outside.issueFetch (Outside.ownerGranted (Outside.arbiter (Outside.modClip (Outside.modEng h e _) w.clip _) _) w.owner e) e

theorem Outside.startGap {s t : State} (h : Outside s t) (p : PosId) : Outside s (t.startGap p) := Outside.modWhisper h p _

theorem Outside.sessionTold {s t : State} (h : Outside s t) (l : LegId) (o : EngineOutcome) :
    Outside s (t.sessionTold l o) := by
  unfold State.sessionTold
  split
  · exact h
  · split
    · exact h
    · dsimp only
      split
      · exact Outside.report (Outside.modLeg h l _) _
      · exact Outside.modLeg h l _

theorem Outside.goActive {s t : State} (h : Outside s t) (l : LegId) (p : PosId) : Outside s (t.goActive l p) :=
  Outside.notice (Outside.attach (Outside.modLeg h l _) l p) l

/-! ## A happening, and a chain of them -/

theorem Outside.runTask (x : Task) (s : State) : Outside s (runTask x s).1 := by
  have r := Outside.refl s
  cases x with
  | release e o =>
    simp only [Machine.runTask]
    split
    · exact r
    · exact Outside.freeOne r e
  | stop e o =>
    simp only [Machine.runTask]
    split
    · exact r
    · split
      · dsimp only; exact Outside.modEng (Outside.withdrawFetch r e) e _
      · exact r
    · exact r
    · exact r
  | offer e was =>
    simp only [Machine.runTask]
    split
    · split
      · exact Outside.arbiter r _
      · exact r
    · exact r
  | heads e =>
    simp only [Machine.runTask]
    split
    · exact r
    · split
      · exact r
      · split
        · exact Outside.grant (Outside.arbiter r _) e _
        · exact Outside.arbiter r _
  | request w =>
    simp only [Machine.runTask]
    split
    · exact Outside.arbiter r _
    · exact r
  | take w =>
    simp only [Machine.runTask]
    split
    · exact Outside.arbiter r _
    · split
      · split
        · exact Outside.grant r _ w
        · exact r
      · exact Outside.arbiter r _
  | tell o out =>
    simp only [Machine.runTask]
    split
    · exact r
    · exact Outside.sessionTold r _ out
    · dsimp only
      split
      · exact Outside.modPlan r _ _
      · exact r
  | whisperEnd p o cause =>
    simp only [Machine.runTask]
    split
    · exact r
    · split
      · dsimp only
        split
        · exact Outside.startGap (Outside.report (Outside.modWhisper r p _) _) p
        · exact Outside.report (Outside.modWhisper r p _) _
      · dsimp only
        split
        · exact Outside.goActive (Outside.startGap (Outside.modWhisper r p _) p) _ p
        · exact Outside.goActive (Outside.modWhisper r p _) _ p
  | whisperNext p =>
    simp only [Machine.runTask]
    split
    · exact r
    · split
      · split
        · dsimp only; exact Outside.modWhisper r p _
        · exact r
      · exact r
  | legActive l p => exact Outside.goActive r l p
  | sessionEnd l capture =>
    simp only [Machine.runTask]
    split
    · exact r
    · split
      · dsimp only; exact Outside.modLeg r l _
      · split
        · dsimp only; exact Outside.withdraw (Outside.modLeg r l _) _
        · dsimp only; exact Outside.modLeg r l _
  | planFall h =>
    simp only [Machine.runTask]
    split
    · dsimp only; exact Outside.modPlan (Outside.withdraw (Outside.modPlan r h _) _) h _
    · dsimp only; exact Outside.modPlan r h _
  | report b => exact Outside.report r b

/-- A property that every happening keeps is kept by a chain of them. -/
theorem drive_kept (P : State → Prop) (h : ∀ x s, P s → P (runTask x s).1) (n : Nat) (ts : List Task) (s : State) (hs : P s) :
    P (drive n ts s) := by
  induction n generalizing ts s with
  | zero => exact hs
  | succ n ih =>
    cases ts with
    | nil => exact hs
    | cons t rest => exact ih _ _ (h t s hs)

theorem State.run_kept (P : State → Prop) (h : ∀ x s, P s → P (runTask x s).1) (ts : List Task) (s : State) (hs : P s) :
    P (s.run ts) := drive_kept P h _ ts s hs

/-- What a chain of happenings can never change. -/
theorem Outside.run {s t : State} (h : Outside s t) (ts : List Task) : Outside s (t.run ts) :=
  State.run_kept (Outside s) (fun x u hu => hu.trans (Outside.runTask x u)) ts t h

@[simp] theorem State.run_nil (s : State) : s.run [] = s := rfl

/-- A chain of one happening that sets off nothing. -/
theorem State.run_single {s t : State} {x : Task} (h : Machine.runTask x s = (t, [])) : s.run [x] = t := by
  show drive (4095 + 1) [x] s = t
  rw [drive, h]; rfl

/-- A chain of one happening that sets off one that sets off nothing. -/
theorem State.run_two {s t u : State} {x y : Task} (h : Machine.runTask x s = (t, [y])) (k : Machine.runTask y t = (u, [])) :
    s.run [x] = u := by
  show drive (4094 + 1 + 1) [x] s = u
  rw [drive, h]
  show drive (4094 + 1) [y] t = u
  rw [drive, k]; rfl

/-! ## What the owners do at the top of an event -/

theorem Outside.judgeStream {s t : State} (h : Outside s t) (i : PlanId) : Outside s (t.judgeStream i) := by
  unfold State.judgeStream
  split
  · exact h
  · split
    · exact h
    · exact h
    · dsimp only
      split
      · split
        · exact Outside.run (Outside.modPlan h i _) _
        · exact h
      · split
        · exact Outside.run (Outside.modPlan h i _) _
        · exact h

theorem Outside.planRise {s t : State} (h : Outside s t) (i : PlanId) : Outside s (t.planRise i) := by
  unfold State.planRise
  dsimp only
  split
  · exact Outside.judgeStream (Outside.modPlan h i _) i
  · exact Outside.modPlan h i _

theorem Outside.enterSession {s t : State} (h : Outside s t) (l : LegId) (plan : Option PlanId) :
    Outside s (t.enterSession l plan) := by
  unfold State.enterSession
  dsimp only
  split
  · exact Outside.modLeg h l _
  · split
    · exact Outside.modLeg h l _
    · split
      · exact Outside.modLeg h l _
      · split
        · exact Outside.modLeg h l _
        · split
          · exact Outside.run (Outside.modLeg h l _) _
          · exact Outside.modLeg h l _

theorem Outside.beginSession {s t : State} (h : Outside s t) (l : LegId) (plan : Option PlanId) :
    Outside s (t.beginSession l plan) := by
  unfold State.beginSession
  cases plan with
  | none => exact Outside.enterSession h l _
  | some i => exact Outside.enterSession (Outside.planRise h i) l _

theorem Outside.undoHead {s t : State} (h : Outside s t) (p : PosId) : Outside s (t.undoHead p) := by
  unfold State.undoHead
  split
  · exact h
  · exact Outside.withdraw (Outside.modWhisper h p _) _
  · split
    · exact Outside.run (Outside.modWhisper h p _) _
    · exact Outside.run (Outside.modWhisper h p _) _

theorem Outside.headRemoved {s t : State} (h : Outside s t) (p : PosId) : Outside s (t.headRemoved p) := by
  unfold State.headRemoved
  dsimp only
  split
  · exact Outside.run (Outside.startGap (Outside.undoHead h p) p) _
  · exact Outside.run (Outside.undoHead h p) _

theorem Outside.removeCallWhisper {s t : State} (h : Outside s t) (l : LegId) (p : PosId) :
    Outside s (t.removeCallWhisper l p) := by
  unfold State.removeCallWhisper
  split
  · exact h
  · split
    · exact Outside.headRemoved (Outside.modWhisper h p _) p
    · exact Outside.modWhisper h p _

theorem Outside.releaseAll {s t : State} (h : Outside s t) (o : EngineOutcome) : Outside s (t.releaseAll o) := by
  unfold State.releaseAll
  generalize List.finRange 24 = es
  induction es generalizing t with
  | nil => exact h
  | cons e es ih => exact ih (Outside.run h _)

theorem Outside.finish {s t : State} (h : Outside s t) (before : State) : Outside s (t.finish before) := by
  refine h.trans ?_
  constructor <;> try simp
  intro l
  simp only [State.finish, State.rederiveAll, State.noticeMusic, State.leg, tget_tmap]
  split <;> rfl

end Sys2Proof.Machine
end

