-- ==== Sys2Proof/Laws/Feeds.lean ====
section
/-! SUPPORT. What the shared operations of the positions, the feeds and the buffers can do, said once: composed changes of one record,
the end of an event, the feed lists, and the elastic buffers. -/

namespace Sys2Proof.Machine

/-! ## One record changed twice -/

theorem State.modPos_modPos (s : State) (p : PosId) (f g : Position → Position) :
    (s.modPos p f).modPos p g = s.modPos p (fun x => g (f x)) := by
  simp [State.modPos, State.pos, tset, tget]

theorem State.modPort_modPort (s : State) (p : PosId) (f g : Port → Port) :
    (s.modPort p f).modPort p g = s.modPort p (fun x => g (f x)) := by
  simp [State.modPort, State.modPos_modPos]

theorem State.modLeg_modLeg (s : State) (l : LegId) (f g : Leg → Leg) :
    (s.modLeg l f).modLeg l g = s.modLeg l (fun x => g (f x)) := by
  simp [State.modLeg, State.leg, tset, tget]

theorem State.modEc_modEc (s : State) (l : LegId) (f g : Canceller → Canceller) :
    (s.modEc l f).modEc l g = s.modEc l (fun x => g (f x)) := by
  simp [State.modEc, State.modLeg_modLeg]

theorem State.modEng_modEng (s : State) (e : EngId) (f g : Engine → Engine) :
    (s.modEng e f).modEng e g = s.modEng e (fun x => g (f x)) := by
  simp [State.modEng, State.eng, tset, tget]

theorem OnlyPos.modPos (s : State) (p : PosId) (f : Position → Position) : OnlyPos s (s.modPos p f) p :=
  ⟨fun q h => by simp [Ne.symm h], rfl⟩

theorem OnlyPos.modPort (s : State) (p : PosId) (f : Port → Port) : OnlyPos s (s.modPort p f) p := OnlyPos.modPos s p _

theorem OnlyLeg.modLeg (s : State) (l : LegId) (f : Leg → Leg) : OnlyLeg s (s.modLeg l f) l :=
  ⟨fun q h => by simp [Ne.symm h], rfl⟩

theorem OnlyPos.refl (s : State) (p : PosId) : OnlyPos s s p := ⟨fun _ _ => rfl, rfl⟩

theorem OnlyPos.trans {s t u : State} {p : PosId} (a : OnlyPos s t p) (b : OnlyPos t u p) : OnlyPos s u p :=
  ⟨fun q h => (b.1 q h).trans (a.1 q h), by rw [b.2, a.2]⟩

/-! ## The mute flag -/

/-- Setting the mute flag either finds it so, or changes it and reports the change. -/
theorem State.setMute_cases (s : State) (p : PosId) (value : Bool) (cause : MuteCause) :
    ((s.pos p).mute = value ∧ s.setMute p value cause = s) ∨
    ((s.pos p).mute ≠ value ∧
      s.setMute p value cause = (s.modPos p fun x => { x with mute := value }).report (.muteChanged p cause value)) := by
  unfold State.setMute
  split
  · exact .inl ⟨‹_›, rfl⟩
  · exact .inr ⟨‹_›, rfl⟩

/-! ## The end of an event -/

/-- No notice is given when no leg's music source has changed. -/
theorem State.noticeMusic_eq (s before : State) (h : ∀ l, s.musicSource l = before.musicSource l) : s.noticeMusic before = s := by
  have key : tmap (fun _ (x : Leg) => x) s.legs = s.legs := by
    apply Vector.ext
    intro i hi
    simp [tmap, tget]
  simp only [State.noticeMusic, h, ne_eq, not_true_eq_false, and_false, if_false]
  exact congrArg (fun x => { s with legs := x }) key

/-- The end of an event leaves every list re-derived from the records as they stand then. -/
theorem State.finish_rederived (s before : State) : Rederived s (s.finish before) :=
  ⟨fun p => by simp only [State.finish, State.rederiveAll, tget_tmap]; rfl,
   fun l => by simp only [State.finish, State.rederiveAll, tget_tmap]; rfl⟩

/-- The end of an event changes the legs' settle counts and the feed lists, and nothing else. -/
theorem State.finish_frame (s before : State) :
    s.finish before = { s with
      legs := (s.finish before).legs, ears := (s.finish before).ears, sends := (s.finish before).sends } := rfl


/-- At the end of an event a leg has at most its settle count changed. -/
theorem State.finish_leg (s before : State) (l : LegId) :
    (s.finish before).leg l = s.leg l ∨ (s.finish before).leg l = { s.leg l with ec := { (s.leg l).ec with settle := 25 } } := by
  simp only [State.finish, State.rederiveAll, State.noticeMusic, State.leg, tget_tmap]
  split
  · exact .inr rfl
  · exact .inl rfl

/-! ## Feed lists -/

theorem Feed.rederive_key {derived : List Derived} {f g : Feed} (h : f.rederive derived = some g) : g.key = f.key := by
  unfold Feed.rederive at h
  split at h
  · cases h; rfl
  · split at h
    · cases h
    · split at h <;> cases h <;> rfl

theorem dropOldestFading_sublist (l : List Feed) : (dropOldestFading l).Sublist l := by
  induction l with
  | nil => exact List.Sublist.slnil
  | cons f rest ih =>
    unfold dropOldestFading
    split
    · exact List.sublist_cons_self f rest
    · exact ih.cons_cons f

/-- A list cut down keeps the law. -/
theorem FeedListLaw.sublist {l m : List Feed} (h : FeedListLaw l) (k : m.Sublist l) : FeedListLaw m :=
  ⟨k.length_le.trans h.1, h.2.sublist (k.map _)⟩

/-- Adding a derived feed keeps the law. -/
theorem addFeed_law {l : List Feed} (h : FeedListLaw l) (d : Derived) : FeedListLaw (addFeed l d) := by
  unfold addFeed
  split
  · exact h
  · rename_i absent
    have room : (if Config.feedPlaces ≤ l.length then dropOldestFading l else l).Sublist l := by
      split
      · exact dropOldestFading_sublist l
      · exact List.Sublist.refl l
    dsimp only
    generalize (if Config.feedPlaces ≤ l.length then dropOldestFading l else l) = m at room ⊢
    have hm := h.sublist room
    split
    · rename_i small
      refine ⟨by simp only [List.length_append, List.length_singleton]; exact small, ?_⟩
      rw [List.map_append, List.nodup_append]
      refine ⟨hm.2, by simp, ?_⟩
      intro a ha b hb e
      simp only [List.map_cons, List.map_nil, List.mem_singleton] at hb
      subst hb
      obtain ⟨f, hf, rfl⟩ := List.mem_map.1 ha
      apply absent
      rw [List.any_eq_true]
      refine ⟨f, room.subset hf, ?_⟩
      simp only [Feed.key, Derived.feed, Prod.mk.injEq] at e
      simp [e.1, e.2]
    · exact hm

/-- A re-derivation keeps the law of a feed list. -/
theorem rederive_law {l : List Feed} (h : FeedListLaw l) (derived : List Derived) : FeedListLaw (rederive derived l) := by
  have start : FeedListLaw (l.filterMap (Feed.rederive derived)) := by
    refine ⟨(List.length_filterMap_le _ _).trans h.1, ?_⟩
    have keys : ((l.filterMap (Feed.rederive derived)).map Feed.key).Sublist (l.map Feed.key) := by
      clear h
      induction l with
      | nil => exact List.Sublist.slnil
      | cons f rest ih =>
        cases e : f.rederive derived with
        | none => simpa [List.filterMap_cons, e] using ih.cons _
        | some g => simpa [List.filterMap_cons, e, Feed.rederive_key e] using ih
    exact h.2.sublist keys
  unfold rederive
  generalize l.filterMap (Feed.rederive derived) = m at start
  induction derived generalizing m with
  | nil => exact start
  | cons d rest ih => exact ih _ (addFeed_law start d)

/-! ## Elastic buffers -/

theorem Elastic.append_law {b : Elastic} (h : b.Law) (xs : List Sample) : (b.append xs).Law := by
  obtain ⟨h1, h2, h3, h4⟩ := h
  unfold Elastic.append
  dsimp only
  split
  · rename_i fits
    refine ⟨?_, h2, h3, h4⟩
    simp only [List.length_append, Config.elasticPlaces] at *
    omega
  · refine ⟨?_, h2, h3, by simp [sat16Count]⟩
    simp only [List.length_append, List.length_take, Config.elasticPlaces]
    omega

theorem Elastic.takeFrame_law {b : Elastic} (h : b.Law) : b.takeFrame.1.Law := by
  obtain ⟨h1, h2, h3, h4⟩ := h
  unfold Elastic.takeFrame
  split
  · refine ⟨?_, h2, h3, h4⟩
    simp only [List.length_drop]
    omega
  · exact ⟨by simp, h2, by simp [sat16Count], h4⟩

end Sys2Proof.Machine
end

