-- ==== Sys2Proof/Laws/PerInstr.lean ====
section
/-! SUPPORT. One statement about every command as syntax, proved per command: a command that hands over a request carries a code of
Table 9-5, and only the command of a request that names nothing carries another (R188). -/

namespace Sys2Proof.Laws.Coded

open Sys2Proof.Machine

/-- A well-formed command that hands over a request carries a code that Table 9-5 names, or is the request that names nothing, with a
code that Table 9-5 does not name. -/
def Statement (i : Instr) : Prop :=
  i.wf = true → ∀ code, i.requestCode = some code →
    (code ∈ requestCodes ∧ ∀ tag, i ≠ .unknown tag code) ∨ (code ∉ requestCodes ∧ ∃ tag, i = .unknown tag code)

/-- An event hands over no request. -/
theorem of_event {i : Instr} (h : i.requestCode = none) : Statement i := by
  intro _ code k
  rw [h] at k
  cases k

/-- A request that Table 9-5 names. -/
theorem of_request {i : Instr} {code : Byte} (h : i.requestCode = some code) (k : code ∈ requestCodes)
    (n : ∀ tag c, i ≠ .unknown tag c) : Statement i := by
  intro _ c e
  rw [h] at e
  cases e
  exact .inl ⟨k, fun tag => n tag code⟩

theorem hardwareReset : Statement .hardwareReset := of_event rfl
theorem softReset : Statement .softReset := of_event rfl
theorem portEnable (tag : Byte) (q : Payload Nat) : Statement (.portEnable tag q) := of_request rfl (by decide) (by intros; simp)
theorem portDisable (tag : Byte) (q : Payload Nat) : Statement (.portDisable tag q) := of_request rfl (by decide) (by intros; simp)
theorem positionConfig (tag : Byte) (q : Payload ConfigFields) : Statement (.positionConfig tag q) := of_request rfl (by decide) (by intros; simp)
theorem positionMute (tag : Byte) (q : Payload MuteFields) : Statement (.positionMute tag q) := of_request rfl (by decide) (by intros; simp)
theorem positionStatus (tag : Byte) (q : Payload Nat) : Statement (.positionStatus tag q) := of_request rfl (by decide) (by intros; simp)
theorem positionStats (tag : Byte) (q : Payload Nat) : Statement (.positionStats tag q) := of_request rfl (by decide) (by intros; simp)
theorem upFrame (p : PosId) (frame : UpFrame) (time : Nat) : Statement (.upFrame p frame time) := of_event rfl
theorem downFrame (p : PosId) : Statement (.downFrame p) := of_event rfl
theorem expectedFrameMissed (p : PosId) : Statement (.expectedFrameMissed p) := of_event rfl
theorem lockLoss (p : PosId) : Statement (.lockLoss p) := of_event rfl
theorem portBlockEvent (p : PosId) (presence : Bool) : Statement (.portBlockEvent p presence) := of_event rfl
theorem headsetInserted (p : PosId) : Statement (.headsetInserted p) := of_event rfl
theorem acquisitionStart (p : PosId) (presence : Bool) : Statement (.acquisitionStart p presence) := of_event rfl
theorem unplug (p : PosId) : Statement (.unplug p) := of_event rfl
theorem portLive (p : PosId) (presence : Bool) : Statement (.portLive p presence) := of_event rfl
theorem recoveryWindowExpiry (p : PosId) (presence : Bool) : Statement (.recoveryWindowExpiry p presence) := of_event rfl
theorem periodStart : Statement .periodStart := of_event rfl
theorem syncLost : Statement .syncLost := of_event rfl
theorem syncRegained (frame : HighwayFrame) : Statement (.syncRegained frame) := of_event rfl
theorem legOpen (tag : Byte) (q : Payload OpenFields) : Statement (.legOpen tag q) := of_request rfl (by decide) (by intros; simp)
theorem legHold (tag : Byte) (q : Payload HoldFields) : Statement (.legHold tag q) := of_request rfl (by decide) (by intros; simp)
theorem legConnect (tag : Byte) (q : Payload ConnectFields) : Statement (.legConnect tag q) := of_request rfl (by decide) (by intros; simp)
theorem legCancelConnect (tag : Byte) (q : Payload Nat) : Statement (.legCancelConnect tag q) := of_request rfl (by decide) (by intros; simp)
theorem legClose (tag : Byte) (q : Payload Nat) : Statement (.legClose tag q) := of_request rfl (by decide) (by intros; simp)
theorem legStatus (tag : Byte) (q : Payload Nat) : Statement (.legStatus tag q) := of_request rfl (by decide) (by intros; simp)
theorem earBlockEvent (p : PosId) : Statement (.earBlockEvent p) := of_event rfl
theorem sendBlockEvent (l : LegId) : Statement (.sendBlockEvent l) := of_event rfl
theorem hangoverEnd (p : PosId) (presence : Bool) : Statement (.hangoverEnd p presence) := of_event rfl
theorem ecBlockEvent (l : LegId) : Statement (.ecBlockEvent l) := of_event rfl
theorem searchWindowEnd (l : LegId) : Statement (.searchWindowEnd l) := of_event rfl
theorem erleWindowEnd (l : LegId) : Statement (.erleWindowEnd l) := of_event rfl
theorem ecConfig (tag : Byte) (q : Payload EcFields) : Statement (.ecConfig tag q) := of_request rfl (by decide) (by intros; simp)
theorem planSet (tag : Byte) (q : Payload PlanFields) : Statement (.planSet tag q) := of_request rfl (by decide) (by intros; simp)
theorem planDelete (tag : Byte) (q : Payload Nat) : Statement (.planDelete tag q) := of_request rfl (by decide) (by intros; simp)
theorem planInfo (tag : Byte) (q : Payload Nat) : Statement (.planInfo tag q) := of_request rfl (by decide) (by intros; simp)
theorem announcementStep (l : LegId) : Statement (.announcementStep l) := of_event rfl
theorem clipCreate (tag : Byte) (q : Payload CreateFields) : Statement (.clipCreate tag q) := of_request rfl (by decide) (by intros; simp)
theorem clipData (tag : Byte) (q : Payload DataFields) : Statement (.clipData tag q) := of_request rfl (by decide) (by intros; simp)
theorem clipClose (tag : Byte) (q : Payload CloseFields) : Statement (.clipClose tag q) := of_request rfl (by decide) (by intros; simp)
theorem clipDelete (tag : Byte) (q : Payload Nat) : Statement (.clipDelete tag q) := of_request rfl (by decide) (by intros; simp)
theorem clipInfo (tag : Byte) (q : Payload Nat) : Statement (.clipInfo tag q) := of_request rfl (by decide) (by intros; simp)
theorem memoryRelease (tag : Byte) (q : Payload Unit) : Statement (.memoryRelease tag q) := of_request rfl (by decide) (by intros; simp)
theorem memoryReclaim (tag : Byte) (q : Payload Unit) : Statement (.memoryReclaim tag q) := of_request rfl (by decide) (by intros; simp)
theorem scanEntryRead (found : Option (List Byte)) : Statement (.scanEntryRead found) := of_event rfl
theorem fetchComplete (found : Option (List Sample)) : Statement (.fetchComplete found) := of_event rfl
theorem programComplete (found : Option (List Sample)) : Statement (.programComplete found) := of_event rfl
theorem eraseComplete : Statement .eraseComplete := of_event rfl
theorem directoryUpdateComplete : Statement .directoryUpdateComplete := of_event rfl
theorem engineBlockEvent (e : EngId) : Statement (.engineBlockEvent e) := of_event rfl
theorem whisperPrompt (tag : Byte) (q : Payload PromptFields) : Statement (.whisperPrompt tag q) := of_request rfl (by decide) (by intros; simp)
theorem whisperFlush (tag : Byte) (q : Payload Nat) : Statement (.whisperFlush tag q) := of_request rfl (by decide) (by intros; simp)
theorem gapEnd (p : PosId) : Statement (.gapEnd p) := of_event rfl
theorem whisperDeadlineExpiry (p : PosId) : Statement (.whisperDeadlineExpiry p) := of_event rfl
theorem supervise (tag : Byte) (q : Payload SuperviseFields) : Statement (.supervise tag q) := of_request rfl (by decide) (by intros; simp)
theorem superviseEnd (tag : Byte) (q : Payload Nat) : Statement (.superviseEnd tag q) := of_request rfl (by decide) (by intros; simp)
theorem requestFrameReceived (frame : List Byte) : Statement (.requestFrameReceived frame) := of_event rfl
theorem frameDiscarded (frame : List Byte) : Statement (.frameDiscarded frame) := of_event rfl
theorem frameTimeout : Statement .frameTimeout := of_event rfl
theorem unknown (tag : Byte) (code : Byte) : Statement (.unknown tag code) := by
  intro w c e
  simp only [Instr.requestCode, Option.some.injEq] at e
  subst e
  exact .inr ⟨by simpa [Instr.wf] using w, tag, rfl⟩
theorem messageSent : Statement .messageSent := of_event rfl
theorem deviceStatus (tag : Byte) (q : Payload Unit) : Statement (.deviceStatus tag q) := of_request rfl (by decide) (by intros; simp)
theorem deviceReset (tag : Byte) (q : Payload Unit) : Statement (.deviceReset tag q) := of_request rfl (by decide) (by intros; simp)
theorem highwayFrame (frame : HighwayFrame) (wellPlaced : Bool) : Statement (.highwayFrame frame wellPlaced) := of_event rfl
theorem startMarker : Statement .startMarker := of_event rfl

end Sys2Proof.Laws.Coded
end

