-- ==== Sys2Proof/Tests/Slice0.lean ====
section
/-! SUPPORT. Tests: ill-formed commands that the well-formedness check refuses, worked examples of the manual, and, for every statement
with hypotheses, states and operands that meet them. The expected values of the examples are the manual's. -/

namespace Sys2Proof.Tests

open Sys2Proof.Machine

-- One theorem at a time: the kernel evaluations below would otherwise wait for one another in as many threads.
set_option Elab.async false

/-! ## Ill-formed commands are refused -/

/-- A record with every field in range. -/
def goodRecord : RecordFields :=
  ⟨16384, 1024, 8192, 1, 0, 8, 50, 2048, 256, 8, 50, 4096, 125, none, 0, 0, 1, 25, 250, 32, 20⟩

theorem test_wf_requests_accepted :
    (Instr.positionConfig 0 (.fields ⟨1, goodRecord⟩)).wf = true ∧ (Instr.legOpen 0 (.fields ⟨1, 16, .fixed 32⟩)).wf = true ∧
    (Instr.planSet 0 (.fields ⟨1, .program 2, 12000, none, [3], 100, 250, 16384, 0, none⟩)).wf = true ∧
    (Instr.portEnable 0 .malformed).wf = true ∧ (Instr.requestFrameReceived [1, 0x70, 5, 0, 0, 0, 0]).wf = true := by decide

theorem test_wf_field_sizes :
    (Instr.portEnable 0 (.fields 65536)).wf = false ∧ (Instr.positionMute 0 (.fields ⟨1, 256⟩)).wf = false ∧
    (Instr.positionConfig 0 (.fields ⟨1, { goodRecord with earVolume := 32768 }⟩)).wf = false ∧
    (Instr.positionConfig 0 (.fields ⟨1, { goodRecord with fallback := some 65536 }⟩)).wf = false ∧
    (Instr.legOpen 0 (.fields ⟨1, 16, .other 1⟩)).wf = false ∧ (Instr.legHold 0 (.fields ⟨1, some 65536⟩)).wf = false ∧
    (Instr.legConnect 0 (.fields ⟨1, 65536, none⟩)).wf = false ∧
    (Instr.ecConfig 0 (.fields ⟨1, none, none, some 32768, 0⟩)).wf = false ∧
    (Instr.planSet 0 (.fields ⟨1, .other 2, 0, none, [], 0, 0, 0, 0, none⟩)).wf = false ∧
    (Instr.clipCreate 0 (.fields ⟨1, 4294967296, none⟩)).wf = false ∧ (Instr.clipData 0 (.fields ⟨1, 4294967296, []⟩)).wf = false ∧
    (Instr.clipClose 0 (.fields ⟨1, 4294967296⟩)).wf = false ∧ (Instr.whisperPrompt 0 (.fields ⟨1, 1, 256, 0⟩)).wf = false ∧
    (Instr.supervise 0 (.fields ⟨1, 2, 256⟩)).wf = false := by decide

theorem test_wf_event_sizes :
    (Instr.upFrame 0 ⟨[], ⟨false, false, false, false⟩, false⟩ 0).wf = false ∧ (Instr.highwayFrame ⟨[], []⟩ true).wf = false ∧
    (Instr.syncRegained ⟨[], []⟩).wf = false ∧ (Instr.scanEntryRead (some [0])).wf = false ∧
    (Instr.fetchComplete (some [0])).wf = false ∧ (Instr.programComplete (some [])).wf = false ∧
    (Instr.requestFrameReceived []).wf = false ∧ (Instr.frameDiscarded (List.replicate 1029 0)).wf = false ∧
    (Instr.unknown 0 0x10).wf = false := by decide +kernel

/-- No word of the opcode table spells a command, for no row has bits. -/
theorem test_no_word_spells_a_command : decodeTableWord 8 0 = none ∧ decodeTableWord 32 1 = none := ⟨rfl, rfl⟩

/-! ## The manual's worked examples -/

/-- R183. -/
theorem test_check_of_123456789 : crc [0x31, 0x32, 0x33, 0x34, 0x35, 0x36, 0x37, 0x38, 0x39] = 0x29B1 := by decide +kernel

/-- Table 1-3. -/
theorem test_volume_presses :
    volumeUp 16384 = 18433 ∧ volumeUp 18433 = 20738 ∧ volumeUp 29530 = 32767 ∧ volumeDown 1100 = 1024 ∧ volumeDown 16384 = 14336 := by
  decide

/-- Table 3-4: the mix sample, and its way through ear volume and limiter. -/
theorem test_mix_sample :
    mixSample [⟨⟨.rx 5, .caller, 16384, 10000, 16, false⟩, 4096, [12000]⟩,
      ⟨⟨.engine 0, .whisper, 16384, 16384, 16, false⟩, 16384, [BitVec.ofInt 16 (-8000)]⟩,
      ⟨⟨.mic 5, .sidetone, 2048, 2048, 16, false⟩, 2048, [3000]⟩] = BitVec.ofInt 16 (-301) ∧
    scale (BitVec.ofInt 16 (-301)) 20000 = BitVec.ofInt 16 (-367) ∧
    limit 16384 8192 1 (BitVec.ofInt 16 (-367)) = (BitVec.ofInt 16 (-367), 16384) ∧ stepToward 10000 4096 16 = 9984 := by decide +kernel

/-- Table 3-5: the limiter's clamp, its recovery by one step, and the clamp again. -/
theorem test_limiter :
    limit 16384 8192 1 32767 = (8192, 4096) ∧ limit 4096 8192 1 32767 = (8192, 4097) ∧ limit 4097 8192 1 32767 = (8192, 4096) := by
  decide +kernel

/-- Table 4-2: floor, state and hangover count over eight blocks. -/
theorem test_floor_and_vad :
    nextFloor 1000 5000 false = 1004 ∧ nextFloor 1004 700 false = 700 ∧ nextFloor 700 700 false = 703 ∧ nextFloor 706 10 false = 16 ∧
    nextFloor 16 200 true = 16 ∧ nextVad .quiet 0 50 true = (.speech, 0) ∧ nextVad .speech 0 50 false = (.hangover, 50) ∧
    nextVad .hangover 48 50 false = (.hangover, 47) ∧ nextVad .hangover 1 50 false = (.quiet, 0) := by decide

/-- Table 5-5. -/
theorem test_coefficient_update :
    updateTap 1000 1 10000000 12000 2000 = 15255 ∧ updateTap 1000 3 10000000 12000 2000 = 12813 ∧
    updateTap (-1000) 1 10000000 12000 2000 = 8745 ∧ updateTap 1000 1 10000000 31000 2000 = 32767 := by decide +kernel

/-- Table 5-4: the smaller of two candidates that tie. -/
theorem test_best_candidate :
    bestCandidate [0, 0, 0, 0, 0, 0, 0, 18442107, 61930554, 97215880, 97215880, 40118662] = 9 := by decide +kernel

/-- The pool of Example 5.2 before its first event: ten free segments, and no leg in the queue. -/
def busyPool : State := { State.reset with pool := ⟨[100, 101, 102, 103, 104, 105, 106, 107, 108, 109], []⟩ }

/-- Table 5-1, its first row: L30 takes all ten, owes 6, and has a start point. -/
theorem test_example_5_2_open :
    let t := busyPool.openEc 30 16 .auto 0
    (t.leg 30).ec.segments = [100, 101, 102, 103, 104, 105, 106, 107, 108, 109] ∧ t.pool = ⟨[], [⟨30, 6⟩]⟩ ∧
    (t.leg 30).ec.state = .search ∧ t.link.reports.map Report.body = [.ecTaps 30 10 6] := by decide +kernel

/-- Table 6-8: the stored form of an EMPTY entry is 144 zero bytes and a zero check. -/
theorem test_empty_entry : entryImage Clip.empty = List.replicate 146 0 := by decide +kernel

/-- R136: a flash that was never written reads as an entry whose check does not match, taken as EMPTY without complaint. -/
theorem test_unwritten_entry : readEntry (List.replicate 146 0xFF) = .blank := by decide +kernel

/-- R184, Table 9-5: LEG_CONNECT of leg 2 to position 3 with whisper clip 258. -/
theorem test_connect_payload : readPayload connectFields [2, 0, 3, 0, 1, 2, 1] = .fields ⟨2, 3, some 258⟩ := by decide +kernel

/-- R142: by class, and by arrival within a class. -/
theorem test_wait_queue_order :
    (enqueue ⟨.leg 1, 7⟩ [⟨.whisper 0, 1⟩, ⟨.leg 2, 2⟩, ⟨.shared 0, 3⟩]).map WaitEntry.clip = [1, 2, 7, 3] := by decide +kernel

/-! ## States that meet the hypotheses of the statements -/

/-- After hardware reset. -/
abbrev r : State := State.reset

/-- Port P1 changed after reset. -/
def port (f : Port → Port) : State := r.modPort 1 f
/-- Position P1 changed after reset. -/
def posn (f : Position → Position) : State := r.modPos 1 f
/-- Leg L2 changed after reset. -/
def lg (f : Leg → Leg) : State := r.modLeg 2 f
/-- L2's canceller changed on an OPEN leg after reset. -/
def ecs (f : Canceller → Canceller) : State := r.modLeg 2 fun x => { x with state := .opened, ec := f x.ec }
/-- P1 in a port state. -/
def inState (x : PortState) : State := port fun y => { y with state := x }
/-- The memory owned by the part. -/
def owned : State := { r with memory := ⟨.owned, none, none, [], []⟩ }
/-- C5 in a state with a length of 640 samples on slab 9. -/
def clipIn (x : ClipState) : State := owned.modClip 5 fun _ => ⟨x, 640, none, [9], 0, 0⟩
/-- C5 being written, the first 64 samples received, its slab erased. -/
def writing : State := { clipIn .writing with write := ⟨some 5, 64, 1, 64, 0, [], none⟩ }
/-- A plan with a program background. -/
def planRecord : PlanRecord := ⟨.program 2, 12000, none, [5], 100, 250, 16384, false, none⟩
/-- H4 defined. -/
def planned : State := r.modPlan 4 fun _ => ⟨some planRecord, 0, none, false⟩
/-- E3 in a state, owned by L2's session, on C5. -/
def engineIn (x : EngineState) (closing : Nat) (buffer : List Fetched) : State :=
  (clipIn .ready).modEng 3 fun y => { y with
    state := x, owner := some (.leg 2), cls := 1, clip := some 5, buffer := buffer, closing := closing, grant := 1 }
/-- P1 LIVE with a queue. -/
def queued (q : WhisperQueue) : State := posn fun x => { x with port := { x.port with state := .live }, whisper := q }
/-- A PROMPT on C5 with host tag 7. -/
def aPrompt : WhisperEntry := ⟨.prompt true 7, 5, false⟩

/-- A state whose link stands as after reset takes requests. -/
theorem ready (s : State) (h : s.link = r.link) : Ready s := by
  unfold Ready
  rw [h]
  exact ⟨rfl, rfl, by decide⟩

/-- The law of attachment holds where every leg is as after reset and no position has a leg or a whisper. -/
theorem attach_of_no_calls (s : State) (hl : s.legs = r.legs) (hp : ∀ p, (s.pos p).leg = none ∧ (s.pos p).whisper.entries = []) :
    AttachLaw s := by
  have k : ∀ l, s.leg l = Leg.reset := by intro l; simp [State.leg, tget, hl, State.reset]
  refine ⟨?_, ?_, ?_, ?_, ?_⟩
  · intro l p; simp [k, hp, Leg.reset]
  · intro l; simp [k, Leg.reset]
  · intro p w l h; simp [hp] at h
  · intro l p h; simp [k, Leg.reset] at h
  · intro p; simp [hp]

/-- The law of supervision holds where nobody supervises. -/
theorem super_of_none (s : State) (h : ∀ p, (s.pos p).supervision = none) : SuperLaw s := by
  intro q x hx; simp [h] at hx

/-- A changed port leaves the laws of attachment and supervision as after reset. -/
theorem laws_port (f : Port → Port) : AttachLaw (port f) ∧ SuperLaw (port f) := by
  have key : ∀ p, ((port f).pos p).leg = none ∧ ((port f).pos p).whisper.entries = [] ∧ ((port f).pos p).supervision = none := by
    intro p
    by_cases e : p = 1
    · subst e; exact ⟨rfl, rfl, rfl⟩
    · have : (port f).pos p = Position.reset := by
        have e' : (1 : PosId).val ≠ p.val := fun h => e (Fin.ext h.symm)
        unfold port State.modPort State.modPos State.pos tget tset
        simp only
        rw [Vector.getElem_set_ne _ _ e']
        simp [State.reset]
      rw [this]; exact ⟨rfl, rfl, rfl⟩
  exact ⟨attach_of_no_calls _ rfl fun p => ⟨(key p).1, (key p).2.1⟩, super_of_none _ fun p => (key p).2.2⟩

/-- The law of attachment, from checks over the legs, the positions and their entries. -/
theorem attach_of_checks (s : State)
    (names : ∀ l, ∀ p ∈ (s.leg l).attached, (s.pos p).leg = some l)
    (named : ∀ p, ∀ l ∈ (s.pos p).leg, (s.leg l).attached = some p)
    (states : ∀ l, (s.leg l).attached.isSome = true ↔ ((s.leg l).state = .connecting ∨ (s.leg l).state = .active))
    (calls : ∀ p, ∀ w ∈ (s.pos p).whisper.entries, ∀ l, w.isCallOf l = true →
      (s.leg l).state = .connecting ∧ (s.leg l).attached = some p)
    (called : ∀ l, (s.leg l).state = .connecting → ∀ p ∈ (s.leg l).attached, ∃ w ∈ (s.pos p).whisper.entries, w.isCallOf l = true)
    (one : ∀ p, ((s.pos p).whisper.entries.filter fun w => !w.isPrompt).length ≤ 1) : AttachLaw s :=
  ⟨fun l p => ⟨names l p, named p l⟩, states, fun p w l h => calls p w h l, fun l p hc ha => called l hc p ha, one⟩

/-- P1 LIVE, its MUTE and TALK buttons pressed, L2 ACTIVE on it; P9 supervises it. -/
def onCall : State :=
  ((r.modPos 1 fun x => { x with
    leg := some 2, mute := true, port := { x.port with state := .live, unplugCount := 1, buttons := ⟨⟨true, 0⟩, .released, .released, ⟨true, 0⟩⟩ } }).modPos 9
    fun x => { x with supervision := some ⟨1, .coach⟩ }).modLeg 2 fun x => { x with state := .active, attached := some 1, last := some 1 }

/-- P1 LOST in a recovery window, L2 CONNECTING to it from HELD behind its CALL_WHISPER. -/
def onWay : State :=
  (r.modPos 1 fun x => { x with
    leg := some 2, whisper := ⟨[⟨.call 2, 5, false⟩], .waiting 0, none, none⟩
    port := { x.port with state := .lost, window := some 249 } }).modLeg 2 fun x => { x with
      state := .connecting, attached := some 1, origin := some .held, session := some ⟨none, .background, none, 0, none⟩ }

/-- The laws that the statements on the release sequence assume hold with a leg ACTIVE and with a leg CONNECTING. -/
theorem witness_Released :
    AttachLaw onCall ∧ SuperLaw onCall ∧ AttachLaw onWay ∧ SuperLaw onWay ∧
    (onCall.pos 1).port.state = .live ∧ (onCall.pos 1).port.unplugCount + 1 = 2 ∧ (onCall.leg 2).state = .active ∧
    (onWay.pos 1).port.window = some 249 ∧ (onWay.leg 2).state = .connecting ∧
    onCall.releaseReports 1 .unplug = [.talkButton 1 false, .legState 2 .held .unplug (some 1) none,
      .supervisionEnded 9 1 .coach .unplug, .muteChanged 1 .release false] ∧
    onWay.releaseReports 1 .linkLost = [.whisperAborted ⟨1, 5, 0, some .release⟩, .connectAborted 2 1] := by
  refine ⟨attach_of_checks _ ?_ ?_ ?_ ?_ ?_ ?_, ?_, attach_of_checks _ ?_ ?_ ?_ ?_ ?_ ?_, ?_, rfl, rfl, rfl, rfl, rfl,
    by decide +kernel, by decide +kernel⟩
  case refine_7 =>
    have k : ∀ q, ∀ x ∈ (onCall.pos q).supervision, q = 9 ∧ x = ⟨1, .coach⟩ := by decide +kernel
    intro q x hx
    obtain ⟨rfl, rfl⟩ := k q x hx
    refine ⟨by decide, rfl, fun q' x' h' => ?_⟩
    obtain ⟨rfl, rfl⟩ := k q' x' h'
    exact ⟨by decide, fun _ => rfl⟩
  case refine_14 => exact super_of_none _ (by decide +kernel)
  all_goals decide +kernel

theorem witness_StepTakesFrontCommand : r.pending = [] := rfl

theorem witness_DeviceResetAndSoftReset :
    Ready r ∧
    let s := { r with link := { r.link with paused := true, sending := .reply, replies := [⟨0x71, 9, .ok, .none⟩], position := 7 } }
    s.link.paused = true ∧ s.link.sending = .reply ∧ s.link.replies = ⟨0x71, 9, .ok, .none⟩ :: [] ∧ s.memory.mode ≠ .releasing ∧
    s.link.position + ([255, 255] : List Byte).length = (⟨0x71, 9, .ok, .none⟩ : Reply).frame.length ∧ s.link.receiver = .hunt ∧
    (0xA5 : Byte) ∉ ([255, 255] : List Byte) ∧ Brings s .softReset [255, 255] ∧
    (s.setReceiver (.frame 0 [1, 2])).link.receiver = .frame 0 [1, 2] ∧ ([1, 2] : List Byte).length + ([255, 255] : List Byte).length < 5 ∧
    (s.highway.period - 0).toNat ≤ 250 :=
  ⟨ready _ rfl, rfl, rfl, rfl, by decide, by decide +kernel, rfl, by decide,
    .inr (.inr (.inr (.inl ⟨_, _, rfl, rfl, by decide +kernel, .inr ⟨rfl, rfl, rfl, rfl⟩⟩))), rfl, by decide, by decide +kernel⟩

theorem witness_PortEnableAndDisable :
    Ready (inState .disabled) ∧ ((inState .disabled).pos 1).port.state = .disabled ∧ (r.pos 31).port.state = .absent ∧
    Ready (inState .live) ∧ ((inState .live).pos 1).port.state = .live ∧ AttachLaw (inState .live) ∧ SuperLaw (inState .live) :=
  ⟨ready _ rfl, rfl, rfl, ready _ rfl, rfl, (laws_port _).1, (laws_port _).2⟩

theorem witness_PositionConfigAndMute :
    Ready r ∧ (goodRecord.nsEnable < 2 ∧ goodRecord.muteMode < 3 ∧ goodRecord.volumeMode < 2 ∧ goodRecord.pushToTalk < 2
      ∧ goodRecord.fallback = none) ∧ ¬ ({ goodRecord with muteMode := 3 } : RecordFields).muteMode < 3 ∧
    (r.pos 1).mute = decide ((1 : Nat) = 0) ∧ (r.pos 1).mute ≠ decide ((0 : Nat) = 0) :=
  ⟨ready _ rfl, by decide, by decide, rfl, by decide⟩

theorem witness_PositionReads :
    Ready onCall ∧ ((inState .qualifying).pos 1).port.state = .qualifying ∧ (onCall.pos 1).port.state ≠ .qualifying ∧
    (onCall.pos 9).supervision = some ⟨1, .coach⟩ ∧ (onCall.pos 1).supervision = none ∧ onCall.supervisorOf 1 = some 9 ∧
    (r.pos 1).supervision = none ∧ r.supervisorOf 1 = none :=
  ⟨ready _ rfl, rfl, by decide +kernel, rfl, rfl, by decide +kernel, rfl, by decide +kernel⟩

theorem witness_UpFrameOutsideLive :
    (r.pos 1).port.state = .absent ∧ ((inState .qualifying).pos 1).port.state = .qualifying ∧
    ((inState .lost).pos 1).port.state = .lost ∧
    ((inState .acquiring).pos 1).port.state = .acquiring ∧ ((inState .acquiring).pos 1).port.interval = none ∧
    ((port fun x => { x with state := .acquiring, interval := some ⟨0, 254⟩ }).pos 1).port.interval = some ⟨0, 254⟩ ∧
    ((port fun x => { x with state := .acquiring, interval := some ⟨0, 255⟩, previous := some 20 }).pos 1).port.previous = some 20 ∧
    sat16Int (((256000000 - ((256000000 - 0 : Nat) : Int)) * 1000000).tdiv ((256000000 - 0 : Nat) : Int)) = 0 ∧
    300 < sat16Int (((256000000 - ((255900000 - 0 : Nat) : Int)) * 1000000).tdiv ((255900000 - 0 : Nat) : Int)) ∧
    ((posn fun x => { x with config := { x.config with qualification := 0 } }).pos 1).config.qualification = 0 ∧
    0 < ((inState .acquiring).pos 1).config.qualification := by decide +kernel

theorem witness_UpFrameInLive :
    let s := port fun x => { x with
      state := .live, buttons := ⟨⟨false, 3⟩, .released, .released, .released⟩, uplink := { x.uplink with samples := List.replicate 176 0 } }
    (s.pos 1).port.state = .live ∧ (s.pos 1).port.uplink.samples.length ≤ 176 ∧ (s.pos 1).port.buttons.mute = ⟨false, 3⟩ ∧
    (s.pos 1).config.muteMode = .toggle ∧ (s.pos 1).port.lastGood = none ∧
    evenParity (List.replicate 16 0) [true, false, false, false] true = true ∧
    evenParity (List.replicate 16 0) [true, false, false, false] false = false := by decide +kernel

/-- P1 LIVE with 180 samples in its uplink buffer and its four buttons one good frame from acting. -/
def ripe : State := port fun x => { x with
  state := .live, buttons := ⟨⟨false, 3⟩, ⟨false, 3⟩, ⟨false, 3⟩, ⟨false, 3⟩⟩, uplink := ⟨List.replicate 180 0, 0, 0, 0⟩ }

/-- The same with the buttons pressed and about to be released. -/
def unripe : State := port fun x => { x with
  state := .live, buttons := ⟨⟨true, 3⟩, ⟨true, 3⟩, ⟨true, 3⟩, ⟨true, 3⟩⟩ }

theorem witness_ButtonsAct :
    176 < (ripe.pos 1).port.uplink.samples.length ∧
    OnlyActs (ripe.pos 1).port ⟨true, false, false, false⟩ .mute ∧ OnlyActs (ripe.pos 1).port ⟨false, true, false, false⟩ .volUp ∧
    OnlyActs (ripe.pos 1).port ⟨false, false, true, false⟩ .volDown ∧ OnlyActs (ripe.pos 1).port ⟨false, false, false, true⟩ .talk ∧
    OnlyActs (unripe.pos 1).port ⟨true, false, true, true⟩ .volUp ∧ OnlyActs (unripe.pos 1).port ⟨true, true, false, true⟩ .volDown ∧
    ∀ b, ¬ Acts (ripe.pos 1).port ⟨false, false, false, false⟩ b := by
  unfold OnlyActs Acts
  refine ⟨by decide +kernel, ?_, ?_, ?_, ?_, ?_, ?_, ?_⟩
  case refine_7 => intro b; cases b <;> decide +kernel
  all_goals exact ⟨by decide +kernel, fun b h => by cases b <;> first | exact absurd rfl h | decide +kernel⟩

theorem witness_DownFrameSent :
    (r.pos 1).port.state ≠ .qualifying ∧ (r.pos 1).port.state ≠ .live ∧ ((inState .qualifying).pos 1).port.state = .qualifying ∧
    ((inState .live).pos 1).port.state = .live ∧ ((inState .live).pos 1).port.downlink.samples.length < 16 ∧
    16 ≤ ((port fun x => { x with state := .live, downlink := ⟨List.replicate 16 0, 0, 0, 0⟩ }).pos 1).port.downlink.samples.length := by
  decide +kernel

theorem witness_MissedFramesAndLockLoss :
    ((port fun x => { x with state := .live, missing := 2 }).pos 1).port.missing + 1 < 4 ∧
    4 ≤ ((port fun x => { x with state := .live, missing := 3 }).pos 1).port.missing + 1 ∧
    4 ≤ ((port fun x => { x with state := .qualifying, missing := 3 }).pos 1).port.missing + 1 ∧
    (∀ b, (buttonOf (r.pos 1).port.buttons b).pressed = false) :=
  ⟨by decide +kernel, by decide +kernel, by decide +kernel, by intro b; cases b <;> rfl⟩

theorem witness_HeadsetInsertion :
    ((inState .disabled).pos 1).port.state = .disabled ∧ ((port fun x => { x with insertCount := 10 }).pos 1).port.insertCount + 1 < 12 ∧
    12 ≤ ((port fun x => { x with insertCount := 11 }).pos 1).port.insertCount + 1 ∧ (r.pos 1).port.state = .absent ∧
    ((inState .detected).pos 1).port.state = .detected := by decide +kernel

theorem witness_Unplug :
    let s := port fun x => { x with state := .live, unplugCount := 1 }
    let u := port fun x => { x with state := .acquiring, unplugCount := 1 }
    (s.pos 1).port.unplugCount + 1 = 2 ∧ (s.pos 1).port.state = .live ∧ AttachLaw s ∧ SuperLaw s ∧
    (u.pos 1).port.unplugCount + 1 = 2 ∧ (u.pos 1).port.state = .acquiring ∧ (u.pos 1).port.window = none :=
  ⟨rfl, rfl, (laws_port _).1, (laws_port _).2, rfl, rfl, rfl⟩

theorem witness_PortLive :
    let s := port fun x => { x with state := .qualifying, qualCount := 24 }
    (s.pos 1).port.state = .qualifying ∧ (s.pos 1).config.qualification ≤ (s.pos 1).port.qualCount + 1 ∧ (s.pos 1).port.window = none := by
  decide +kernel

theorem witness_RecoveryWindowExpiry :
    let s := port fun x => { x with state := .lost, window := some 249 }
    (s.pos 1).port.window = some 249 ∧ (s.pos 1).config.recovery ≤ 249 + 1 ∧ (s.pos 1).port.state = .lost ∧ AttachLaw s ∧ SuperLaw s :=
  ⟨rfl, by decide +kernel, rfl, (laws_port _).1, (laws_port _).2⟩

theorem witness_DrawAndHangoverEnd :
    let s := posn fun x => { x with
      port := { x.port with state := .live, uplink := ⟨List.replicate 65 0, 0, 0, 0⟩ }, ns := ⟨1024, .hangover, 1, 16384⟩ }
    (s.pos 1).port.state = .live ∧ (s.pos 1).port.priming = false ∧ 65 ≤ (s.pos 1).port.uplink.samples.length ∧
    (s.pos 1).port.uplink.samples.length ≤ 191 ∧
    energy ((s.pos 1).port.uplink.samples.take 64) < (s.pos 1).ns.floor * (s.pos 1).config.nsRatio ∧
    (s.pos 1).ns.vad = .hangover ∧ (s.pos 1).ns.hangover ≤ 1 := by decide +kernel

/-- P1 LIVE with a number of loud samples in its uplink buffer, priming or not, beside a begun PROMPT that stops on speech. -/
def loud (priming : Bool) (n : Nat) : State :=
  (posn fun x => { x with
    port := { x.port with state := .live, priming := priming, uplink := ⟨List.replicate n 1000, 0, 0, 0⟩ }
    whisper := ⟨[{ aPrompt with begun := true }], .granted 3, none, none⟩ }).modEng 3 fun x => { x with state := .playing }

theorem witness_Draws :
    ((loud true 127).pos 1).port.priming = true ∧ ((loud true 127).pos 1).port.uplink.samples.length < 128 ∧
    128 ≤ ((loud true 128).pos 1).port.uplink.samples.length ∧ ((loud true 128).pos 1).port.uplink.samples.length ≤ 191 ∧
    192 ≤ ((loud false 192).pos 1).port.uplink.samples.length ∧ ((loud false 63).pos 1).port.uplink.samples.length = 63 ∧
    ((loud false 62).pos 1).port.uplink.samples.length = 62 ∧ ((loud false 0).pos 1).port.uplink.samples = [] ∧
    (let s := loud false 100
     (s.pos 1).ns.floor * (s.pos 1).config.nsRatio ≤ energy ((s.pos 1).port.uplink.samples.take 64) ∧ (s.pos 1).ns.vad ≠ .speech ∧
     (s.pos 1).whisper.entries = [{ aPrompt with begun := true }] ∧ (s.pos 1).whisper.head = .granted 3 ∧
     aPrompt.kind = .prompt true 7 ∧ (s.eng 3).state = .playing ∧ (s.eng 3).closing = 0) ∧
    ((inState .acquiring).pos 1).port.window = none := by decide +kernel

theorem witness_HighwayAndPeriods :
    ({ r with highway := { r.highway with state := .inSync } } : State).highway.state = .inSync ∧ r.highway.state = .holdover ∧
    ({ r with highway := { r.highway with pulses := 14 } } : State).highway.pulses + 1 < 16 ∧
    16 ≤ ({ r with highway := { r.highway with pulses := 15 } } : State).highway.pulses + 1 := by decide +kernel

theorem witness_LegOpen :
    Ready r ∧ (r.leg 2).state = .idle ∧ r.pool.queue = [] ∧ min 16 16 ≤ r.pool.free.length ∧
    Ready ({ r with pool := ⟨[4, 5], []⟩ } : State) ∧ ([4, 5] : List Nat).length < min 3 16 ∧ ([4] : List Nat).length < min 2 16 ∧
    ((lg fun x => { x with state := .held }).leg 2).state ≠ .idle :=
  ⟨ready _ rfl, rfl, rfl, by decide +kernel, ready _ rfl, by decide, by decide, by decide +kernel⟩

theorem witness_LegHold :
    Ready planned ∧ (∀ h : PlanId, h.val = 16 → (planned.plan h).record = none) ∧ (planned.leg 2).state = .idle ∧
    (let s := planned.modLeg 2 fun x => { x with state := .opened, resume := some ⟨4, 1⟩ }
     Ready s ∧ (s.leg 2).state = .opened ∧ (s.plan 4).record = some planRecord ∧ planRecord.greeting = none) ∧
    (let s := planned.modLeg 2 fun x => { x with state := .held, session := some ⟨some 4, .background, some 7, 0, none⟩ }
     (s.leg 2).state = .held ∧ (s.leg 2).session = some ⟨some 4, .background, some 7, 0, none⟩ ∧ planRecord.resume = false) :=
  ⟨ready _ rfl, fun h e => absurd e (by omega), rfl, ⟨ready _ rfl, rfl, rfl, rfl⟩, rfl, rfl, rfl⟩

/-- H4 with C5 as its shared background and a number of users; C5 READY or not. -/
def streamed (users : Nat) (x : ClipState) : State :=
  { ((clipIn x).modPlan 4 fun _ => ⟨some { planRecord with background := .shared 5 }, users, none, false⟩).modLeg 2
      fun y => { y with state := .opened } with arbiter := ⟨[], [], 7, false⟩ }

theorem witness_LegHoldStream :
    Ready (streamed 0 .ready) ∧ ((streamed 0 .ready).leg 2).state = .opened ∧ ((streamed 0 .ready).plan 4).useCount = 0 ∧
    ((streamed 0 .ready).plan 4).bound = none ∧ ((streamed 0 .ready).plan 4).pending = false ∧
    (streamed 0 .ready).isReady 5 = true ∧ (streamed 0 .ready).arbiter.scanning = false ∧
    (∀ e, ((streamed 0 .ready).eng e).state = .free) ∧ 0 < ((streamed 2 .ready).plan 4).useCount ∧
    (streamed 0 .damaged).isReady 5 = false ∧
    (let s : State := { streamed 0 .ready with
       engines := Vector.replicate 24 { Engine.idle with state := .playing, owner := some (.leg 0), cls := 1 } }
     (∀ e, (s.eng e).state ≠ .free ∧ (s.eng e).owner ≠ some (.shared 4))) ∧
    (let s := (planned.modPlan 9 fun _ => ⟨some planRecord, 2, none, false⟩).modLeg 2 fun x => { x with
       state := .held, session := some ⟨some 9, .background, some 7, 0, none⟩ }
     Ready s ∧ (s.leg 2).session = some ⟨some 9, .background, some 7, 0, none⟩ ∧ 1 < (s.plan 9).useCount ∧
     (s.plan 4).record = some planRecord ∧ planRecord.greeting = none ∧ planRecord.resume = false) :=
  ⟨ready _ rfl, rfl, rfl, rfl, rfl, by decide +kernel, rfl, by decide +kernel, by decide +kernel, by decide +kernel, by decide +kernel,
    ready _ rfl, rfl, by decide +kernel, rfl, rfl, rfl⟩

/-- L2 on its way to H4, whose greeting is C5, READY or not; the plan has a number of users and a background. -/
def greeted (x : ClipState) (users : Nat) (b : Background) : State :=
  { (((clipIn x).modClip 6 fun _ => ⟨.ready, 64, none, [10], 0, 0⟩).modPlan 4 fun _ =>
      ⟨some { planRecord with greeting := some 5, background := b, resume := true }, users, none, false⟩).modLeg 2 fun y => { y with
        state := .opened } with arbiter := ⟨[⟨.shared 1, 6⟩], [], 7, false⟩ }

theorem witness_LegHoldGreeting :
    Ready (greeted .ready 0 .absent) ∧ ((greeted .ready 0 .absent).leg 2).state = .opened ∧
    ((greeted .ready 0 .absent).plan 4).record = some { planRecord with greeting := some 5, background := .absent, resume := true } ∧
    (greeted .ready 0 .absent).isReady 5 = true ∧ (greeted .damaged 0 .absent).isReady 5 = false ∧
    ((greeted .ready 0 .absent).leg 2).resume = none ∧ (greeted .ready 0 .absent).arbiter.scanning = false ∧
    (∀ d, ((greeted .ready 0 .absent).eng d).state = .free) ∧
    (let s := greeted .ready 0 (.shared 6)
     (s.plan 4).useCount = 0 ∧ s.isReady 6 = true ∧ (s.plan 4).bound = none ∧ (s.plan 4).pending = false ∧
     (0 : EngId) < 1 ∧ ∀ k : EngId, k < 1 → k ≠ 0 → (s.eng k).state ≠ .free) ∧
    (let s := { greeted .ready 2 .absent with engines := Vector.replicate 24 { Engine.idle with state := .stopping, owner := some (.leg 2) } }
     0 < (s.plan 4).useCount ∧ (s.eng 0).state ≠ .free ∧ (s.eng 0).owner = some (.leg 2)) ∧
    (let s := (greeted .ready 2 .absent).modLeg 2 fun y => { y with
        state := .held, session := some ⟨none, .background, none, 0, none⟩, resume := some ⟨4, 1⟩ }
     (s.leg 2).state = .held ∧ (s.leg 2).session = some ⟨none, .background, none, 0, none⟩ ∧ (s.leg 2).resume = some ⟨4, 1⟩) := by
  refine ⟨ready _ rfl, ?_⟩
  decide +kernel

theorem witness_Enqueued :
    Enqueued [⟨.whisper 0, 1⟩, ⟨.leg 3, 2⟩, ⟨.shared 1, 6⟩] [⟨.whisper 0, 1⟩, ⟨.leg 3, 2⟩, ⟨.leg 2, 5⟩, ⟨.shared 1, 6⟩] ⟨.leg 2, 5⟩ :=
  ⟨[⟨.whisper 0, 1⟩, ⟨.leg 3, 2⟩], [⟨.shared 1, 6⟩], rfl, by decide, by decide, rfl⟩

/-- R154, R155: the greeting's request goes to the lower FREE engine, and not past a plan's waiting request; a greeting that is not READY
is skipped. -/
theorem test_greeting_begins :
    (((greeted .ready 0 .absent).holdLeg 2 (some 4)).leg 2).session = some ⟨some 4, .greeting, none, 0, some ⟨5, none, some 0⟩⟩ ∧
    (((greeted .ready 0 (.shared 6)).holdLeg 2 (some 4)).leg 2).session = some ⟨some 4, .greeting, none, 0, some ⟨5, none, some 1⟩⟩ ∧
    (((greeted .damaged 0 .absent).holdLeg 2 (some 4)).leg 2).session = some ⟨some 4, .background, some 100, 0, none⟩ := by
  decide +kernel

theorem witness_LegConnect :
    let s := (inState .live).modLeg 2 fun x => { x with state := .opened }
    Ready s ∧ (s.leg 2).state = .opened ∧ (s.pos 1).port.state = .live ∧ (s.pos 1).leg = none ∧ (s.pos 1).supervision = none ∧
    (s.leg 2).session = none ∧
    (let u := (queued ⟨[{ aPrompt with begun := true }, aPrompt, aPrompt], .granted 3, none, none⟩).modLeg 2 fun x =>
        { x with state := .opened }
     (u.pos 1).whisper.entries = { aPrompt with begun := true } :: [aPrompt, aPrompt] ∧ (u.pos 1).whisper.head = .granted 3 ∧
     (u.pos 1).port.state = .live) ∧ (r.leg 2).state ≠ .opened :=
  ⟨ready _ rfl, rfl, rfl, rfl, rfl, rfl, ⟨rfl, rfl, rfl⟩, by decide +kernel⟩

/-- P1 LIVE, L2 HELD on H4, which is bound to E7 on C5 and has a number of users, with an announcement's request of its own. -/
def onPlan (users : Nat) (y : Option SessionRequest) : State :=
  (((((clipIn .ready).modPlan 4 fun _ => ⟨some planRecord, users, some 7, false⟩).modEng 7 fun x => { x with
    state := .playing, owner := some (.shared 4), clip := some 5 }).modEng 3 fun x => { x with
    state := .playing, owner := some (.leg 2), clip := some 5 }).modPort 1 fun x => { x with state := .live }).modLeg 2 fun x => { x with
    state := .held, session := some ⟨some 4, .background, some 7, 1, y⟩ }

theorem witness_SessionsEnd :
    AttachLaw (onPlan 2 none) ∧ Ready (onPlan 2 none) ∧ 1 < ((onPlan 2 none).plan 4).useCount ∧
    ((onPlan 1 none).plan 4).useCount = 1 ∧ ((onPlan 1 none).plan 4).bound = some 7 ∧ ((onPlan 1 none).eng 7).state ≠ .free ∧
    ((onPlan 1 none).eng 7).clip = some 5 ∧ ((onPlan 1 none).clip 5).state = .ready ∧ (onPlan 1 none).arbiter.queue = [] ∧
    (onPlan 1 none).arbiter.held = [] ∧ ((onPlan 1 none).leg 2).state = .held ∧ ((onPlan 1 none).pos 1).port.state = .live ∧
    ((onPlan 1 none).pos 1).leg = none ∧ ((onPlan 1 none).pos 1).supervision = none ∧
    ((onPlan 2 (some ⟨5, some 0, none⟩)).leg 2).session = some ⟨some 4, .background, some 7, 1, some ⟨5, some 0, none⟩⟩ ∧
    ((onPlan 2 (some ⟨5, some 0, some 3⟩)).eng 3).state = .playing ∧ ((onPlan 2 (some ⟨5, some 0, some 3⟩)).eng 3).closing = 0 ∧
    ((onPlan 2 none).plan 4).bound ≠ some 3 := by
  refine ⟨attach_of_checks _ ?_ ?_ ?_ ?_ ?_ ?_, ready _ rfl, ?_⟩
  all_goals decide +kernel

theorem witness_LegCancelConnect :
    let s := (queued ⟨[⟨.call 2, 5, false⟩], .waiting 0, none, none⟩).modLeg 2 fun x =>
      { x with state := .connecting, attached := some 1, origin := some .held }
    Ready s ∧ (s.leg 2).state = .connecting ∧ (s.leg 2).attached = some 1 ∧ (s.pos 1).whisper.entries = [⟨.call 2, 5, false⟩] ∧
    (⟨.call 2, 5, false⟩ : WhisperEntry).isCallOf 2 = true ∧ (s.pos 1).whisper.head = .waiting 0 ∧ (r.leg 2).state ≠ .connecting :=
  ⟨ready _ rfl, rfl, rfl, rfl, rfl, rfl, by decide +kernel⟩

/-- L2 OPEN, the other legs as after reset: the law of attachment holds. -/
theorem witness_LegClose :
    let s := lg fun x => { x with state := .opened }
    Ready s ∧ (s.leg 2).state ≠ .idle ∧ AttachLaw s ∧ (r.leg 2).state = .idle := by
  have k : ∀ l, ((lg fun x => { x with state := .opened }).leg l).attached = none
      ∧ ((lg fun x => { x with state := .opened }).leg l).state ≠ .connecting
      ∧ ((lg fun x => { x with state := .opened }).leg l).state ≠ .active := by decide +kernel
  have q : ∀ p, ((lg fun x => { x with state := .opened }).pos p).leg = none
      ∧ ((lg fun x => { x with state := .opened }).pos p).whisper.entries = [] := by decide +kernel
  refine ⟨ready _ rfl, by decide +kernel, ⟨?_, ?_, ?_, ?_, ?_⟩, rfl⟩
  · intro l p; simp [k, q]
  · intro l; simp [k]
  · intro p w l h; simp [q] at h
  · intro l p h; exact absurd h (k l).2.1
  · intro p; simp [q]

/-- L2 OPEN with three segments, L30 first in the shortfall queue, owed a number; the pool has one segment free. -/
def owing (owed : Nat) : State :=
  { (ecs fun c => { c with state := .search, segments := [7, 8, 9], taps := List.replicate 384 1 }).modLeg 30 fun x => { x with state := .opened } with
    pool := ⟨[5], [⟨30, owed⟩]⟩ }

theorem witness_TopUp :
    AttachLaw (owing 2) ∧ Ready (owing 2) ∧ ((owing 2).leg 2).state ≠ .idle ∧
    (owing 2).pool.queue.filter (fun y => y.leg ≠ 2) = [⟨30, 2⟩] ∧ (∀ y ∈ (owing 2).pool.queue, y.leg ≠ 2) ∧
    returnNumbers ((owing 2).leg 2).ec.segments (owing 2).pool.free = [5, 7, 8, 9] ∧ topUpGrant 0 2 4 = 2 ∧ topUpGrant 0 6 4 = 4 ∧
    topUpGrant 0 2 1 = 0 ∧ ((owing 2).leg 30).ec.segments = [] ∧ min 1 16 < ((owing 2).leg 2).ec.segments.length ∧
    returnNumbers (((owing 2).leg 2).ec.segments.drop (min 1 16)) (owing 2).pool.free = [5, 8, 9] ∧ topUpGrant 0 6 3 = 3 := by
  refine ⟨attach_of_checks _ ?_ ?_ ?_ ?_ ?_ ?_, ready _ rfl, ?_⟩
  all_goals decide +kernel

theorem witness_LegStatus :
    Ready (onPlan 2 (some ⟨5, some 0, some 3⟩)) ∧
    ((onPlan 2 (some ⟨5, some 0, some 3⟩)).leg 2).session = some ⟨some 4, .background, some 7, 1, some ⟨5, some 0, some 3⟩⟩ ∧
    (r.leg 2).session = none ∧ (∀ x ∈ r.pool.queue, x.leg ≠ 2) ∧ (⟨30, 2⟩ : Shortfall) ∈ (owing 2).pool.queue ∧
    ((owing 2).pool.queue.map Shortfall.leg).Nodup :=
  ⟨ready _ rfl, rfl, rfl, by decide +kernel, by decide +kernel, by decide +kernel⟩

/-- P1 LIVE, hearing RX(2) beside a whisper, and a full-scale block from L2 and P9 a period ago. -/
def hearing (holdoff : Nat) : State :=
  { (r.modPos 1 fun x => { x with
      port := { x.port with state := .live }, earVolume := 32767, limiter := { x.limiter with holdoff := holdoff }
      config := { x.config with limiterLevel := 1024 } }).modPos 9 fun x => { x with mute := true } with
    ears := tset r.ears 1 [⟨.rx 2, .caller, 16384, 16384, 16, false⟩, ⟨.engine 0, .whisper, 16384, 0, 16, false⟩,
      ⟨.mic 9, .agent, 16384, 16384, 16, false⟩]
    before := { r.before with rx := tset r.before.rx 2 (List.replicate 64 32767) } }

/-- P1 LIVE with a fill of its downlink buffer. -/
def filled (n : Nat) : State :=
  (inState .live).modPort 1 fun x => { x with downlink := ⟨List.replicate n 5, 0, 0, 0⟩ }

theorem witness_EarBlock :
    ((hearing 0).pos 1).port.state = .live ∧ ((hearing 0).pos 9).mute = true ∧
    tget (hearing 0).ears 1 = [⟨.rx 2, .caller, 16384, 16384, 16, false⟩, ⟨.engine 0, .whisper, 16384, 0, 16, false⟩,
      ⟨.mic 9, .agent, 16384, 16384, 16, false⟩] ∧
    mixedAt (tget (hearing 0).ears 1) ((hearing 0).earTarget 1) (hearing 0).sourceBlock 0 = 32767 ∧
    2 * ((hearing 0).pos 1).config.limiterLevel ≤ (sat16 (((32767 : Int) * (((hearing 0).pos 1).earVolume : Int) + 8192) / 16384)).toInt.natAbs ∧
    ((hearing 0).pos 1).limiter.holdoff ≤ 1 ∧ 1 < ((hearing 250).pos 1).limiter.holdoff ∧
    mixedAt [] (fun _ => 0) (hearing 0).sourceBlock 63 = 0 ∧ (r.pos 1).port.state ≠ .live ∧
    ((hearing 0).pos 1).port.downlink.samples = [] ∧
    ((filled 127).pos 1).port.state = .live ∧ ((filled 127).pos 1).port.downlink.samples.length ≤ 127 ∧
    128 ≤ ((filled 128).pos 1).port.downlink.samples.length := by decide +kernel

/-- R14: the write at the levels 32, 33, 159 and 160, at a fill from which 63 samples just fit, one more, and a full buffer. -/
theorem test_ear_write_levels :
    let w (fill : Nat) : Elastic := (⟨List.replicate fill 5, 0, 0, 0⟩ : Elastic).writeEar (List.replicate 63 6 ++ [7])
    w 0 = ⟨List.replicate 63 6 ++ [7, 7], 1, 0, 0⟩ ∧ w 1 = ⟨5 :: List.replicate 63 6 ++ [7], 0, 0, 0⟩ ∧
    w 127 = ⟨List.replicate 127 5 ++ List.replicate 63 6 ++ [7], 0, 0, 0⟩ ∧
    w 128 = ⟨List.replicate 128 5 ++ List.replicate 63 6, 1, 0, 0⟩ ∧
    w 129 = ⟨List.replicate 129 5 ++ List.replicate 63 6, 1, 0, 0⟩ ∧
    w 130 = ⟨List.replicate 130 5 ++ List.replicate 62 6, 1, 0, 1⟩ ∧ w 192 = ⟨List.replicate 192 5, 1, 0, 1⟩ := by decide +kernel

theorem witness_SendBlock :
    let feeds : List Feed := [⟨.program 2, .music, 12000, 12000, 16, false⟩, ⟨.engine 3, .announce, 16384, 0, 16, false⟩]
    let s : State := { planned.modLeg 2 fun x => { x with
      state := .held, session := some ⟨some 4, .announcing, none, 0, none⟩ } with sends := tset r.sends 2 feeds }
    tget s.sends 2 = feeds ∧ (s.leg 2).session = some ⟨some 4, .announcing, none, 0, none⟩ ∧ (s.plan 4).record = some planRecord ∧
    s.sendTarget 2 ⟨.program 2, .music, 12000, 12000, 16, false⟩ = (12000 * planRecord.duck + 8192) / 16384 ∧
    tget r.sends 2 = [] := by decide +kernel

theorem witness_RampsAndSuppressorBounds :
    (16 : Nat) ≤ Suppressor.initial.floor ∧ Suppressor.initial.floor ≤ 67108864 ∧ Suppressor.initial.gain ≤ 16384 ∧
    PositionConfig.default.nsAttenuation ≤ 16384 ∧ (2048 : Nat) ≤ 16384 + 896 * 16 ∧ (16384 : Nat) ≤ 2048 + 896 * 16 ∧
    (2048 : Nat) + 10 * 16 ≤ 16384 ∧ (2048 : Nat) + 10 * 16 ≤ 16384 := by decide

theorem witness_EcConfig :
    let s := ecs fun c => { c with state := .converging, segments := [7], taps := List.replicate 128 1 }
    Ready s ∧ (s.leg 2).state ≠ .idle ∧ (s.leg 2).ec.segments ≠ [] ∧ (s.leg 2).ec.state = .converging ∧
    ((ecs fun c => { c with state := .frozen }).leg 2).ec.state = .frozen ∧ ((ecs id).leg 2).ec.segments = [] ∧
    ((ecs id).leg 2).ec.state ≠ .converging ∧ ((ecs id).leg 2).ec.state ≠ .converged ∧ (r.leg 2).state = .idle :=
  ⟨ready _ rfl, by decide +kernel, by decide +kernel, rfl, rfl, rfl, by decide +kernel, by decide +kernel, rfl⟩

theorem witness_EcConfigTail :
    let s := ecs fun c => { c with state := .search, segments := [7, 8], taps := List.replicate 256 1 }
    Ready s ∧ (s.leg 2).state ≠ .idle ∧ s.pool.queue = [] ∧ min 1 16 < (s.leg 2).ec.segments.length ∧
    min 0 16 < (s.leg 2).ec.segments.length ∧
    (let u := { s with pool := ⟨[], []⟩ }
     Ready u ∧ (u.leg 2).ec.segments.length < min 3 16 ∧ u.pool.free = [] ∧ u.pool.queue = []) :=
  ⟨ready _ rfl, by decide +kernel, rfl, by decide +kernel, by decide +kernel, ready _ rfl, by decide +kernel, rfl, rfl⟩

theorem witness_EcBlock :
    r.highway.valid = false ∧ ({ r with highway := { r.highway with valid := true } } : State).highway.valid = true ∧
    (r.leg 2).ec.state = .off .idle ∧ (r.leg 2).ec.nlpGain = 16384 ∧ (r.leg 2).ec.segments = [] ∧ (r.leg 2).ec.nlpAttenuation ≤ 16384 := by
  decide +kernel

/-- L2's canceller CONVERGING or CONVERGED on one segment, its reference loud and its receive block quiet and valid, on an ACTIVE leg. -/
def cancelling (x : EcState) : State :=
  { (r.modPort 1 fun y => { y with state := .live }).modLeg 2 fun y => { y with
      state := .active, attached := some 1
      ec := { y.ec with state := x, segments := [7], taps := List.replicate 128 1, history := List.replicate 67 (List.replicate 64 1000) } } with
    highway := { r.highway with state := .inSync, valid := true } }

theorem witness_Adaptation :
    ((cancelling .converging).leg 2).ec.state = .converging ∧ (cancelling .converging).highway.valid = true ∧
    (cancelling .converging).highway.state = .inSync ∧ ((cancelling .converging).leg 2).ec.gap = 0 ∧
    ((cancelling .converging).leg 2).ec.settle = 0 ∧ ((cancelling .converging).leg 2).ec.doubleTalk = 0 ∧
    2 * peak (tget (cancelling .converging).highway.receive 2) ≤ ((cancelling .converging).leg 2).ec.referencePeak ∧
    ((cancelling .converged).leg 2).ec.state = .converged ∧ ((cancelling .converged).leg 2).state = .active ∧
    ((cancelling .converged).leg 2).attached = some 1 ∧ (cancelling .converged).talking 1 = false ∧
    ((cancelling .converged).modPos 1 fun y => { y with vadBefore := .speech }).talking 1 = true ∧
    (let s := cancelling .converged
     let u : State := { s with highway := { s.highway with receive := tset s.highway.receive 2 (List.replicate 64 501) } }
     (u.leg 2).ec.referencePeak < 2 * peak (tget u.highway.receive 2)) := by decide +kernel

theorem witness_SearchWindowEnd :
    let s := ecs fun c => { c with state := .search, search := ⟨249, 50, 2, [3, 9, 9]⟩ }
    (s.leg 2).ec.state = .search ∧ (s.leg 2).ec.search.blocks + 1 = 250 ∧ s.highway.valid = false ∧ 50 ≤ (s.leg 2).ec.search.counted ∧
    (∀ j, (s.leg 2).ec.search.sums.getD j 0 ≤ (s.leg 2).ec.search.sums.getD 1 0) ∧
    (∀ j, j < 1 → (s.leg 2).ec.search.sums.getD j 0 < (s.leg 2).ec.search.sums.getD 1 0) ∧
    (1 : Nat) < (s.leg 2).ec.search.sums.length ∧
    ((ecs fun c => { c with search := ⟨249, 49, 1, []⟩ }).leg 2).ec.search.failed + 1 < 3 ∧
    3 ≤ ((ecs fun c => { c with search := ⟨249, 49, 2, []⟩ }).leg 2).ec.search.failed + 1 := by
  refine ⟨rfl, rfl, rfl, by decide +kernel, ?_, ?_, by decide +kernel, by decide +kernel, by decide +kernel⟩
  · intro j
    show [3, 9, 9].getD j 0 ≤ 9
    match j with
    | 0 => decide
    | 1 => decide
    | 2 => decide
    | n + 3 => simp [List.getD]
  · intro j h
    have : j = 0 := by omega
    subst this
    decide +kernel

theorem witness_SearchCounted :
    let s : State := { ecs fun c => { c with
      state := .search, search := ⟨249, 49, 0, List.replicate 33 0⟩, history := List.replicate 67 (List.replicate 64 1000) } with
      highway := { r.highway with valid := true, receive := tset r.highway.receive 2 (List.replicate 64 1000) } }
    let c := (s.leg 2).ec
    s.highway.valid = true ∧ c.gap = 0 ∧ c.settle = 0 ∧ 64 ≤ energy (c.reference c.bulkDelay) ∧ 50 ≤ c.search.counted + 1 ∧
    energy (tget s.highway.receive 2) / 1024 = 976 ∧ ∀ j, j < 33 → energy (c.reference j) / 1024 = 976 := by decide +kernel

theorem witness_ErleWindowEnd :
    (let s := cancelling .converging
     64 ≤ energy ((s.leg 2).ec.reference (s.leg 2).ec.bulkDelay) ∧ NoDoubleTalk (s.leg 2).ec (tget s.highway.receive 2) ∧
     s.highway.valid = true ∧ (s.leg 2).ec.gap = 0 ∧ (s.leg 2).ec.erle.blocks + 1 < 25 ∧
     EcAdapts s (s.leg 2).ec (tget s.highway.receive 2)) ∧
    let s := ecs fun c => { c with state := .converging, erle := ⟨24, 10, 640, 9⟩, goodRun := 1 }
    (s.leg 2).ec.state = .converging ∧ s.highway.valid = false ∧ (s.leg 2).ec.erle.blocks + 1 = 25 ∧ 10 ≤ (s.leg 2).ec.erle.qualifying ∧
    64 * ((s.leg 2).ec.erle.se + 1) ≤ (s.leg 2).ec.erle.srx ∧ 1 ≤ (s.leg 2).ec.goodRun ∧
    (let u := ecs fun c => { c with state := .converged, erle := ⟨24, 10, 39, 9⟩, poorRun := 3 }
     (u.leg 2).ec.state = .converged ∧ (u.leg 2).ec.erle.srx < 4 * ((u.leg 2).ec.erle.se + 1) ∧ 3 ≤ (u.leg 2).ec.poorRun) ∧
    ((ecs fun c => { c with state := .frozen, erle := ⟨24, 9, 0, 0⟩ }).leg 2).ec.erle.qualifying < 10 := by
  unfold NoDoubleTalk EcAdapts NoDoubleTalk
  decide +kernel

theorem witness_PlanSetAndDelete :
    Ready planned ∧ (planned.plan 4).useCount = 0 ∧ (∀ l, (planned.leg l).session = none) ∧ (r.plan 4).record = none ∧
    (planned.plan 4).record ≠ none ∧
    (let s := r.modPlan 4 fun _ => ⟨some planRecord, 1, none, false⟩
     Ready s ∧ 0 < (s.plan 4).useCount ∧ (s.plan 4).record = some planRecord ∧ planRecord.background = .program 2) :=
  ⟨ready _ rfl, rfl, by decide +kernel, rfl, by decide +kernel, ready _ rfl, by decide +kernel, rfl, rfl⟩

theorem witness_PlanSetStream :
    (let s := (streamed 2 .ready).modPlan 4 fun y => { y with bound := some 7 }
     let u := s.modEng 7 fun x => { x with state := .playing, owner := some (.shared 4), clip := some 5 }
     Ready u ∧ (u.plan 4).record = some { planRecord with background := .shared 5 } ∧ 0 < (u.plan 4).useCount ∧
     (u.plan 4).bound = some 7 ∧ (u.plan 4).pending = false ∧ (u.eng 7).state = .playing ∧ (u.eng 7).closing = 0 ∧
     (u.eng 7).owner = some (.shared 4) ∧ u.isReady 5 = true ∧ u.isReady 6 = false) ∧
    (let s := (streamed 2 .ready).modPlan 4 fun y => { y with pending := true }
     (s.plan 4).bound = none ∧ (s.plan 4).pending = true ∧ s.isReady 6 = false) ∧
    Background.shared 5 ≠ .absent ∧ Background.shared 5 ≠ .shared 6 :=
  ⟨⟨ready _ rfl, rfl, by decide +kernel, rfl, rfl, rfl, rfl, rfl, by decide +kernel, by decide +kernel⟩,
    ⟨rfl, rfl, by decide +kernel⟩, by decide, by decide⟩

theorem witness_AnnouncementStep :
    let s := (planned.modLeg 2 fun x => { x with state := .held, session := some ⟨some 4, .background, some 1, 0, none⟩ }).modClip 5
      fun _ => ⟨.ready, 640, none, [9], 0, 0⟩
    (s.leg 2).session = some ⟨some 4, .background, some 1, 0, none⟩ ∧ (s.plan 4).record = some planRecord ∧
    0 % planRecord.announcements.length = 0 ∧ planRecord.announcements[0]? = some 5 ∧ s.isReady 5 = true ∧
    (let list : List ClipId := [5, 8, 9]
     2 < list.length ∧ 0 = (4 % list.length + 2) % list.length ∧ list[0]? = some 5 ∧
     (∀ j, j < 2 → ∀ b, list[(4 % list.length + j) % list.length]? = some b → s.isReady b = false)) ∧
    (∀ a ∈ planRecord.announcements, planned.isReady a = false) ∧ (r.leg 2).session = none := by decide +kernel

theorem witness_ClipCreate :
    Ready owned ∧ owned.memory.mode = .owned ∧ owned.write.clip = none ∧ (owned.clip 5).state = .empty ∧
    2097152 ≤ owned.freeSlabs.length * 32768 ∧ owned.memory = ⟨.owned, none, none, [], []⟩ ∧ r.memory.mode ≠ .owned ∧
    ((clipIn .ready).clip 5).state ≠ .empty ∧ ({ owned with freeSlabs := [9] } : State).freeSlabs.length * 32768 < 32769 :=
  ⟨ready _ rfl, rfl, rfl, rfl, by decide +kernel, rfl, by decide +kernel, by decide +kernel, by decide +kernel⟩

theorem witness_ClipData :
    Ready writing ∧ writing.memory = ⟨.owned, none, none, [], []⟩ ∧ (writing.clip 5).state = .writing ∧ writing.write.expected = 64 ∧
    64 + 480 ≤ (writing.clip 5).length ∧
    (let s := { writing with write := { writing.write with expected := 600 } }
     (List.replicate 41 (0 : Sample)).length ≤ 480 ∧ 600 = s.write.expected ∧
     (s.clip 5).length < 600 + (List.replicate 41 (0 : Sample)).length) ∧ writing.write.buffer.length < 2 ∧
    writing.write.clip = some 5 ∧ writing.write.buffer = [] ∧ writing.write.programmed = 64 ∧ 64 / 32768 < writing.write.erased ∧
    (writing.clip 5).slabs[writing.write.erased]? = none ∧ (writing.clip 5).slabs[64 / 32768]? = some 9 ∧
    min 64 ((writing.clip 5).length - 64) ≤ 480 ∧
    2 ≤ ({ writing with write := { writing.write with buffer := [[1], [2]] } } : State).write.buffer.length :=
  ⟨ready _ rfl, by decide +kernel⟩

theorem witness_ClipClose :
    Ready writing ∧ writing.memory.mode = .owned ∧ (writing.clip 5).state = .writing ∧ writing.write.closing = none ∧
    writing.write.clip = some 5 ∧ writing.write.expected < (writing.clip 5).length ∧
    (let s := { writing with write := { writing.write with expected := 640 } }
     Ready s ∧ (s.clip 5).length ≤ s.write.expected ∧ s.write.programmed ≠ (s.clip 5).length) ∧
    (let s := { writing with write := { writing.write with expected := 640, programmed := 640, sum := 3 } }
     (s.clip 5).length ≤ s.write.expected ∧ s.write.programmed = (s.clip 5).length ∧ s.write.sum ≠ BitVec.ofNat 32 4 ∧
     s.write.sum = BitVec.ofNat 32 3 ∧ (∀ h, (s.plan h).useCount = 0)) ∧
    (let s := streamed 2 .writing
     (s.plan 4).record = some { planRecord with background := .shared 5 } ∧ 0 < (s.plan 4).useCount ∧ (s.plan 4).bound = none ∧
     (s.plan 4).pending = false ∧ (∀ d, (s.eng d).state = .free) ∧ (∀ g, g ≠ 4 → (s.plan g).useCount = 0) ∧
     s.arbiter.scanning = false) :=
  ⟨ready _ rfl, rfl, rfl, rfl, rfl, by decide +kernel, ⟨ready _ rfl, by decide +kernel⟩, by decide +kernel⟩

/-- C5 being written, the erase of its slab in progress, or suspended by a fetch of E3. -/
def erasing (suspended : Option Nat) : State :=
  { writing with memory := { writing.memory with
    op := if suspended = none then some (.erase 9) else some (.fetch 3 1), suspended := suspended } }

theorem witness_ClipDelete :
    Ready (clipIn .ready) ∧ (clipIn .ready).memory.mode = .owned ∧ ((clipIn .ready).clip 5).state = .ready ∧
    ((clipIn .ready).clip 5).useCount = 0 ∧ ((clipIn .damaged).clip 5).state = .damaged ∧ (owned.clip 5).state = .empty ∧
    (let s := owned.modClip 5 fun _ => ⟨.ready, 640, none, [9], 0, 1⟩
     (s.clip 5).state = .ready ∧ 0 < (s.clip 5).useCount) ∧
    writing.write.clip = some 5 ∧ writing.memory.fetches = [] ∧ writing.memory.updates = [] ∧ writing.memory.op = none ∧
    ({ writing with memory := { writing.memory with op := some (.program 9 64 [1] true) } } : State).memory.op
      = some (.program 9 64 [1] true) ∧ writing.memory.suspended = none ∧
    (erasing none).memory.op = some (.erase 9) ∧ (erasing none).memory.suspended = none ∧ FlashLaw (erasing none) ∧
    (erasing (some 9)).memory.op = some (.fetch 3 1) ∧ (erasing (some 9)).memory.suspended = some 9 ∧
    (erasing (some 9)).write.clip = some 5 ∧ FlashLaw (erasing (some 9)) :=
  ⟨ready _ rfl, by unfold FlashLaw; decide +kernel⟩

theorem witness_HardwareReset :
    r.memory.op = none ∧ r.memory.suspended = none ∧ FlashLaw (erasing none) ∧ (erasing none).memory.op = some (.erase 9) ∧
    (erasing (some 9)).memory.suspended = some 9 ∧ (erasing (some 9)).memory.op = some (.fetch 3 1) ∧
    ({ writing with memory := ⟨.owned, some (.program 9 64 [1] true), none, [], []⟩ } : State).memory.op
      = some (.program 9 64 [1] true) ∧
    ({ owned with memory := ⟨.owned, some (.update 5 [0]), none, [], []⟩ } : State).memory.op = some (.update 5 [0]) :=
  ⟨rfl, rfl, rfl, rfl, rfl, rfl, rfl, rfl⟩

/-- R128: an abandoned erase, in progress or suspended, is counted and leaves the port. -/
theorem test_erase_abandoned :
    (erasing none).abandonWrite.unfinishedOps = 1 ∧ (erasing none).abandonWrite.memory.op = none ∧
    (erasing (some 9)).abandonWrite.unfinishedOps = 1 ∧ (erasing (some 9)).abandonWrite.memory.suspended = none ∧
    writing.abandonWrite.unfinishedOps = 0 ∧ writing.abandonWrite.flash = [] := by decide +kernel

theorem witness_RecordReplies :
    Ready r ∧ r.memory.mode = .scanning ∧ Ready owned ∧ owned.memory.mode ≠ .scanning ∧ (writing.clip 5).state = .writing ∧
    Ready planned ∧ (r.plan 4).record = none ∧ (planned.plan 4).record = some planRecord ∧ planRecord.background = .program 2 :=
  ⟨ready _ rfl, rfl, ready _ rfl, by decide +kernel, rfl, ready _ rfl, rfl, rfl, rfl⟩

theorem witness_PlanInfoSource :
    let s := (streamed 2 .ready).modPlan 4 fun y => { y with bound := some 7 }
    let u := s.modEng 7 fun x => { x with state := .playing }
    (u.plan 4).record = some { planRecord with background := .shared 5 } ∧ (u.plan 4).bound = some 7 ∧
    (u.eng 7).state = .playing ∧ (s.eng 7).state ≠ .playing ∧ ((streamed 2 .ready).plan 4).bound = none := by decide +kernel

theorem witness_MemoryReleaseAndReclaim :
    Ready r ∧ r.memory.mode = .scanning ∧ Ready owned ∧ owned.memory.op = none ∧ owned.memory.updates = [] ∧ owned.write.clip = none ∧
    ({ writing with memory := { writing.memory with op := some (.fetch 3 1) } } : State).memory.op = some (.fetch 3 1) ∧
    (erasing none).memory.mode = .owned ∧ (erasing none).memory.op = some (.erase 9) ∧ (erasing none).memory.updates = [] ∧
    (erasing none).write.clip = some 5 ∧ (erasing (some 9)).memory.suspended = some 9 ∧ FlashLaw (erasing (some 9)) ∧
    ({ r with memory := { r.memory with mode := .releasing } } : State).memory.mode = .releasing ∧
    Ready ({ r with memory := { r.memory with mode := .released } } : State) :=
  ⟨ready _ rfl, rfl, ready _ rfl, rfl, rfl, rfl, rfl, rfl, rfl, rfl, rfl, rfl, by unfold FlashLaw; rfl, rfl, ready _ rfl⟩

/-- A stored READY entry of one sample on slab 4. -/
def storedReady : List Byte := entryImage ⟨.ready, 1, none, [4], 7, 0⟩

theorem witness_ScanEntryRead :
    owned.memory.mode ≠ .scanning ∧ r.memory.mode = .scanning ∧ r.scan.next = (0 : ClipId).val ∧
    readEntry storedReady = .good ⟨.ready, 1, none, [4], 7, 0⟩ ∧ readEntry (entryImage ⟨.ready, 0, none, [4], 7, 0⟩) = .bad ∧
    readEntry (List.replicate 146 0) = .blank ∧
    (let s := ({ r with scan := ⟨1, 1, 0, 0⟩ } : State).modClip 0 fun _ => ⟨.ready, 1, none, [4], 7, 0⟩
     s.scan.next = (1 : ClipId).val ∧ 4 ∈ (s.clip 0).slabs) ∧
    (let s : State := { r with scan := ⟨255, 0, 0, 0⟩ }
     s.scan.next = (255 : ClipId).val ∧ s.arbiter.queue = [] ∧ (∀ h, (s.plan h).useCount = 0) ∧ s.write.clip = none ∧
     s.memory = ⟨.scanning, none, none, [], []⟩) := by decide +kernel

theorem witness_BlockFetched :
    let s := { engineIn .priming 0 [] with memory := ⟨.owned, some (.fetch 3 1), none, [], []⟩ }
    s.memory.op = some (.fetch 3 1) ∧ 1 = (s.eng 3).grant ∧ (s.eng 3).state = .priming ∧ (s.eng 3).clip = some 5 ∧
    (s.eng 3).loop = false ∧ sampleAddress (s.clip 5) ((s.eng 3).fetchPos + 63) = some (9 * 65536 + 126) ∧
    ({ s with memory := ⟨.owned, some (.fetch 3 0), none, [], []⟩ } : State).memory.op = some (.fetch 3 0) ∧ 0 ≠ (s.eng 3).grant ∧
    (let u := s.modEng 3 fun x => { x with loop := true, fetchPos := 576 }
     (u.eng 3).loop = true ∧ (u.eng 3).fetchPos + 64 ≤ (u.clip 5).length) := by decide +kernel

theorem witness_MemoryCompletions :
    let s := { writing with
      write := ⟨some 5, 66, 1, 64, 0, [[1, 2]], none⟩, memory := { writing.memory with op := some (.program 9 64 [1, 2] true) } }
    FlashLaw s ∧ s.memory.op = some (.program 9 64 [1, 2] true) ∧ s.write.closing = none ∧ s.write.buffer = [[1, 2]] ∧
    s.write.expected - [1, 2].length + [1, 2].length ≤ s.write.programmed + [1, 2].length ∧
    ({ writing with memory := { writing.memory with op := some (.erase 9) } } : State).memory.op = some (.erase 9) ∧
    ({ owned with memory := { owned.memory with op := some (.update 5 [0]) } } : State).memory.op = some (.update 5 [0]) :=
  ⟨rfl, by decide +kernel⟩

theorem witness_ClosingWrite :
    let s := { writing with
      write := ⟨some 5, 640, 1, 638, 0, [[1, 2]], some 3⟩, memory := { writing.memory with op := some (.program 9 638 [1, 2] true) } }
    FlashLaw s ∧ s.memory.op = some (.program 9 638 [1, 2] true) ∧ s.memory.mode = .owned ∧ s.write.clip = some 5 ∧
    s.write.closing = some 3 ∧ s.write.programmed + [1, 2].length = (s.clip 5).length ∧ addWords s.write.sum [1, 2] = 3 ∧
    addWords s.write.sum [1, 2] ≠ 4 ∧ (∀ h, (s.plan h).useCount = 0) := ⟨rfl, by decide +kernel⟩

theorem witness_EngineBlock :
    owned.memory.mode ≠ .releasing ∧ (owned.eng 3).state = .free ∧
    (let s := engineIn .playing 0 [⟨zeroBlock, true⟩]
     (s.eng 3).state = .playing ∧ (s.eng 3).closing = 0 ∧ (s.eng 3).buffer = [⟨zeroBlock, true⟩] ∧ s.memory.mode ≠ .releasing) ∧
    ((engineIn .playing 0 []).eng 3).buffer = [] ∧
    (let s := engineIn .stopping 0 [⟨zeroBlock, false⟩]
     (s.eng 3).state = .stopping ∧ (s.eng 3).fadeGain = 16384 ∧ zeroBlock.length = 64) ∧
    ((engineIn .playing 1 []).eng 3).closing = 1 ∧
    (let s := (engineIn .stopping 2 []).modLeg 2 fun x => { x with
        state := .held, session := some ⟨none, .announcing, none, 0, some ⟨5, some 0, some 3⟩⟩ }
     (s.eng 3).closing = 2 ∧ s.arbiter.queue = [] ∧ s.arbiter.held = [] ∧ (s.eng 3).owner = some (.leg 2) ∧
     (s.eng 3).clip = some 5 ∧ (s.clip 5).state = .ready) ∧
    (let greeting : Option SessionRequest := some ⟨5, none, some 3⟩
     let s := ((engineIn .stopping 2 []).modPlan 4 fun _ => ⟨some planRecord, 1, none, false⟩).modLeg 2 fun x => { x with
        state := .held, session := some ⟨some 4, .greeting, none, 0, greeting⟩ }
     let u := s.modEng 3 fun x => { x with stopOutcome := .preempted }
     (s.leg 2).session = some ⟨some 4, .greeting, none, 0, greeting⟩ ∧
     s.sessionRecord ⟨some 4, .greeting, none, 0, greeting⟩ = some planRecord ∧ planRecord.announcements ≠ [] ∧
     (s.eng 3).stopOutcome ≠ .preempted ∧ (u.eng 3).stopOutcome = .preempted ∧ (u.eng 3).state = .stopping) := by decide +kernel

theorem witness_HeldRequest :
    let s : State := { ((((clipIn .ready).modClip 6 fun _ => ⟨.ready, 64, none, [10], 0, 0⟩).modPlan 4 fun _ =>
        ⟨some planRecord, 2, some 7, true⟩)) with
      arbiter := ⟨[], [⟨.shared 4, 6⟩], 9, false⟩
      engines := tset (Vector.replicate 24 { Engine.idle with state := .playing, owner := some (.leg 0), cls := 1 }) 7
        { Engine.idle with state := .stopping, owner := some (.shared 4), cls := 2, clip := some 5, closing := 2 } }
    (s.eng 7).state = .stopping ∧ (s.eng 7).closing = 2 ∧ (s.eng 7).owner = some (.shared 4) ∧ (s.eng 7).clip = some 5 ∧
    (s.clip 5).state = .ready ∧ (s.plan 4).bound = some 7 ∧ s.arbiter.held = [⟨.shared 4, 6⟩] ∧ s.isReady 6 = true ∧
    s.arbiter.scanning = false ∧ (∀ d, d ≠ 7 → (s.eng d).state ≠ .free) ∧ s.memory.mode ≠ .releasing := by decide +kernel

theorem witness_WhisperPromptPlaced :
    Ready (queued .empty) ∧ ((queued .empty).pos 1).port.state = .live ∧ ((queued .empty).pos 1).whisper.entries = [] ∧
    ((queued .empty).pos 1).whisper.head = .none ∧ ((queued .empty).pos 1).whisper.gap = none ∧ (queued .empty).isReady 5 = false ∧
    4 ≤ ((queued ⟨[aPrompt, aPrompt, aPrompt, aPrompt], .waiting 0, none, none⟩).pos 1).whisper.entries.length ∧
    ((queued ⟨[aPrompt, aPrompt, aPrompt], .waiting 0, none, none⟩).pos 1).whisper.head ≠ .none ∧
    (let s := (({ queued .empty with arbiter := ⟨[], [], 1, false⟩ } : State).modClip 5 fun _ => ⟨.ready, 640, none, [9], 0, 0⟩)
     s.isReady 5 = true ∧ s.arbiter.scanning = false ∧ (∀ e, (s.eng e).state = .free) ∧
      (let u : State := { s with engines := Vector.replicate 24 { Engine.idle with state := .playing, owner := some (.leg 0), cls := 1 } }
       let v := u.modEng 7 fun x => { x with grant := 9 }
       (∀ e, (v.eng e).state ≠ .free ∧ (v.eng e).state ≠ .priming ∧ (v.eng e).owner ≠ some (.whisper 1)) ∧
       ∀ d, d ≠ 7 → (v.eng d).grant < (v.eng 7).grant)) := ⟨ready _ rfl, by decide +kernel⟩

theorem witness_WhisperFlushed :
    (let s := queued ⟨[aPrompt], .waiting 3, none, none⟩
     Ready s ∧ (s.pos 1).whisper.entries = [aPrompt] ∧ aPrompt.kind = .prompt true 7 ∧ (s.pos 1).whisper.head = .waiting 3) ∧
    (let s := (queued ⟨[{ aPrompt with begun := true }], .granted 3, none, none⟩).modEng 3 fun x => { x with state := .playing }
     Ready s ∧ (s.pos 1).whisper.head = .granted 3 ∧ (s.eng 3).state = .playing ∧ (s.eng 3).closing = 0) ∧
    ((queued .empty).pos 1).whisper.entries = [] :=
  ⟨⟨ready _ rfl, rfl, rfl, rfl⟩, ⟨ready _ rfl, rfl, rfl, rfl⟩, rfl⟩

theorem witness_GapAndDeadline :
    ((queued .empty).pos 1).whisper.gap = none ∧ ((queued .empty).pos 1).whisper.head = .none ∧
    48 + 1 < ((queued ⟨[], .none, some 48, none⟩).pos 1).config.whisperGap ∧
    ((queued ⟨[], .none, some 49, none⟩).pos 1).config.whisperGap ≤ 49 + 1 ∧
    123 + 1 < ((queued ⟨[aPrompt], .waiting 123, none, none⟩).pos 1).config.whisperDeadline ∧
    ((queued ⟨[aPrompt], .waiting 124, none, none⟩).pos 1).config.whisperDeadline ≤ 124 + 1 ∧
    (let s := queued ⟨[⟨.call 2, 5, false⟩], .waiting 124, none, none⟩
     (s.pos 1).whisper.entries = [⟨.call 2, 5, false⟩] ∧ (s.pos 1).whisper.head = .waiting 124 ∧ (s.leg 2).session = none) := by
  decide +kernel

/-- P1 and P2 LIVE. -/
def twoLive : State := (inState .live).modPort 2 fun x => { x with state := .live }

theorem witness_Supervising :
    Ready twoLive ∧ (1 : Nat) = SuperMode.coach.place ∧ (twoLive.pos 1).supervision = none ∧ (twoLive.pos 1).port.state = .live ∧
    (twoLive.pos 2).port.state = .live ∧ (twoLive.pos 1).leg = none ∧ twoLive.supervisorOf 1 = none ∧
    (twoLive.pos 2).supervision = none ∧ twoLive.supervisorOf 2 = none ∧
    (let s := twoLive.modPos 1 fun x => { x with supervision := some ⟨2, .barge⟩ }
     Ready s ∧ (s.pos 1).supervision = some ⟨2, .barge⟩) ∧ (r.pos 1).port.state ≠ .live :=
  ⟨ready _ rfl, rfl, rfl, rfl, rfl, rfl, by decide +kernel, rfl, by decide +kernel, ⟨ready _ rfl, rfl⟩, by decide +kernel⟩

/-- The link inside a frame that began at period 0, with the bytes collected, in period n. -/
def inFrame (n : Nat) (got : List Byte) : State :=
  { r with highway := { r.highway with period := BitVec.ofNat 32 n }, link := { r.link with receiver := .frame 0 got } }

/-- The replies and requests that leave no reply place. -/
def fullLink (s : State) : State :=
  { s with link := { s.link with buffer := List.replicate 4 ⟨0x70, 0, []⟩, replies := List.replicate 4 ⟨0x70, 0, .ok, .none⟩ } }

/-- A reply OK being sent behind eight of its nine bytes. -/
def sending (s : State) : State :=
  { s with link := { s.link with sending := .reply, replies := [⟨0x02, 9, .ok, .none⟩], position := 8 } }

/-- The reply to DEVICE_RESET being sent, with a request waiting. -/
def resetting (s : State) : State :=
  { s with link := { s.link with
    paused := true, sending := .reply, replies := [⟨0x71, 9, .ok, .none⟩], buffer := [⟨0x70, 4, []⟩], position := 7 } }

theorem witness_Sent :
    Brings r .startMarker [0xA5] ∧ Brings r (.requestFrameReceived [1, 2]) [1, 2] ∧ Brings (sending r) .messageSent [255] ∧
    Brings (r.report .memoryReleased) .messageSent (List.replicate 12 255) ∧
    Sent (inFrame 250 [1]) { inFrame 250 [1] with link := { (inFrame 250 [1]).link with outByte := 0xFF } } 2 ∧
    Sent (r.ok 0x02 9) { r.ok 0x02 9 with link := { (r.ok 0x02 9).link with position := 2, outByte := 2 } } 2 ∧
    Sent (sending r) { sending r with link := { (sending r).link with
      replies := [], lastSent := (⟨0x02, 9, .ok, .none⟩ : Reply).frame, position := 0
      outByte := (⟨0x02, 9, .ok, .none⟩ : Reply).frame.getLastD 0xFF, sending := .fill } } 1 ∧
    Sent (r.report .memoryReleased) { r.report .memoryReleased with link := { (r.report .memoryReleased).link with
      reports := [], lastSent := (⟨0, .memoryReleased⟩ : Report).frame, position := 0
      outByte := (⟨0, .memoryReleased⟩ : Report).frame.getLastD 0xFF, sending := .fill } } 12 := by
  refine ⟨by simp [Brings], by simp [Brings], .inr (.inr (.inr (.inl ⟨_, _, rfl, rfl, by decide +kernel, .inl rfl⟩))),
    .inr (.inr (.inr (.inr ⟨_, _, rfl, rfl, by decide +kernel, rfl⟩))), ⟨by decide, .inl ⟨rfl, rfl⟩⟩,
    ⟨by decide, .inr (.inl ⟨_, .inl ⟨_, _, rfl, rfl, rfl⟩, by decide +kernel, by decide +kernel⟩)⟩,
    ⟨by decide, .inr (.inr (.inl ⟨_, _, rfl, rfl, by decide +kernel, .inl rfl, rfl⟩))⟩,
    ⟨by decide, .inr (.inr (.inr ⟨_, _, rfl, rfl, by decide +kernel, rfl⟩))⟩⟩

theorem witness_FrameReception :
    r.link.receiver = .hunt ∧ (0xA5 : Byte) ∉ ([1, 2] : List Byte) ∧ (inFrame 250 [1]).link.receiver = .frame 0 [1] ∧
    ((inFrame 250 [1]).highway.period - 0).toNat ≤ 250 ∧ 250 < ((inFrame 251 [1]).highway.period - 0).toNat ∧
    [0x07, 0xA5] = [0x07] ++ (0xA5 : Byte) :: [] ∧
    [1, 0x70] ++ [0xA5] = (frameBody 1 0x70 0xA5 []).take 3 ∧ [1, 0x70, 5, 0] ++ [0] = frameBody 1 0x70 5 [] ∧
    [1, 0x70, 5, 0, 0] ++ [7] = frameBody 1 0x70 5 [] ++ [7] ∧
    ([1, 0x70, 5, 0, 0] : List Byte) ++ wordBytes (crc (frameBody 1 0x70 5 [])).toNat
      = frameBody 1 0x70 5 [] ++ wordBytes (crc (frameBody 1 0x70 5 [])).toNat ∧
    (0 : BitVec 16) ≠ crc (frameBody 1 0x70 5 []) ∧ [1, 0x70, 5, 0xFD] ++ [3] = [1, 0x70, 5] ++ wordBytes 1021 ∧
    (let s := inFrame 250 [1]
     s.link.replies.length + s.link.buffer.length < 8 ∧ s.link.buffer.length < 4 ∧
     8 ≤ (fullLink s).link.replies.length + (fullLink s).link.buffer.length ∧
     4 ≤ ({ s with link := { s.link with buffer := List.replicate 4 ⟨0x70, 0, []⟩ } } : State).link.buffer.length) := by
  decide +kernel

/-- The bytes of DEVICE_STATUS with a tag, start marker and check included. -/
def statusFrame (tag : Byte) : List Byte :=
  0xA5 :: frameBody 1 0x70 tag [] ++ wordBytes (crc (frameBody 1 0x70 tag [])).toNat

/-- R182, R185: a frame out of time, and behind the byte that finds it so two whole requests in the same command, during which the LINK_ERROR
report of 15 bytes goes out. -/
theorem test_frames_behind_a_timeout :
    let t := (inFrame 251 [1, 2]).clock (7 :: statusFrame 5 ++ statusFrame 6)
    t.link.buffer = [⟨0x70, 5, []⟩, ⟨0x70, 6, []⟩] ∧ t.link.receiver = .hunt ∧ t.link.linkErrors = 1 ∧ t.link.reports = [] ∧
    t.link.lastSent.length = 15 ∧ t.link.sending = .fill := by
  decide +kernel

/-- R182, R192: a reply's last byte goes out in the middle of a frame coming in, and idle fill after it. -/
theorem test_message_ends_inside_a_frame :
    let t := (sending r).clock (statusFrame 5)
    t.link.buffer = [⟨0x70, 5, []⟩] ∧ t.link.replies = [] ∧ t.link.lastSent = [0xA5, 2, 2, 9, 1, 0, 0] ++ t.link.lastSent.drop 7 ∧
    t.link.position = 0 ∧ t.link.outByte = 0xFF := by decide +kernel

/-- R182, R185, R192: a report of 12 bytes is read to its end by the host, whose fill is taken into the frame being received. -/
theorem test_fill_is_taken_into_a_frame :
    let t := ((inFrame 250 [1]).report .memoryReleased).readMessage
    t.link.reports = [⟨250, .linkError .length 1⟩] ∧ t.link.receiver = .hunt ∧ t.link.lastSent.length = 12 ∧
    t.link.sending = .report := by decide +kernel

/-- R194: the reply to DEVICE_RESET read to its end by the host. -/
theorem test_soft_reset_at_the_last_byte :
    let t := resetting r
    t.link.resetDue = true ∧ t.readMessage.link.paused = false ∧ t.readMessage.link.replies = [⟨0x70, 4, .overload, .none⟩] ∧
    t.readMessage.link.sending = .reply := by decide +kernel

theorem witness_LinkErrors :
    (inFrame 250 [1]).link.receiver = .frame 0 [1] ∧ ((inFrame 250 [1]).highway.period - 0).toNat ≤ 250 ∧
    judgeFrame ([1, 0x70, 5, 0xFD] ++ [3]) = .error .length ∧ judgeFrame ([1] ++ [0x70, 5, 0, 0, 0, 0]) = .error .check ∧
    (∀ n, n < 6 → judgeFrame ([1] ++ ([0x70, 5, 0, 0, 0, 0] : List Byte).take n) = .unfinished) ∧
    judgeFrame ([2, 0x70, 5, 0, 0] ++ wordBytes (crc [2, 0x70, 5, 0, 0]).toNat) = .error .kind ∧
    judgeFrame ([1, 0x70, 5, 0, 0] ++ wordBytes (crc [1, 0x70, 5, 0, 0]).toNat) = .request ⟨0x70, 5, []⟩ ∧
    (∀ n, n < 2 → judgeFrame ([1, 0x70, 5, 0, 0] ++ (wordBytes (crc [1, 0x70, 5, 0, 0]).toNat).take n) = .unfinished) ∧
    (let s := fullLink (inFrame 250 [1, 0x70, 5, 0, 0])
     s.link.receiver = .frame 0 [1, 0x70, 5, 0, 0] ∧ 8 ≤ s.link.replies.length + s.link.buffer.length ∧ s.link.sending = .fill) ∧
    250 < ((inFrame 251 [1]).highway.period - 0).toNat ∧
    ({ r with link := { r.link with reports := List.replicate 32 ⟨0, .memoryReleased⟩ } } : State).link.reports.length = 32 ∧
    (let s := resetting r
     s.link.paused = true ∧ s.link.sending = .reply ∧ s.link.receiver = .hunt ∧
     s.link.position < (⟨0x71, 9, .ok, .none⟩ : Reply).frame.length) ∧
    r.link.paused = false ∧ r.link.buffer = [] ∧ r.link.replies.length < 8 :=
  by decide +kernel

theorem witness_MessagesSent :
    r.link.sending = .fill ∧ r.link.paused = false ∧ r.link.receiver = .hunt ∧ (0xA5 : Byte) ∉ ([0, 0] : List Byte) ∧
    (let s := r.ok 0x02 9
     s.link.sending = .reply ∧ s.link.replies = [⟨0x02, 9, .ok, .none⟩] ∧ s.link.paused = false ∧ s.link.receiver = .hunt ∧
     s.link.position + 8 < (⟨0x02, 9, .ok, .none⟩ : Reply).frame.length ∧
     s.link.position + 9 = (⟨0x02, 9, .ok, .none⟩ : Reply).frame.length) ∧
    (let s := r.report .memoryReleased
     s.link.sending = .report ∧ s.link.reports = [⟨0, .memoryReleased⟩] ∧
     s.link.position + 12 = (⟨0, .memoryReleased⟩ : Report).frame.length) := by decide +kernel

theorem witness_RequestsRefusedByTheHandler : Ready r ∧ (0x03 : Byte) ∈ requestCodes ∧ (0x07 : Byte) ∉ requestCodes :=
  ⟨ready _ rfl, by decide, by decide⟩

theorem witness_OneReplyAndRefusalsChangeNothing :
    (Instr.legClose 4 (.fields 2)).requestCode = some 0x14 ∧ (Instr.legClose 4 (.fields 2)).wf = true ∧ Ready r ∧
    ({ r with link := { r.link with paused := true } } : State).link.paused = true ∧
    8 ≤ ({ r with link := { r.link with replies := List.replicate 8 ⟨0x70, 0, .ok, .none⟩ } } : State).link.replies.length ∧
    (let s : State := { r with link := { r.link with buffer := [⟨0x15, 4, wordBytes 2⟩, ⟨0x07, 5, []⟩] } }
     s.link.paused = false ∧ s.link.buffer = ⟨0x15, 4, wordBytes (2 : LegId).val⟩ :: [⟨0x07, 5, []⟩]) :=
  ⟨rfl, rfl, ready _ rfl, rfl, by decide +kernel, rfl, rfl⟩

theorem witness_FrameRoundTripAndPayloadsAreRead :
    (List.replicate 1020 (0xA5 : Byte)).length ≤ 1020 ∧ (65535 : Nat) < 65536 ∧ ([1, 2] : List Sample).length < 65536 := by decide +kernel

theorem witness_EntryRoundTrip :
    let c : Clip := ⟨.damaged, 32769, some 32768, [4, 1023], 7, 3⟩
    c.state = .damaged ∧ 1 ≤ c.length ∧ c.length ≤ 2097152 ∧ (c.slabs.length - 1) * 32768 < c.length ∧
    c.length ≤ c.slabs.length * 32768 ∧ (∀ n ∈ c.slabs, 4 ≤ n ∧ n < 1024) := by decide

/-- A step that carries out a command, from the state after reset with that command waiting. -/
theorem step_one (c : Instr) : step { r with pending := [c] } = exec c { r with pending := [] } := by
  have key : ∀ s : State, step { s with pending := [c] } = exec c { s with pending := [] } := fun s => by unfold step; rfl
  exact key r

theorem witness_LinkAndPortLawsKept :
    LinkLaw r ∧ step r = .next r ∧ PortLaw ripe ∧ step ripe = .next ripe ∧
    WaitLaw ({ r with arbiter := ⟨[⟨.whisper 0, 1⟩, ⟨.leg 2, 2⟩, ⟨.leg 3, 2⟩, ⟨.shared 0, 3⟩], [], 0, false⟩ } : State) := by
  refine ⟨?_, rfl, ?_, rfl, ?_⟩
  · unfold LinkLaw; decide +kernel
  · unfold PortLaw Elastic.Law; decide +kernel
  · unfold WaitLaw; decide +kernel

theorem witness_FlashAndFeedLawsKept :
    FlashLaw r ∧ step { r with pending := [.scanEntryRead none] } = execScanEntryRead none { r with pending := [] } ∧
    FeedLaw (hearing 0) ∧ step (hearing 0) = .next (hearing 0) :=
  ⟨rfl, step_one _, by unfold FeedLaw FeedListLaw; decide +kernel, rfl⟩

theorem witness_DirectoryLaw : DirectoryLaw owned ∧ step owned = .next owned := by
  have free : owned.freeSlabs = (List.range 1020).map (· + 4) := by decide +kernel
  have none : owned.slabsBelow 256 = [] := by decide +kernel
  refine ⟨⟨by decide +kernel, by decide +kernel, by decide +kernel, fun h => absurd rfl h, fun h => ?_, by decide +kernel, ?_, fun _ => ?_,
    fun h => ?_⟩, rfl⟩
  · exact absurd h (by decide +kernel)
  · rw [free, List.pairwise_map]
    exact List.pairwise_lt_range.imp fun h => Nat.add_lt_add_right h 4
  · rw [none, List.append_nil, free]
  · exact absurd h (by decide +kernel)

/-- L2 OPEN with segment 511, the others free. -/
def oneHeld : State := { ecs (fun c => { c with segments := [511] }) with pool := ⟨List.range 511, []⟩ }

theorem witness_PoolLawKept : PoolLaw oneHeld ∧ step oneHeld = .next oneHeld := by
  have none : oneHeld.pool.queue = [] := rfl
  have held : oneHeld.heldSegments = [511] := by decide +kernel
  refine ⟨⟨?_, ?_, ?_, ?_, by decide +kernel, ?_⟩, rfl⟩
  · rw [held, show oneHeld.pool.free ++ [511] = List.range 512 by decide +kernel]
  · rw [show oneHeld.pool.free = List.range 511 by decide +kernel]
    exact List.pairwise_lt_range
  · decide +kernel
  · have empty : ∀ l, (oneHeld.leg l).state = .idle → (oneHeld.leg l).ec.segments = [] := by decide +kernel
    exact fun l h => ⟨empty l h, by rw [none]; intro x hx; cases hx⟩
  · intro x hx; rw [none] at hx; cases hx

theorem witness_AttachAndSuperLawsKept :
    AttachLaw r ∧ SuperLaw r ∧
    WhisperLaw (queued ⟨[{ aPrompt with begun := true }, aPrompt, aPrompt, aPrompt], .granted 3, none, none⟩) ∧
    step { r with pending := [.portEnable 1 (.fields 1)] } = execPortEnable 1 (.fields 1) { r with pending := [] } :=
  ⟨attach_of_no_calls _ rfl (by decide +kernel), super_of_none _ (by decide +kernel), by unfold WhisperLaw; decide +kernel, step_one _⟩

end Sys2Proof.Tests
end

section
/-! ## LEG_STATUS: a request handled at once, what a leg is owed, a session as shown (R48, R118, R163, R188) -/

namespace Sys2Proof.Machine

/-- A well-formed request to a ready handler is its owner's answer with the reply placed (R186, R188). -/
theorem serve_fields_of_ready {α : Type} [DecidableEq α] {s : State} (h : Ready s) (code tag : Byte) (fields : Parser α) (x : α)
    (owner : α → State → Handled) :
    serve code tag fields (.fields x) owner s
      = (owner x s).state.reply ⟨code, tag, (owner x s).status, (owner x s).fields⟩ := by
  obtain ⟨running, noneWaiting, room⟩ := h
  rw [serve_ready code tag fields (.fields x) owner s running noneWaiting room, respond_fields]

/-- An identifier that names a leg is that leg's (section 2.2). -/
@[simp] theorem withLeg_val (l : LegId) (s : State) (f : LegId → Handled) : withLeg l.val s f = f l := by
  simp [withLeg]

/-- A leg without an entry in the shortfall queue is owed nothing (R118). -/
theorem State.owed_of_no_entry {s : State} {l : LegId} (h : ∀ x ∈ s.pool.queue, x.leg ≠ l) : s.owed l = 0 := by
  have notFound : s.pool.queue.find? (fun x => x.leg = l) = none := by
    rw [List.find?_eq_none]
    simpa using h
  simp [State.owed, notFound]

/-- With at most one entry for each leg, a leg is owed what its entry says (R93, R118). -/
theorem State.owed_of_entry {s : State} {x : Shortfall} (h : x ∈ s.pool.queue) (once : (s.pool.queue.map Shortfall.leg).Nodup) :
    s.owed x.leg = x.owed := by
  cases found : s.pool.queue.find? (fun y => y.leg = x.leg) with
  | none =>
    rw [List.find?_eq_none] at found
    exact absurd (found x h) (by simp)
  | some y =>
    have sameLeg : y.leg = x.leg := by simpa using List.find?_some found
    have same : y = x := List.inj_on_of_nodup_map once (List.mem_of_find?_eq_some found) h sameLeg
    simp [State.owed, found, same]

/-- A session between requests is shown without one (R163). -/
theorem State.sessionView_request_none (s : State) {x : Session} (h : x.request = none) : (s.sessionView x).request = none := by
  simp [State.sessionView, h]

/-- A session's current request is shown with its engine's state once granted (R163). -/
theorem State.sessionView_request_some (s : State) {x : Session} {r : SessionRequest} (h : x.request = some r) :
    (s.sessionView x).request = some ⟨r.clip, r.place, r.engine.map fun e => (e, (s.eng e).state)⟩ := by
  simp [State.sessionView, h]

/-- A leg's session is shown through its view, and a leg without one shows none (R48, R163). -/
theorem State.legStatus_session (s : State) (l : LegId) : (s.legStatus l).session = (s.leg l).session.map s.sessionView := rfl

/-- The command LEG_STATUS is carried out by its own meaning. -/
theorem exec_legStatus (tag : Byte) (q : Payload Nat) (s : State) : exec (.legStatus tag q) s = execLegStatus tag q s := by
  rfl

/-- LEG_STATUS to a ready handler places the leg's status as its reply and does nothing else (R48, R188). -/
theorem exec_legStatus_of_ready {s : State} (h : Ready s) (l : LegId) (tag : Byte) :
    exec (.legStatus tag (.fields l.val)) s = .next (s.reply ⟨0x15, tag, .ok, .legStatus (s.legStatus l)⟩) := by
  rw [exec_legStatus, execLegStatus, serve_fields_of_ready h]
  simp [ownLegStatus]

/-- Settles O23: the fields copied from the leg and its canceller hold by the definition of the status; the session's view and the
number owed are looked up, and each has its own lemma. -/
theorem legStatus : Obligations.LegStatus := by
  intro s l tag ready
  refine ⟨s.legStatus l, exec_legStatus_of_ready ready l tag, rfl, rfl, rfl, rfl, ?noSession, ?session, rfl, rfl, rfl, ?noEntry, ?entry,
    rfl, rfl, rfl, rfl, rfl, rfl⟩
  case noSession =>
    intro hx
    rw [State.legStatus_session, hx, Option.map_none]
  case session =>
    intro x hx
    have shown : (s.legStatus l).session = some (s.sessionView x) := by rw [State.legStatus_session, hx, Option.map_some]
    exact ⟨s.sessionView x, shown, rfl, rfl, rfl, rfl, s.sessionView_request_none, fun _ => s.sessionView_request_some⟩
  case noEntry => exact State.owed_of_no_entry
  case entry =>
    rintro x hx rfl once
    exact State.owed_of_entry hx once

end Sys2Proof.Machine
end

section
/-! ## CLIP_INFO and PLAN_INFO: the records as shown, the source of a plan's music feeds (R57, R129, R149) -/

namespace Sys2Proof.Machine

/-- An identifier that names a plan is that plan's (section 2.2). -/
@[simp] theorem withPlan_val (h : PlanId) (s : State) (f : PlanId → Handled) : withPlan h.val s f = f h := by
  simp [withPlan]

/-- An identifier beyond the last plan is refused (section 2.2). -/
theorem withPlan_beyond {n : Nat} (hn : 16 ≤ n) (s : State) (f : PlanId → Handled) : withPlan n s f = refuse s .range := by
  simp [withPlan, toId_none hn]

/-- An undefined plan is shown as undefined (R149). -/
theorem State.planInfo_of_undefined {s : State} {h : PlanId} (undefined : (s.plan h).record = none) : s.planInfo h = none := by
  simp [State.planInfo, undefined]

/-- A defined plan is shown by its record, its use count, its shared stream and the source of its MUSIC feeds (R149). -/
theorem State.planInfo_of_defined {s : State} {h : PlanId} {r : PlanRecord} (defined : (s.plan h).record = some r) :
    s.planInfo h = some ⟨r, (s.plan h).useCount, (s.plan h).bound.map fun e => (e, (s.eng e).state), (s.plan h).pending,
      s.planMusic h⟩ := by
  simp [State.planInfo, defined]

section Music
variable {s : State} {h : PlanId} {r : PlanRecord} (defined : (s.plan h).record = some r)
include defined

/-- Without a background the MUSIC feeds take no source (R57). -/
theorem State.planMusic_of_absent (background : r.background = .absent) : s.planMusic h = none := by
  simp [State.planMusic, defined, background]

/-- With a program channel as background the MUSIC feeds take that channel (R57). -/
theorem State.planMusic_of_program {k : ChanId} (background : r.background = .program k) : s.planMusic h = some (.program k) := by
  simp [State.planMusic, defined, background]

/-- With a shared clip the MUSIC feeds take the bound engine while it is PLAYING (R57). -/
theorem State.planMusic_of_playing {c : ClipId} {e : EngId} (background : r.background = .shared c)
    (bound : (s.plan h).bound = some e) (playing : (s.eng e).state = .playing) : s.planMusic h = some (.engine e) := by
  simp [State.planMusic, defined, background, bound, playing]

/-- With a shared clip and no PLAYING engine bound, the MUSIC feeds take the plan's fallback channel, if it has one (R57). -/
theorem State.planMusic_of_not_playing {c : ClipId} (background : r.background = .shared c)
    (idle : ∀ e, (s.plan h).bound = some e → (s.eng e).state ≠ .playing) : s.planMusic h = r.fallback.map .program := by
  cases bound : (s.plan h).bound with
  | none => simp [State.planMusic, defined, background, bound]
  | some e => simp [State.planMusic, defined, background, bound, idle e bound]

end Music

/-- The write's progress is shown with a WRITING clip (R129). -/
theorem State.clipInfo_writing_of_writing {s : State} {c : ClipId} (writing : (s.clip c).state = .writing) :
    (s.clipInfo c).writing = some (s.write.expected, s.write.programmed, s.write.closing.isSome) := by
  simp [State.clipInfo, writing]

/-- A clip in any other state is shown without a write's progress (R129). -/
theorem State.clipInfo_writing_of_not_writing {s : State} {c : ClipId} (other : (s.clip c).state ≠ .writing) :
    (s.clipInfo c).writing = none := by
  simp [State.clipInfo, other]

/-- The engines shown with a clip are those on it that are not FREE, each with its owner, state and underrun count (R129). -/
theorem State.mem_clipInfo_engines (s : State) (c : ClipId) (v : EngineView) :
    v ∈ (s.clipInfo c).engines ↔ ∃ e, (s.eng e).state ≠ .free ∧ (s.eng e).clip = some c
      ∧ v = ⟨e, (s.eng e).owner, (s.eng e).state, (s.eng e).underruns⟩ := by
  simp [State.clipInfo, and_assoc, @eq_comm _ v]

/-- During a directory scan CLIP_INFO is refused (R122, R129). -/
theorem ownClipInfo_of_scanning {s : State} (c : ClipId) (scanning : s.memory.mode = .scanning) :
    ownClipInfo c.val s = refuse s .busy := by
  simp [ownClipInfo, scanning]

/-- Outside a directory scan CLIP_INFO is answered with the clip's record (R129). -/
theorem ownClipInfo_of_not_scanning {s : State} (c : ClipId) (noScan : s.memory.mode ≠ .scanning) :
    ownClipInfo c.val s = ⟨s, .ok, .clipInfo (s.clipInfo c)⟩ := by
  simp [ownClipInfo, noScan]

/-- The command CLIP_INFO is carried out by its own meaning. -/
theorem exec_clipInfo (tag : Byte) (q : Payload Nat) (s : State) : exec (.clipInfo tag q) s = execClipInfo tag q s := by
  rfl

/-- The command PLAN_INFO is carried out by its own meaning. -/
theorem exec_planInfo (tag : Byte) (q : Payload Nat) (s : State) : exec (.planInfo tag q) s = execPlanInfo tag q s := by
  rfl

section Ready
variable {s : State} (ready : Ready s) (tag : Byte)
include ready

/-- CLIP_INFO to a ready handler during a scan places the reply BUSY and does nothing else (R129, R188). -/
theorem exec_clipInfo_of_scanning (c : ClipId) (scanning : s.memory.mode = .scanning) :
    exec (.clipInfo tag (.fields c.val)) s = .next (s.reply ⟨0x34, tag, .busy, .none⟩) := by
  rw [exec_clipInfo, execClipInfo, serve_fields_of_ready ready, ownClipInfo_of_scanning c scanning, refuse]

/-- CLIP_INFO to a ready handler outside a scan places the clip's record as its reply and does nothing else (R129, R188). -/
theorem exec_clipInfo_of_not_scanning (c : ClipId) (noScan : s.memory.mode ≠ .scanning) :
    exec (.clipInfo tag (.fields c.val)) s = .next (s.reply ⟨0x34, tag, .ok, .clipInfo (s.clipInfo c)⟩) := by
  rw [exec_clipInfo, execClipInfo, serve_fields_of_ready ready, ownClipInfo_of_not_scanning c noScan]

/-- PLAN_INFO for no plan of the part places the reply RANGE and does nothing else (R149, R188). -/
theorem exec_planInfo_beyond {n : Nat} (hn : 16 ≤ n) :
    exec (.planInfo tag (.fields n)) s = .next (s.reply ⟨0x22, tag, .range, .none⟩) := by
  rw [exec_planInfo, execPlanInfo, serve_fields_of_ready ready, ownPlanInfo, withPlan_beyond hn, refuse]

/-- PLAN_INFO to a ready handler places the plan as shown as its reply and does nothing else (R149, R188). -/
theorem exec_planInfo_of_ready (h : PlanId) :
    exec (.planInfo tag (.fields h.val)) s = .next (s.reply ⟨0x22, tag, .ok, .planInfo (s.planInfo h)⟩) := by
  rw [exec_planInfo, execPlanInfo, serve_fields_of_ready ready, ownPlanInfo, withPlan_val]

end Ready

/-- Settles O38: each reply is the record shown and leaves the state; the write's progress, the engines on the clip and the source of
the plan's MUSIC feeds are computed from other records, and each has its own lemma. -/
theorem recordReplies : Obligations.RecordReplies := by
  constructor
  case left =>
    intro s c tag ready
    exact ⟨exec_clipInfo_of_scanning ready tag c, fun noScan => ⟨s.clipInfo c, exec_clipInfo_of_not_scanning ready tag c noScan,
      rfl, rfl, rfl, rfl, rfl, rfl, State.clipInfo_writing_of_writing, State.clipInfo_writing_of_not_writing,
      s.mem_clipInfo_engines c⟩⟩
  case right =>
    intro s h tag ready
    refine ⟨fun _ beyond => exec_planInfo_beyond ready tag beyond, ?undefined, ?defined⟩
    case undefined =>
      intro undefined
      rw [exec_planInfo_of_ready ready, State.planInfo_of_undefined undefined]
    case defined =>
      intro r defined
      have shown := exec_planInfo_of_ready ready tag h
      rw [State.planInfo_of_defined defined] at shown
      refine ⟨_, shown, rfl, rfl, rfl, ?unbound, ?bound, State.planMusic_of_absent defined,
        fun _ => State.planMusic_of_program defined, fun c shared => ⟨fun e => State.planMusic_of_playing defined shared,
          State.planMusic_of_not_playing defined shared⟩⟩
      case unbound =>
        intro unbound
        rw [unbound, Option.map_none]
      case bound =>
        intro e bound
        rw [bound, Option.map_some]

end Sys2Proof.Machine
end

section
-- One proof after the other: the threads of many at once exceed the memory that the check allows.
set_option Elab.async false
/-! ## What the operations of the part keep: the link's sizes, the ports, the wait queue, the flash, the feed lists, the tap pool -/

namespace Sys2Proof.Machine

/-! ### Tables of records -/

/-- A property of every position holds after one position is changed to one that has it. -/
theorem State.forall_pos_modPos {s : State} {p : PosId} {f : Position → Position} {P : PosId → Position → Prop}
    (all : ∀ q, P q (s.pos q)) (one : P p (f (s.pos p))) (q : PosId) : P q ((s.modPos p f).pos q) := by
  by_cases same : p = q
  · subst same
    rwa [State.pos_modPos_same]
  · rw [State.pos_modPos_ne s p q f same]
    exact all q

/-- A property of every leg holds after one leg is changed to one that has it. -/
theorem State.forall_leg_modLeg {s : State} {l : LegId} {f : Leg → Leg} {P : LegId → Leg → Prop}
    (all : ∀ m, P m (s.leg m)) (one : P l (f (s.leg l))) (m : LegId) : P m ((s.modLeg l f).leg m) := by
  by_cases same : l = m
  · subst same
    rwa [State.leg_modLeg_same]
  · rw [State.leg_modLeg_ne s l m f same]
    exact all m

/-- A property of every clip holds after one clip is changed to one that has it. -/
theorem State.forall_clip_modClip {s : State} {c : ClipId} {f : Clip → Clip} {P : ClipId → Clip → Prop}
    (all : ∀ d, P d (s.clip d)) (one : P c (f (s.clip c))) (d : ClipId) : P d ((s.modClip c f).clip d) := by
  by_cases same : c = d
  · subst same
    rwa [State.clip_modClip_same]
  · rw [State.clip_modClip_ne s c d f same]
    exact all d

/-- A property of every engine holds after one engine is changed to one that has it. -/
theorem State.forall_eng_modEng {s : State} {e : EngId} {f : Engine → Engine} {P : EngId → Engine → Prop}
    (all : ∀ d, P d (s.eng d)) (one : P e (f (s.eng e))) (d : EngId) : P d ((s.modEng e f).eng d) := by
  by_cases same : e = d
  · subst same
    rwa [State.eng_modEng_same]
  · rw [State.eng_modEng_ne s e d f same]
    exact all d

/-! ### The laws of one record -/

/-- What the port law says of one position. -/
def Position.Law (x : Position) : Prop :=
  x.port.uplink.Law ∧ x.port.downlink.Law ∧ x.port.parityCount ≤ 65535 ∧ x.limiter.shocks ≤ 65535

theorem portLaw_iff (s : State) : PortLaw s ↔ ∀ p, (s.pos p).Law := Iff.rfl

/-- A change of one position that keeps the port law of the position keeps it of all. -/
theorem PortLaw.modPos {s : State} (h : PortLaw s) (p : PosId) {f : Position → Position}
    (k : (s.pos p).Law → (f (s.pos p)).Law) : PortLaw (s.modPos p f) :=
  State.forall_pos_modPos (P := fun _ x => x.Law) h (k (h p))

/-- The tap pool's law speaks of the pool, the segment lists and which legs are IDLE. -/
theorem PoolLaw.of_same {s t : State} (h : PoolLaw s) (pool : t.pool = s.pool)
    (segments : ∀ l, (t.leg l).ec.segments = (s.leg l).ec.segments)
    (idle : ∀ l, (t.leg l).state = .idle → (s.leg l).state = .idle) : PoolLaw t := by
  obtain ⟨each, rising, room, none, once, owes⟩ := h
  have held : t.heldSegments = s.heldSegments := by simp only [State.heldSegments, segments]
  have owed : ∀ l, t.owed l = s.owed l := fun l => by simp only [State.owed, pool]
  refine ⟨by rw [pool, held]; exact each, by rw [pool]; exact rising, fun l => by rw [segments, owed]; exact room l,
    fun l i => ?_, by rw [pool]; exact once, by rw [pool]; exact owes⟩
  rw [segments, pool]
  exact none l (idle l i)

/-! ### The relation -/

/-- What an owner's operation keeps from s to t: the replies and the buffer as they were, and the laws of the report queue, the ports, the
wait queue, the flash image, the feed lists and the tap pool. -/
structure KeepsLists (s t : State) : Prop where
  replies : t.link.replies = s.link.replies
  buffer : t.link.buffer = s.link.buffer
  reports : s.link.reports.length ≤ 32 → t.link.reports.length ≤ 32
  port : PortLaw s → PortLaw t
  wait : WaitLaw s → WaitLaw t
  flash : FlashLaw s → FlashLaw t
  feed : FeedLaw s → FeedLaw t
  pool : PoolLaw s → PoolLaw t

namespace KeepsLists

theorem refl (s : State) : KeepsLists s s := ⟨rfl, rfl, id, id, id, id, id, id⟩

theorem trans {s t u : State} (a : KeepsLists s t) (b : KeepsLists t u) : KeepsLists s u where
  replies := b.replies.trans a.replies
  buffer := b.buffer.trans a.buffer
  reports := b.reports ∘ a.reports
  port := b.port ∘ a.port
  wait := b.wait ∘ a.wait
  flash := b.flash ∘ a.flash
  feed := b.feed ∘ a.feed
  pool := b.pool ∘ a.pool

/-- What stays outside a chain of happenings, with the wait queue, the feed lists and the IDLE legs. -/
theorem of_outside {s t : State} (h : Outside s t) (wait : WaitLaw s → WaitLaw t) (feed : FeedLaw s → FeedLaw t)
    (idle : ∀ l, (t.leg l).state = .idle → (s.leg l).state = .idle) : KeepsLists s t where
  replies := h.replies
  buffer := h.buffer
  reports := h.reportsLe
  port := fun k p => by rw [h.port p, h.limiter p]; exact k p
  wait := wait
  flash := fun k => by rw [FlashLaw, h.flash]; exact k
  feed := feed
  pool := fun k => k.of_same h.pool (fun l => (congrArg Canceller.segments (h.ec l) :)) idle

theorem report (s : State) (b : ReportBody) : KeepsLists s (s.report b) :=
  ⟨Link.placeReport_replies _ _, Link.placeReport_buffer _ _, Link.placeReport_reports_le _ _, id, id, id, id, id⟩

theorem modPos (s : State) (p : PosId) {f : Position → Position} (k : (s.pos p).Law → (f (s.pos p)).Law) :
    KeepsLists s (s.modPos p f) :=
  ⟨rfl, rfl, id, fun h => h.modPos p k, id, id, id, id⟩

theorem modLeg (s : State) (l : LegId) {f : Leg → Leg} (segments : (f (s.leg l)).ec.segments = (s.leg l).ec.segments)
    (idle : (f (s.leg l)).state = .idle → (s.leg l).state = .idle) : KeepsLists s (s.modLeg l f) :=
  ⟨rfl, rfl, id, id, id, id, id, fun h => h.of_same rfl
    (State.forall_leg_modLeg (P := fun m x => x.ec.segments = (s.leg m).ec.segments) (fun _ => rfl) segments)
    (State.forall_leg_modLeg (P := fun m x => x.state = .idle → (s.leg m).state = .idle) (fun _ => id) idle)⟩

theorem modEc (s : State) (l : LegId) {f : Canceller → Canceller} (segments : (f (s.leg l).ec).segments = (s.leg l).ec.segments) :
    KeepsLists s (s.modEc l f) := modLeg s l segments id

theorem modEng (s : State) (e : EngId) (f : Engine → Engine) : KeepsLists s (s.modEng e f) :=
  ⟨rfl, rfl, id, id, id, id, id, id⟩

theorem modClip (s : State) (c : ClipId) (f : Clip → Clip) : KeepsLists s (s.modClip c f) :=
  ⟨rfl, rfl, id, id, id, id, id, id⟩

theorem modPlan (s : State) (h : PlanId) (f : Plan → Plan) : KeepsLists s (s.modPlan h f) :=
  ⟨rfl, rfl, id, id, id, id, id, id⟩

theorem memory (s : State) (m : MemoryPort) : KeepsLists s { s with memory := m } := ⟨rfl, rfl, id, id, id, id, id, id⟩

theorem freeSlabs (s : State) (l : List Nat) : KeepsLists s { s with freeSlabs := l } := ⟨rfl, rfl, id, id, id, id, id, id⟩

theorem write (s : State) (w : WriteContext) : KeepsLists s { s with write := w } := ⟨rfl, rfl, id, id, id, id, id, id⟩

theorem scan (s : State) (x : Scan) : KeepsLists s { s with scan := x } := ⟨rfl, rfl, id, id, id, id, id, id⟩

theorem arbiter (s : State) (a : Arbiter) (k : WaitLaw s → WaitLaw { s with arbiter := a }) :
    KeepsLists s { s with arbiter := a } := ⟨rfl, rfl, id, id, k, id, id, id⟩

theorem flashImage (s : State) (m : List Host.Cell) (k : Memory.wf s.flash = true → Memory.wf m = true) :
    KeepsLists s { s with flash := m } := ⟨rfl, rfl, id, id, id, k, id, id⟩

theorem feeds (s : State) (ears : Table (List Feed) 32) (sends : Table (List Feed) 64)
    (k : FeedLaw s → FeedLaw { s with ears := ears, sends := sends }) : KeepsLists s { s with ears := ears, sends := sends } :=
  ⟨rfl, rfl, id, id, id, id, k, id⟩

/-- A chain of operations on the positions and the link's reports. -/
theorem foldl {α : Type} (f : State → α → State) (k : ∀ s x, KeepsLists s (f s x)) (s : State) (xs : List α) :
    KeepsLists s (xs.foldl f s) := by
  induction xs generalizing s with
  | nil => exact refl s
  | cons x xs ih => exact (k s x).trans (ih (f s x))

end KeepsLists

/-! ### The wait queue -/

theorem mem_enqueue (w y : WaitEntry) (l : List WaitEntry) : y ∈ enqueue w l ↔ y = w ∨ y ∈ l := by
  induction l with
  | nil => simp [enqueue]
  | cons x rest ih =>
    unfold enqueue
    split
    · rw [List.mem_cons, ih, List.mem_cons]
      tauto
    · simp

/-- A request put into the wait queue leaves it in the order of the classes (R142). -/
theorem enqueue_pairwise (w : WaitEntry) {l : List WaitEntry} (h : l.Pairwise fun x y => x.owner.cls ≤ y.owner.cls) :
    (enqueue w l).Pairwise fun x y => x.owner.cls ≤ y.owner.cls := by
  induction l with
  | nil => simp [enqueue]
  | cons x rest ih =>
    obtain ⟨head, tail⟩ := List.pairwise_cons.1 h
    unfold enqueue
    split
    · rename_i first
      refine List.Pairwise.cons (fun y hy => ?_) (ih tail)
      obtain rfl | hy := (mem_enqueue w y rest).1 hy
      · exact first
      · exact head y hy
    · rename_i first
      refine List.Pairwise.cons (fun y hy => ?_) h
      obtain rfl | hy := List.mem_cons.1 hy
      · omega
      · exact le_trans (by omega) (head y hy)

/-! ### The feed lists -/

theorem FeedLaw.map {s : State} (h : FeedLaw s) {f : PosId → List Feed → List Feed} {g : LegId → List Feed → List Feed}
    (hf : ∀ p l, FeedListLaw l → FeedListLaw (f p l)) (hg : ∀ p l, FeedListLaw l → FeedListLaw (g p l)) :
    FeedLaw { s with ears := tmap f s.ears, sends := tmap g s.sends } :=
  ⟨fun p => by rw [tget_tmap]; exact hf p _ (h.1 p), fun l => by rw [tget_tmap]; exact hg l _ (h.2 l)⟩

theorem FeedLaw.dropEngineFeeds {s : State} (h : FeedLaw s) (e : EngId) : FeedLaw (s.dropEngineFeeds e) :=
  h.map (fun _ _ k => k.sublist List.filter_sublist) fun _ _ k => k.sublist List.filter_sublist

theorem FeedLaw.dropLegFeeds {s : State} (h : FeedLaw s) (l : LegId) : FeedLaw (s.dropLegFeeds l) := by
  have filtered : FeedLaw { s with
      ears := tmap (fun _ fs => fs.filter fun f => f.source ≠ .rx l) s.ears
      sends := tmap (fun _ fs => fs.filter fun f => f.source ≠ .rx l) s.sends } :=
    h.map (fun _ _ k => k.sublist List.filter_sublist) fun _ _ k => k.sublist List.filter_sublist
  refine ⟨filtered.1, fun m => ?_⟩
  by_cases same : l = m
  · subst same
    simp [State.dropLegFeeds, FeedListLaw]
  · simp only [State.dropLegFeeds, tget_tset_ne _ _ _ _ same]
    exact filtered.2 m

theorem FeedLaw.rederiveAll {s : State} (h : FeedLaw s) : FeedLaw s.rederiveAll :=
  h.map (fun _ _ k => rederive_law k _) fun _ _ k => rederive_law k _

namespace KeepsLists

theorem dropEngineFeeds (s : State) (e : EngId) : KeepsLists s (s.dropEngineFeeds e) := feeds s _ _ fun h => h.dropEngineFeeds e

theorem dropLegFeeds (s : State) (l : LegId) : KeepsLists s (s.dropLegFeeds l) := feeds s _ _ fun h => h.dropLegFeeds l

theorem finish (s before : State) : KeepsLists s (s.finish before) := by
  refine of_outside (Outside.finish (Outside.refl s) before) id (fun h => FeedLaw.rederiveAll (s := s.noticeMusic before) h) fun l h => ?_
  obtain e | e := s.finish_leg before l <;> rw [e] at h <;> exact h

end KeepsLists

end Sys2Proof.Machine
end

section
set_option Elab.async false
/-! ## What the operations of the part keep: the clip directory (R120 to R122, R126, R135, R136) -/

namespace Sys2Proof.Machine

/-! ### Lists of all identifiers -/

/-- The identifiers of a kind are any one of them and the others. -/
theorem finRange_perm_cons_erase {n : Nat} (i : Fin n) : (List.finRange n).Perm (i :: (List.finRange n).erase i) :=
  List.perm_cons_erase (List.mem_finRange i)

theorem ne_of_mem_erase_finRange {n : Nat} {i j : Fin n} (h : j ∈ (List.finRange n).erase i) : j ≠ i :=
  ((List.nodup_finRange n).mem_erase_iff.1 h).1

/-- Lists gathered over all identifiers are the list of any one of them and those of the others. -/
theorem flatMap_finRange_perm {n : Nat} {α : Type} (i : Fin n) (g : Fin n → List α) :
    ((List.finRange n).flatMap g).Perm (g i ++ ((List.finRange n).erase i).flatMap g) := by
  simpa using (finRange_perm_cons_erase i).flatMap_right g

/-- Lists gathered over all identifiers but one are the same when they differ at that one alone. -/
theorem flatMap_erase_finRange {n : Nat} {α : Type} {i : Fin n} {g g' : Fin n → List α} (same : ∀ j, j ≠ i → g j = g' j) :
    ((List.finRange n).erase i).flatMap g = ((List.finRange n).erase i).flatMap g' :=
  List.flatMap_congr fun j hj => same j (ne_of_mem_erase_finRange hj)

/-- What one list of those gathered becomes, the others standing. -/
theorem flatMap_finRange_replace {n : Nat} {α : Type} (i : Fin n) {g g' : Fin n → List α} (same : ∀ j, j ≠ i → g' j = g j) :
    (g i ++ (List.finRange n).flatMap g').Perm (g' i ++ (List.finRange n).flatMap g) := by
  have a := (flatMap_finRange_perm i g').append_left (g i)
  have b := (flatMap_finRange_perm i g).append_left (g' i)
  rw [flatMap_erase_finRange same] at a
  exact (a.trans (List.perm_append_comm_assoc _ _ _)).trans b.symm

/-- The count over all identifiers is what one of them gives and the count over the others. -/
theorem length_filter_finRange {n : Nat} (i : Fin n) (P : Fin n → Bool) :
    ((List.finRange n).filter P).length = (P i).toNat + (((List.finRange n).erase i).filter P).length := by
  rw [((finRange_perm_cons_erase i).filter P).length_eq, List.filter_cons]
  cases P i <;> simp [Nat.add_comm]

theorem length_filter_erase_finRange {n : Nat} {i : Fin n} {P Q : Fin n → Bool} (same : ∀ j, j ≠ i → P j = Q j) :
    (((List.finRange n).erase i).filter P).length = (((List.finRange n).erase i).filter Q).length :=
  congrArg List.length (List.filter_congr fun j hj => same j (ne_of_mem_erase_finRange hj))

/-! ### Free sets -/

/-- Numbers returned to a free set that holds none of them. -/
theorem returnNumbers_perm {xs l : List Nat} (h : (xs ++ l).Nodup) : (returnNumbers xs l).Perm (xs ++ l) := by
  induction xs generalizing l with
  | nil => exact List.Perm.refl l
  | cons x xs ih =>
    obtain ⟨fresh, rest⟩ := List.nodup_cons.1 h
    have put := insertNumber_perm x l fun m => fresh (List.mem_append_right xs m)
    have perm : (xs ++ insertNumber x l).Perm (x :: (xs ++ l)) := (put.append_left xs).trans List.perm_middle
    exact (ih (perm.nodup_iff.2 h)).trans perm

/-! ### Engines on a clip, slabs of the clips -/

/-- The engines that are not FREE on a clip. -/
def State.enginesOn (s : State) (c : ClipId) : Nat :=
  ((List.finRange 24).filter fun e => decide ((s.eng e).state ≠ .free ∧ (s.eng e).clip = some c)).length

/-- The engine is not FREE and on the clip. -/
def Engine.isOn (x : Engine) (c : ClipId) : Bool := decide (x.state ≠ .free ∧ x.clip = some c)

theorem State.enginesOn_congr {s t : State} (same : ∀ e c, (t.eng e).isOn c = (s.eng e).isOn c) (c : ClipId) :
    t.enginesOn c = s.enginesOn c :=
  congrArg List.length (List.filter_congr fun e _ => same e c)

/-- When one engine changes, a clip loses what it was on and gains what it is on. -/
theorem State.enginesOn_replace {s t : State} {e : EngId} (same : ∀ d, d ≠ e → t.eng d = s.eng d) (c : ClipId) :
    t.enginesOn c + ((s.eng e).isOn c).toNat = s.enginesOn c + ((t.eng e).isOn c).toNat := by
  have before : s.enginesOn c = _ := length_filter_finRange e fun d => (s.eng d).isOn c
  have after : t.enginesOn c = _ := length_filter_finRange e fun d => (t.eng d).isOn c
  rw [before, after, length_filter_erase_finRange (P := fun d => (t.eng d).isOn c) (Q := fun d => (s.eng d).isOn c)
    fun d hd => by rw [same d hd]]
  omega

theorem State.slabsBelow_congr {s t : State} {n : Nat} (same : ∀ c : ClipId, c.val < n → (t.clip c).slabs = (s.clip c).slabs) :
    t.slabsBelow n = s.slabsBelow n :=
  List.flatMap_congr fun c hc => same c (by simpa using (List.mem_filter.1 hc).2)

theorem State.slabsBelow_all (s : State) : s.slabsBelow 256 = (List.finRange 256).flatMap fun c => (s.clip c).slabs := by
  have all : (List.finRange 256).filter (fun c => decide (c.val < 256)) = List.finRange 256 :=
    List.filter_eq_self.2 fun c _ => by simp
  unfold State.slabsBelow
  rw [all]

theorem State.mem_slabsBelow {s : State} {n k : Nat} : k ∈ s.slabsBelow n ↔ ∃ c : ClipId, c.val < n ∧ k ∈ (s.clip c).slabs := by
  simp [State.slabsBelow]

/-- The slabs of the clips up to one are those of the clips below it and its own. -/
theorem State.slabsBelow_succ (s : State) (c : ClipId) : (s.slabsBelow (c.val + 1)).Perm (s.slabsBelow c.val ++ (s.clip c).slabs) := by
  have ids : ((List.finRange 256).filter fun d => d.val < c.val + 1).Perm
      (((List.finRange 256).filter fun d => d.val < c.val) ++ [c]) := by
    have nodup : (List.finRange 256).Nodup := List.nodup_finRange 256
    have nodup' : (((List.finRange 256).filter fun d : ClipId => decide (d.val < c.val)) ++ [c]).Nodup := by
      rw [List.nodup_append]
      exact ⟨nodup.filter _, by simp, fun d hd e he => by
        rw [List.mem_singleton] at he
        have less : d.val < c.val := by simpa using (List.mem_filter.1 hd).2
        exact fun same => by rw [same, he] at less; exact lt_irrefl _ less⟩
    refine (List.perm_ext_iff_of_nodup (nodup.filter _) nodup').2 fun d => ?_
    simp only [List.mem_filter, List.mem_finRange, true_and, decide_eq_true_eq, List.mem_append, List.mem_singleton, Fin.ext_iff]
    omega
  simpa [State.slabsBelow] using ids.flatMap_right fun d => (s.clip d).slabs

/-! ### The directory's law from one state to another -/

/-- Engines move on and off clips, each counted; nothing else that the directory's law speaks of changes. -/
theorem DirectoryLaw.of_counts {s t : State} (h : DirectoryLaw s) (useCount : ∀ c, (t.clip c).useCount = t.enginesOn c)
    (inUse : ∀ c, 0 < (t.clip c).useCount → (t.clip c).state = .ready ∨ (t.clip c).state = .retiring)
    (state : ∀ c, (t.clip c).state = (s.clip c).state) (slabs : ∀ c, (t.clip c).slabs = (s.clip c).slabs)
    (freeSlabs : t.freeSlabs = s.freeSlabs) (write : t.write.clip = s.write.clip) (mode : t.memory.mode = s.memory.mode)
    (scan : t.scan.next = s.scan.next)
    (scanning : t.memory.mode = .scanning → t.arbiter.scanning = true ∧ ∀ e, (t.eng e).state = .free) : DirectoryLaw t where
  useCount := useCount
  inUse := inUse
  writing := fun c => by rw [state, write]; exact h.writing c
  away := by rw [mode, write]; exact h.away
  scanning := scanning
  empty := fun c k => by rw [slabs]; exact h.empty c (by rw [← state]; exact k)
  rising := by rw [freeSlabs]; exact h.rising
  slabs := by rw [mode, freeSlabs, State.slabsBelow_congr fun c _ => slabs c]; exact h.slabs
  found := by rw [mode, scan, State.slabsBelow_congr fun c _ => slabs c]; exact h.found

/-- Nothing that the directory's law speaks of changes. -/
theorem DirectoryLaw.of_same {s t : State} (h : DirectoryLaw s) (clips : t.clips = s.clips)
    (engines : ∀ e, ((t.eng e).state = .free ↔ (s.eng e).state = .free) ∧ (t.eng e).clip = (s.eng e).clip)
    (freeSlabs : t.freeSlabs = s.freeSlabs) (write : t.write.clip = s.write.clip) (mode : t.memory.mode = s.memory.mode)
    (scan : t.scan.next = s.scan.next) (scanning : t.arbiter.scanning = s.arbiter.scanning) : DirectoryLaw t := by
  have clip : ∀ c, t.clip c = s.clip c := State.clip_congr clips
  have on : ∀ e c, (t.eng e).isOn c = (s.eng e).isOn c := fun e c => by
    simp only [Engine.isOn, ne_eq, (engines e).1, (engines e).2]
  refine h.of_counts (fun c => ?_) (fun c => ?_) (fun c => by rw [clip]) (fun c => by rw [clip]) freeSlabs write mode scan fun k => ?_
  · rw [clip, State.enginesOn_congr on]
    exact h.useCount c
  · rw [clip]
    exact h.inUse c
  · rw [mode] at k
    rw [scanning]
    exact ⟨(h.scanning k).1, fun e => (engines e).1.2 ((h.scanning k).2 e)⟩

/-- An update that leaves alone every field that the directory's law speaks of. -/
theorem DirectoryLaw.of_fields {s t : State} (h : DirectoryLaw s) (clips : t.clips = s.clips := by rfl)
    (engines : t.engines = s.engines := by rfl) (freeSlabs : t.freeSlabs = s.freeSlabs := by rfl)
    (write : t.write.clip = s.write.clip := by rfl) (mode : t.memory.mode = s.memory.mode := by rfl)
    (scan : t.scan.next = s.scan.next := by rfl) (scanning : t.arbiter.scanning = s.arbiter.scanning := by rfl) : DirectoryLaw t :=
  h.of_same clips (fun e => by rw [State.eng_congr engines e]; exact ⟨Iff.rfl, rfl⟩) freeSlabs write mode scan scanning

/-- One clip's entry replaced, with what the write context and the free slabs become; the engines stay. -/
theorem DirectoryLaw.replaceClip {s t : State} (h : DirectoryLaw s) {c : ClipId} {x : Clip} (clips : t.clips = tset s.clips c x)
    (engines : t.engines = s.engines) (mode : t.memory.mode = s.memory.mode) (scan : t.scan.next = s.scan.next)
    (scanning : t.arbiter.scanning = s.arbiter.scanning) (useCount : x.useCount = (s.clip c).useCount)
    (inUse : 0 < x.useCount → x.state = .ready ∨ x.state = .retiring) (writing : x.state = .writing ↔ t.write.clip = some c)
    (others : ∀ d, d ≠ c → (t.write.clip = some d ↔ s.write.clip = some d))
    (away : t.memory.mode ≠ .owned → t.write.clip = none) (empty : x.state = .empty → x.slabs = [])
    (rising : t.freeSlabs.Pairwise (· < ·))
    (slabs : s.memory.mode ≠ .scanning → (t.freeSlabs ++ x.slabs).Perm (s.freeSlabs ++ (s.clip c).slabs))
    (found : s.memory.mode = .scanning → x.slabs = (s.clip c).slabs ∨ x.slabs = []) : DirectoryLaw t := by
  have here : t.clip c = x := by rw [State.clip, clips, tget_tset_same]
  have there : ∀ d, d ≠ c → t.clip d = s.clip d := fun d hd => by
    rw [State.clip, clips, tget_tset_ne _ _ _ _ (Ne.symm hd), State.clip]
  have on : ∀ d, t.enginesOn d = s.enginesOn d := State.enginesOn_congr fun e d => by rw [State.eng_congr engines e]
  constructor
  case useCount =>
    intro d
    refine Eq.trans ?_ ((h.useCount d).trans (on d).symm)
    by_cases same : d = c
    · rw [same, here, useCount]
    · rw [there d same]
  case inUse =>
    intro d
    by_cases same : d = c
    · rw [same, here]
      exact inUse
    · rw [there d same]
      exact h.inUse d
  case writing =>
    intro d
    by_cases same : d = c
    · rw [same, here]
      exact writing
    · rw [there d same, others d same]
      exact h.writing d
  case away => exact away
  case scanning =>
    intro k
    rw [mode] at k
    rw [scanning]
    exact ⟨(h.scanning k).1, fun e => by rw [State.eng_congr engines e]; exact (h.scanning k).2 e⟩
  case empty =>
    intro d
    by_cases same : d = c
    · rw [same, here]
      exact empty
    · rw [there d same]
      exact h.empty d
  case rising => exact rising
  case slabs =>
    intro k
    rw [mode] at k
    refine List.Perm.trans ?_ (h.slabs k)
    rw [State.slabsBelow_all, State.slabsBelow_all]
    have moved := flatMap_finRange_replace c (g := fun d => (s.clip d).slabs) (g' := fun d => (t.clip d).slabs)
      fun d hd => by rw [there d hd]
    simp only [here] at moved
    refine (List.perm_append_left_iff ((s.clip c).slabs)).1 ?_
    have gathered := (List.perm_append_comm_assoc (s.clip c).slabs t.freeSlabs _).trans (moved.append_left t.freeSlabs)
    have exchanged := (slabs k).append_right ((List.finRange 256).flatMap fun d => (s.clip d).slabs)
    rw [List.append_assoc, List.append_assoc] at exchanged
    exact (gathered.trans exchanged).trans (List.perm_append_comm_assoc _ _ _)
  case found =>
    intro k
    rw [mode] at k
    rw [scan]
    have sub : (t.slabsBelow s.scan.next).Sublist (s.slabsBelow s.scan.next) := by
      refine List.Sublist.flatMap_right _ fun d _ => ?_
      by_cases same : d = c
      · rw [same, here]
        obtain kept | gone := found k
        · rw [kept]
        · rw [gone]
          exact List.nil_sublist _
      · rw [there d same]
    exact ⟨(h.found k).1.sublist sub, fun n hn => (h.found k).2 n (sub.subset hn)⟩

end Sys2Proof.Machine
end

section
set_option Elab.async false
/-! ## What a chain of happenings keeps (R141 to R144, R150 to R162, R164 to R174) -/

namespace Sys2Proof.Machine

/-! ### The directory's law under the memory's modes and a clip's end -/

/-- The memory port goes from one mode in which no scan runs to another. -/
theorem DirectoryLaw.setMode {s t : State} (h : DirectoryLaw s) (clips : t.clips = s.clips) (engines : t.engines = s.engines)
    (freeSlabs : t.freeSlabs = s.freeSlabs) (write : t.write.clip = s.write.clip) (before : s.memory.mode ≠ .scanning)
    (after : t.memory.mode ≠ .scanning) (away : t.memory.mode ≠ .owned → s.write.clip = none) : DirectoryLaw t := by
  have clip : ∀ c, t.clip c = s.clip c := State.clip_congr clips
  constructor
  case useCount =>
    intro c
    rw [clip]
    exact (h.useCount c).trans (State.enginesOn_congr (fun e d => by rw [State.eng_congr engines e]) c).symm
  case inUse => exact fun c => by rw [clip]; exact h.inUse c
  case writing => exact fun c => by rw [clip, write]; exact h.writing c
  case away => exact fun k => by rw [write]; exact away k
  case scanning => exact fun k => absurd k after
  case empty => exact fun c => by rw [clip]; exact h.empty c
  case rising => rw [freeSlabs]; exact h.rising
  case slabs =>
    intro _
    rw [freeSlabs, State.slabsBelow_congr (s := s) (t := t) fun c _ => by rw [clip]]
    exact h.slabs before
  case found => exact fun k => absurd k after

/-- The data slabs, each once. -/
theorem dataSlabs_nodup : ((List.range 1020).map (· + 4)).Nodup :=
  List.nodup_range.map fun _ _ => Nat.add_right_cancel

/-- Outside a scan the slabs of a clip are free neither before it becomes EMPTY nor twice among its own. -/
theorem DirectoryLaw.slabs_append_free_nodup {s : State} (h : DirectoryLaw s) (k : s.memory.mode ≠ .scanning) (c : ClipId) :
    ((s.clip c).slabs ++ s.freeSlabs).Nodup := by
  have all := (h.slabs k).nodup_iff.2 dataSlabs_nodup
  rw [s.slabsBelow_all] at all
  have one := ((flatMap_finRange_perm c fun d => (s.clip d).slabs).append_left s.freeSlabs).nodup_iff.1 all
  rw [← List.append_assoc] at one
  exact List.nodup_append_comm.1 (one.sublist (List.sublist_append_left _ _))

/-- An entry that no engine is on becomes EMPTY, its slabs free; a write of it is no longer in the write context (R120, R128). -/
theorem DirectoryLaw.emptyClip {s t : State} (h : DirectoryLaw s) {c : ClipId} (unused : (s.clip c).useCount = 0)
    (clips : t.clips = (s.emptyClip c).clips) (freeSlabs : t.freeSlabs = (s.emptyClip c).freeSlabs) (engines : t.engines = s.engines)
    (mode : t.memory.mode = s.memory.mode) (scan : t.scan.next = s.scan.next) (scanning : t.arbiter.scanning = s.arbiter.scanning)
    (write : (s.write.clip ≠ some c ∧ t.write.clip = s.write.clip) ∨ (s.write.clip = some c ∧ t.write.clip = none)) :
    DirectoryLaw t := by
  refine h.replaceClip (c := c) (x := Clip.empty) clips engines mode scan scanning (useCount := unused.symm)
    (inUse := fun k => absurd k (lt_irrefl _)) (writing := ?writing) (others := ?others) (away := ?away) (empty := fun _ => rfl)
    (rising := ?rising) (slabs := ?slabs) (found := fun _ => .inr rfl)
  case writing =>
    refine ⟨nofun, fun k => ?_⟩
    obtain ⟨other, same⟩ | ⟨_, none⟩ := write
    · exact absurd (same.symm.trans k) other
    · exact nomatch none.symm.trans k
  case others =>
    intro d hd
    obtain ⟨_, same⟩ | ⟨own, none⟩ := write
    · rw [same]
    · rw [none, own]
      simpa using Ne.symm hd
  case away =>
    intro k
    rw [mode] at k
    obtain ⟨_, same⟩ | ⟨_, none⟩ := write
    · rw [same]
      exact h.away k
    · exact none
  case rising =>
    rw [freeSlabs]
    exact returnNumbers_pairwise _ _ h.rising
  case slabs =>
    intro k
    rw [freeSlabs, Clip.empty, List.append_nil]
    exact (returnNumbers_perm (h.slabs_append_free_nodup k c)).trans List.perm_append_comm

/-- An entry that is not WRITING becomes EMPTY. -/
theorem DirectoryLaw.emptyClip_of_not_writing {s : State} (h : DirectoryLaw s) {c : ClipId} (unused : (s.clip c).useCount = 0)
    (state : (s.clip c).state ≠ .writing) : DirectoryLaw (s.emptyClip c) :=
  h.emptyClip unused rfl rfl rfl rfl rfl rfl (.inl ⟨fun k => state ((h.writing c).2 k), rfl⟩)

/-! ### What the memory port's operations can do -/

/-- A choice of the port changes the memory port's record alone, and not its mode (R130). -/
theorem State.chooseOp_memory (s : State) : ∃ m, s.chooseOp = { s with memory := m } ∧ m.mode = s.memory.mode := by
  unfold State.chooseOp
  split
  · exact ⟨_, rfl, rfl⟩
  · split
    · exact ⟨_, rfl, rfl⟩
    · split
      · exact ⟨_, rfl, rfl⟩
      · split
        · exact ⟨_, rfl, rfl⟩
        · split
          · exact ⟨_, rfl, rfl⟩
          · exact ⟨_, rfl, rfl⟩

/-- An erase that steps aside changes the memory port's record alone, and not its mode (R131). -/
theorem State.suspendErase_memory (s : State) : ∃ m, s.suspendErase = { s with memory := m } ∧ m.mode = s.memory.mode := by
  unfold State.suspendErase
  split
  · split
    · exact ⟨_, rfl, rfl⟩
    · exact ⟨_, rfl, rfl⟩
  · exact ⟨_, rfl, rfl⟩

/-- The port settles with a change of its own record that keeps its mode, or by releasing the lines (R130, R131, R133). -/
theorem State.settlePort_cases (s : State) :
    (∃ m, s.settlePort = { s with memory := m } ∧ m.mode = s.memory.mode) ∨
    (s.memory.mode = .releasing ∧
      s.settlePort = { s with memory := { s.memory with mode := .released } }.report .memoryReleased) := by
  unfold State.settlePort
  split
  · obtain ⟨m, e, mode⟩ := s.suspendErase_memory
    dsimp only
    rw [e]
    split
    · obtain ⟨m', e', mode'⟩ := State.chooseOp_memory { s with memory := m }
      exact .inl ⟨m', e', mode'.trans mode⟩
    · exact .inl ⟨m, rfl, mode⟩
  · split
    · split
      · exact .inl ⟨_, rfl, rfl⟩
      · exact .inr ⟨‹_›, rfl⟩
    · exact .inl ⟨_, rfl, rfl⟩
  · exact .inl ⟨_, rfl, rfl⟩
  · exact .inl ⟨_, rfl, rfl⟩

/-- What clearing an owner's binding leaves alone. -/
theorem State.clearBinding_frame (s : State) (o : Owner) (e : EngId) :
    ∃ positions plans, s.clearBinding o e = { s with positions := positions, plans := plans } := by
  unfold State.clearBinding
  split
  · exact ⟨_, _, rfl⟩
  · exact ⟨_, _, rfl⟩
  · exact ⟨_, _, rfl⟩

/-- A record of a table after one record is replaced. -/
theorem tget_tset_ite {α : Type} {n : Nat} (t : Table α n) (i j : Fin n) (x : α) :
    tget (tset t i x) j = if j = i then x else tget t j := by
  split
  · rename_i same
    rw [same, tget_tset_same]
  · rename_i other
    exact tget_tset_ne _ _ _ _ (Ne.symm other)

/-! ### The relation with the directory -/

/-- What an owner's operation keeps from s to t, the directory's law among it. -/
structure Keeps (s t : State) : Prop extends KeepsLists s t where
  directory : DirectoryLaw s → DirectoryLaw t

namespace Keeps

variable {s t u : State}

theorem refl (s : State) : Keeps s s := ⟨KeepsLists.refl s, id⟩

theorem trans (a : Keeps s t) (b : Keeps t u) : Keeps s u := ⟨a.toKeepsLists.trans b.toKeepsLists, b.directory ∘ a.directory⟩

theorem ite {c : Prop} [Decidable c] (h : Keeps s t) (k : Keeps s u) : Keeps s (if c then t else u) := by
  split
  · exact h
  · exact k

theorem report (h : Keeps s t) (b : ReportBody) : Keeps s (t.report b) := h.trans ⟨KeepsLists.report t b, fun k => k.of_fields⟩

theorem modPos (h : Keeps s t) (p : PosId) {f : Position → Position} (k : ∀ x : Position, x.Law → (f x).Law := by exact fun _ => id) :
    Keeps s (t.modPos p f) := h.trans ⟨KeepsLists.modPos t p (k _), fun d => d.of_fields⟩

/-- A position changed by a function that rests on what the position is. -/
theorem modPosAt (h : Keeps s t) (p : PosId) {f : Position → Position} (k : (t.pos p).Law → (f (t.pos p)).Law) :
    Keeps s (t.modPos p f) := h.trans ⟨KeepsLists.modPos t p k, fun d => d.of_fields⟩

theorem modPort (h : Keeps s t) (p : PosId) {f : Port → Port}
    (k : ∀ x : Position, x.Law → ({ x with port := f x.port } : Position).Law := by exact fun _ => id) :
    Keeps s (t.modPort p f) := h.modPos p k

theorem modWhisper (h : Keeps s t) (p : PosId) (f : WhisperQueue → WhisperQueue) : Keeps s (t.modWhisper p f) := h.modPos p

theorem modLeg (h : Keeps s t) (l : LegId) {f : Leg → Leg} (segments : ∀ x, (f x).ec.segments = x.ec.segments := by exact fun _ => rfl)
    (idle : ∀ x, (f x).state = .idle → x.state = .idle := by exact fun _ => id) : Keeps s (t.modLeg l f) :=
  h.trans ⟨KeepsLists.modLeg t l (segments _) (idle _), fun d => d.of_fields⟩

theorem modEc (h : Keeps s t) (l : LegId) {f : Canceller → Canceller} (segments : ∀ c, (f c).segments = c.segments := by exact fun _ => rfl) :
    Keeps s (t.modEc l f) := h.modLeg l fun x => segments x.ec

theorem modPlan (h : Keeps s t) (i : PlanId) (f : Plan → Plan) : Keeps s (t.modPlan i f) :=
  h.trans ⟨KeepsLists.modPlan t i f, fun d => d.of_fields⟩

/-- An engine changed in what neither puts it on a clip nor takes it off. -/
theorem modEng (h : Keeps s t) (e : EngId) {f : Engine → Engine} (state : (f (t.eng e)).state = .free ↔ (t.eng e).state = .free)
    (clip : (f (t.eng e)).clip = (t.eng e).clip) : Keeps s (t.modEng e f) :=
  h.trans ⟨KeepsLists.modEng t e f, fun d => d.of_same rfl
    (State.forall_eng_modEng (P := fun i x => (x.state = .free ↔ (t.eng i).state = .free) ∧ x.clip = (t.eng i).clip)
      (fun _ => ⟨Iff.rfl, rfl⟩) ⟨state, clip⟩) rfl rfl rfl rfl rfl⟩

theorem memory (h : Keeps s t) (m : MemoryPort) (mode : m.mode = t.memory.mode := by rfl) : Keeps s { t with memory := m } :=
  h.trans ⟨KeepsLists.memory t m, fun d => d.of_fields (mode := mode)⟩

theorem arbiter (h : Keeps s t) (a : Arbiter) (k : WaitLaw t → WaitLaw { t with arbiter := a })
    (scanning : a.scanning = t.arbiter.scanning := by rfl) : Keeps s { t with arbiter := a } :=
  h.trans ⟨KeepsLists.arbiter t a k, fun d => d.of_fields (scanning := scanning)⟩

theorem dropEngineFeeds (h : Keeps s t) (e : EngId) : Keeps s (t.dropEngineFeeds e) :=
  h.trans ⟨KeepsLists.dropEngineFeeds t e, fun d => d.of_fields⟩

theorem dropLegFeeds (h : Keeps s t) (l : LegId) : Keeps s (t.dropLegFeeds l) :=
  h.trans ⟨KeepsLists.dropLegFeeds t l, fun d => d.of_fields⟩

theorem finish (h : Keeps s t) (before : State) : Keeps s (t.finish before) :=
  h.trans ⟨KeepsLists.finish t before, fun d => d.of_fields⟩

theorem foldl {α : Type} (f : State → α → State) (k : ∀ t x, Keeps t (f t x)) (h : Keeps s t) (xs : List α) :
    Keeps s (xs.foldl f t) := by
  induction xs generalizing t with
  | nil => exact h
  | cons x xs ih => exact ih (h.trans (k t x))

/-! ### Small operations -/

theorem notice (h : Keeps s t) (l : LegId) : Keeps s (t.notice l) := h.modEc l

theorem attach (h : Keeps s t) (l : LegId) (p : PosId) : Keeps s (t.attach l p) :=
  (h.modLeg l (f := fun x => { x with attached := some p, last := some p })).modPos p

theorem detach (h : Keeps s t) (l : LegId) : Keeps s (t.detach l) := by
  unfold State.detach
  split
  · exact (h.modLeg l (f := fun x => { x with attached := none })).modPos _
  · exact h

theorem withdraw (h : Keeps s t) (o : Owner) : Keeps s (t.withdraw o) :=
  h.arbiter _ (List.Pairwise.filter _)

theorem chooseOp (h : Keeps s t) : Keeps s t.chooseOp := by
  obtain ⟨m, e, mode⟩ := t.chooseOp_memory
  rw [e]
  exact h.memory m mode

theorem settlePort (h : Keeps s t) : Keeps s t.settlePort := by
  obtain ⟨m, e, mode⟩ | ⟨releasing, e⟩ := t.settlePort_cases <;> rw [e]
  · exact h.memory m mode
  · refine (h.trans ⟨KeepsLists.memory t _, fun d => ?_⟩).report _
    exact d.setMode rfl rfl rfl rfl (by simp [releasing]) (by simp) fun _ => d.away (by simp [releasing])

theorem queueUpdate (h : Keeps s t) (c : ClipId) : Keeps s (t.queueUpdate c) := by
  unfold State.queueUpdate
  split
  · exact h
  · exact (h.memory _).settlePort

theorem addFetch (h : Keeps s t) (e : EngId) : Keeps s (t.addFetch e) := by
  unfold State.addFetch
  split
  · exact h.memory _
  · exact h

theorem issueFetch (h : Keeps s t) (e : EngId) : Keeps s (t.issueFetch e) := (h.addFetch e).settlePort

theorem withdrawFetch (h : Keeps s t) (e : EngId) : Keeps s (t.withdrawFetch e) := h.memory _

theorem clearBinding (h : Keeps s t) (o : Owner) (e : EngId) : Keeps s (t.clearBinding o e) := by
  cases o with
  | whisper p => exact h.modWhisper p _
  | leg l => exact h
  | shared i => exact h.modPlan i _

theorem ownerGranted (h : Keeps s t) (o : Owner) (e : EngId) : Keeps s (t.ownerGranted o e) := by
  unfold State.ownerGranted
  split
  · exact h.modWhisper _ _
  · exact h.modLeg _
  · exact h.modPlan _ _

theorem startGap (h : Keeps s t) (p : PosId) : Keeps s (t.startGap p) := h.modWhisper p _

theorem goActive (h : Keeps s t) (l : LegId) (p : PosId) : Keeps s (t.goActive l p) := by
  have active : Keeps s (t.modLeg l fun x => { x with state := .active, origin := none }) := h.modLeg l (idle := fun _ k => nomatch k)
  exact (active.attach l p).notice l

theorem sessionTold (h : Keeps s t) (l : LegId) (o : EngineOutcome) : Keeps s (t.sessionTold l o) := by
  unfold State.sessionTold
  split
  · exact h
  · split
    · exact h
    · have told := fun x : Session => h.modLeg l (f := fun y => { y with session := some x })
      dsimp only
      split
      · exact (told _).report _
      · exact told _

/-! ### An engine's release and grant (R121, R138, R141) -/

/-- A clip's count lowered, and the clip EMPTY when it was RETIRING and has no engine any more (R121). -/
theorem clipReleased (h : KeepsLists s t) (c : ClipId)
    (lowered : DirectoryLaw s → DirectoryLaw (t.modClip c fun x => { x with useCount := x.useCount - 1 })) :
    Keeps s (t.clipReleased c) := by
  unfold State.clipReleased
  dsimp only
  have low : Keeps s (t.modClip c fun x => { x with useCount := x.useCount - 1 }) :=
    ⟨h.trans (KeepsLists.modClip t c _), lowered⟩
  generalize t.modClip c (fun x => { x with useCount := x.useCount - 1 }) = u at low ⊢
  split
  · rename_i ends
    obtain ⟨retiring, unused⟩ := ends
    refine (Keeps.queueUpdate ⟨low.toKeepsLists.trans ?_, fun d => ?_⟩ c).report _
    · exact (KeepsLists.freeSlabs u _).trans (KeepsLists.modClip _ c _)
    · exact (low.directory d).emptyClip_of_not_writing unused (by simp [retiring])
  · exact low

end Keeps

/-- An engine that is not FREE, made FREE with its clip's count lowered (R121, R141). -/
theorem DirectoryLaw.free {s t : State} (h : DirectoryLaw s) {e : EngId} (busy : (s.eng e).state ≠ .free)
    (eng : ∀ d, t.eng d = if d = e then Engine.idle else s.eng d)
    (clip : ∀ c, t.clip c = if (s.eng e).clip = some c then { s.clip c with useCount := (s.clip c).useCount - 1 } else s.clip c)
    (freeSlabs : t.freeSlabs = s.freeSlabs) (write : t.write.clip = s.write.clip) (mode : t.memory.mode = s.memory.mode)
    (scan : t.scan.next = s.scan.next) : DirectoryLaw t := by
  have counted : ∀ c, t.enginesOn c + ((s.eng e).isOn c).toNat = s.enginesOn c := fun c => by
    have k := State.enginesOn_replace (s := s) (t := t) (e := e) (fun d hd => by rw [eng, if_neg hd]) c
    rwa [eng e, if_pos rfl] at k
  have kept : ∀ c, (t.clip c).state = (s.clip c).state ∧ (t.clip c).slabs = (s.clip c).slabs := fun c => by
    rw [clip]
    split <;> exact ⟨rfl, rfl⟩
  have useCount : ∀ c, (t.clip c).useCount = t.enginesOn c := fun c => by
    have one := counted c
    have was := h.useCount c
    rw [clip]
    split
    · rename_i own
      rw [show (s.eng e).isOn c = true by simp [Engine.isOn, busy, own], Bool.toNat_true] at one
      exact (congrArg (· - 1) (was.trans one.symm)).trans (Nat.add_sub_cancel _ 1)
    · rename_i other
      rw [show (s.eng e).isOn c = false by simp [Engine.isOn, other], Bool.toNat_false] at one
      exact was.trans one.symm
  refine h.of_counts useCount (fun c k => ?_) (fun c => (kept c).1) (fun c => (kept c).2) freeSlabs write mode scan fun k => ?_
  · rw [(kept c).1]
    refine h.inUse c ?_
    rw [useCount] at k
    have one := counted c
    have was : (s.clip c).useCount = s.enginesOn c := h.useCount c
    omega
  · rw [mode] at k
    exact absurd ((h.scanning k).2 e) busy

/-- A FREE engine put on a READY clip, the clip's count raised (R138, R144). -/
theorem DirectoryLaw.granted {s t : State} (h : DirectoryLaw s) {e : EngId} {c : ClipId} {x : Engine}
    (free : (s.eng e).state = .free) (ready : (s.clip c).state = .ready) (idle : s.arbiter.scanning = false)
    (on : x.state ≠ .free ∧ x.clip = some c) (eng : ∀ d, t.eng d = if d = e then x else s.eng d)
    (clip : ∀ d, t.clip d = if d = c then { s.clip d with useCount := (s.clip d).useCount + 1 } else s.clip d)
    (freeSlabs : t.freeSlabs = s.freeSlabs) (write : t.write.clip = s.write.clip) (mode : t.memory.mode = s.memory.mode)
    (scan : t.scan.next = s.scan.next) : DirectoryLaw t := by
  have off : ∀ d, (s.eng e).isOn d = false := fun d => by simp [Engine.isOn, free]
  have counted : ∀ d, t.enginesOn d = s.enginesOn d + (x.isOn d).toNat := fun d => by
    have k := State.enginesOn_replace (s := s) (t := t) (e := e) (fun d hd => by rw [eng, if_neg hd]) d
    rwa [off, eng e, if_pos rfl, Bool.toNat_false, Nat.add_zero] at k
  have kept : ∀ d, (t.clip d).state = (s.clip d).state ∧ (t.clip d).slabs = (s.clip d).slabs := fun d => by
    rw [clip]
    split <;> exact ⟨rfl, rfl⟩
  refine h.of_counts (fun d => ?_) (fun d => ?_) (fun d => (kept d).1) (fun d => (kept d).2) freeSlabs write mode scan fun k => ?_
  · rw [counted, clip]
    have was : (s.clip d).useCount = s.enginesOn d := h.useCount d
    split
    · rename_i same
      rw [same] at was ⊢
      simp [Engine.isOn, on, was]
    · rename_i other
      have no : x.isOn d = false := by simpa [Engine.isOn, on] using Ne.symm other
      rw [no, Bool.toNat_false, Nat.add_zero, was]
  · rw [clip]
    split
    · rename_i same
      exact fun _ => .inl (same ▸ ready)
    · exact h.inUse d
  · rw [mode] at k
    exact nomatch idle.symm.trans (h.scanning k).1

namespace Keeps

variable {s t : State}

/-- An engine taken off its clip in t, the clip then counted as released. -/
theorem unload {e : EngId} (busy : (s.eng e).state ≠ .free) (h : KeepsLists s t)
    (engines : t.engines = tset s.engines e Engine.idle) (clips : t.clips = s.clips) (freeSlabs : t.freeSlabs = s.freeSlabs)
    (write : t.write = s.write) (mode : t.memory.mode = s.memory.mode) (scan : t.scan = s.scan) :
    Keeps s (match (s.eng e).clip with | some c => t.clipReleased c | none => t) := by
  have eng : ∀ d, t.eng d = if d = e then Engine.idle else s.eng d := fun d => by
    rw [State.eng, engines, tget_tset_ite]
    rfl
  have clip : ∀ c, t.clip c = s.clip c := State.clip_congr clips
  split
  · rename_i c on
    refine clipReleased h c fun d => d.free busy eng (fun b => ?_) freeSlabs (by rw [← write]; rfl) mode (by rw [← scan]; rfl)
    by_cases same : c = b
    · subst same
      rw [State.clip_modClip_same, clip, if_pos on]
    · rw [State.clip_modClip_ne _ _ _ _ same, clip, on, if_neg (by simpa using same)]
  · rename_i off
    exact ⟨h, fun d => d.free busy eng (fun c => by rw [clip, off, if_neg nofun]) freeSlabs (by rw [write]) mode (by rw [scan])⟩

/-- An engine that is not FREE made FREE (R62, R121, R141). -/
theorem freeOne (h : Keeps s t) {e : EngId} (busy : (t.eng e).state ≠ .free) : Keeps s (t.freeOne e) := by
  refine h.trans ?_
  unfold State.freeOne
  dsimp only
  have bare : KeepsLists t (((t.withdrawFetch e).modEng e fun _ => Engine.idle).dropEngineFeeds e) :=
    ((KeepsLists.memory t _).trans (KeepsLists.modEng _ e _)).trans (KeepsLists.dropEngineFeeds _ e)
  cases (t.eng e).owner with
  | none => exact unload busy bare rfl rfl rfl rfl rfl rfl
  | some o =>
    have cleared : KeepsLists t _ := bare.trans (clearBinding (refl _) o e).toKeepsLists
    obtain ⟨positions, plans, frame⟩ :=
      State.clearBinding_frame (((t.withdrawFetch e).modEng e fun _ => Engine.idle).dropEngineFeeds e) o e
    dsimp only
    refine unload busy cleared ?_ ?_ ?_ ?_ ?_ ?_ <;> rw [frame] <;> rfl

/-- A FREE engine granted to a request for a READY clip (R138, R144). -/
theorem grant (h : Keeps s t) {e : EngId} {w : WaitEntry} (free : (t.eng e).state = .free) (ready : t.isReady w.clip = true)
    (idle : t.arbiter.scanning = false) : Keeps s (t.grant e w) := by
  unfold State.grant
  dsimp only
  refine h.trans (issueFetch (ownerGranted ⟨?_, fun d => ?_⟩ w.owner e) e)
  · exact ((KeepsLists.modEng t e _).trans (KeepsLists.modClip _ w.clip _)).trans (KeepsLists.arbiter _ _ id)
  · refine d.granted free (by simpa [State.isReady] using ready) idle (x := { Engine.idle with
      state := .priming, owner := some w.owner, cls := w.owner.cls, clip := some w.clip
      loop := w.owner.cls = 2, grant := t.arbiter.grants }) ⟨nofun, rfl⟩ (fun i => ?_) (fun c => ?_) rfl rfl rfl rfl
    · exact (tget_tset_ite t.engines e i _).trans rfl
    · refine (tget_tset_ite t.clips w.clip c _).trans ?_
      split
      · rename_i same
        rw [same]
        rfl
      · rfl

end Keeps

end Sys2Proof.Machine
end

section
set_option Elab.async false
/-! ## What a chain of happenings keeps, continued: every happening, and what the owners do at the top of an event -/

namespace Sys2Proof.Machine

/-- The engine found FREE is FREE. -/
theorem State.free_of_freeEngine {s : State} {e : EngId} (h : s.freeEngine = some e) : (s.eng e).state = .free := by
  simpa using List.find?_some h

namespace Keeps

variable {s t : State}

/-- A request put into the wait queue. -/
theorem enqueued (h : Keeps s t) (w : WaitEntry) :
    Keeps s { t with arbiter := { t.arbiter with queue := enqueue w t.arbiter.queue } } :=
  h.arbiter _ (enqueue_pairwise w)

theorem runTask (x : Task) (s : State) : Keeps s (Machine.runTask x s).1 := by
  have r := Keeps.refl s
  cases x with
  | release e o =>
    simp only [Machine.runTask]
    split
    · exact r
    · exact r.freeOne ‹_›
  | stop e o =>
    simp only [Machine.runTask]
    split
    · exact r
    · rename_i playing
      split
      · exact (r.withdrawFetch e).modEng e (f := fun x => { x with state := .stopping, stopOutcome := o })
          (by simp [playing]) rfl
      · exact r
    · exact r
    · exact r
  | offer e was =>
    simp only [Machine.runTask]
    split
    · split
      · exact r.arbiter _ id
      · exact r
    · exact r
  | heads e =>
    simp only [Machine.runTask]
    split
    · exact r
    · rename_i open'
      rw [not_or] at open'
      obtain ⟨idle, free⟩ := open'
      split
      · exact r
      · rename_i w rest queue
        have taken : Keeps s { s with arbiter := { s.arbiter with queue := rest } } :=
          r.arbiter _ fun h => by
            rw [WaitLaw, queue] at h
            exact h.of_cons
        split
        · exact taken.grant (not_not.1 free) ‹_› (by simpa using idle)
        · exact taken
  | request w =>
    simp only [Machine.runTask]
    split
    · exact r.arbiter _ id
    · exact r
  | take w =>
    simp only [Machine.runTask]
    split
    · exact r.enqueued w
    · rename_i idle
      split
      · rename_i e free
        split
        · exact r.grant (State.free_of_freeEngine free) ‹_› (by simpa using idle)
        · exact r
      · exact r.enqueued w
  | tell o out =>
    simp only [Machine.runTask]
    split
    · exact r
    · exact r.sessionTold _ out
    · dsimp only
      split
      · exact r.modPlan _ _
      · exact r
  | whisperEnd p o cause =>
    simp only [Machine.runTask]
    split
    · exact r
    · have ended := fun rest : List WhisperEntry => r.modWhisper p fun q => { q with entries := rest, head := .none }
      split
      · dsimp only
        split
        · exact ((ended _).report _).startGap p
        · exact (ended _).report _
      · dsimp only
        split
        · exact ((ended _).startGap p).goActive _ p
        · exact (ended _).goActive _ p
  | whisperNext p =>
    simp only [Machine.runTask]
    split
    · exact r
    · split
      · split
        · dsimp only
          exact r.modWhisper p _
        · exact r
      · exact r
  | legActive l p => exact r.goActive l p
  | sessionEnd l capture =>
    simp only [Machine.runTask]
    split
    · exact r
    · have ended := fun f : Leg → Option Resume => r.modLeg l (f := fun y => { y with session := none, resume := f y })
      split
      · dsimp only
        exact ended _
      · split
        · exact (ended _).withdraw _
        · dsimp only
          exact ended _
  | planFall h =>
    simp only [Machine.runTask]
    split
    · dsimp only
      exact ((r.modPlan h _).withdraw _).modPlan h _
    · dsimp only
      exact r.modPlan h _
  | report b => exact r.report b

theorem run (h : Keeps s t) (ts : List Task) : Keeps s (t.run ts) :=
  State.run_kept (Keeps s) (fun x u hu => hu.trans (runTask x u)) ts t h

/-! ### What the owners do at the top of an event -/

theorem judgeStream (h : Keeps s t) (i : PlanId) : Keeps s (t.judgeStream i) := by
  unfold State.judgeStream
  split
  · exact h
  · split
    · exact h
    · exact h
    · dsimp only
      split
      all_goals
        split
        · exact (h.modPlan i _).run _
        · exact h

theorem planRise (h : Keeps s t) (i : PlanId) : Keeps s (t.planRise i) := by
  unfold State.planRise
  dsimp only
  split
  · exact (h.modPlan i _).judgeStream i
  · exact h.modPlan i _

theorem enterSession (h : Keeps s t) (l : LegId) (plan : Option PlanId) : Keeps s (t.enterSession l plan) := by
  have put := fun x : Session => h.modLeg l (f := fun y => { y with session := some x })
  unfold State.enterSession
  dsimp only
  split
  · exact put _
  · split
    · exact put _
    · split
      · exact put _
      · split
        · exact put _
        · split
          · exact (put _).run _
          · exact put _

theorem beginSession (h : Keeps s t) (l : LegId) (plan : Option PlanId) : Keeps s (t.beginSession l plan) := by
  unfold State.beginSession
  cases plan with
  | none => exact h.enterSession l _
  | some i => exact (h.planRise i).enterSession l _

theorem undoHead (h : Keeps s t) (p : PosId) : Keeps s (t.undoHead p) := by
  unfold State.undoHead
  split
  · exact h
  · exact (h.modWhisper p _).withdraw _
  · split
    · exact (h.modWhisper p _).run _
    · exact (h.modWhisper p _).run _

theorem headRemoved (h : Keeps s t) (p : PosId) : Keeps s (t.headRemoved p) := by
  unfold State.headRemoved
  dsimp only
  split
  · exact ((h.undoHead p).startGap p).run _
  · exact (h.undoHead p).run _

theorem removeCallWhisper (h : Keeps s t) (l : LegId) (p : PosId) : Keeps s (t.removeCallWhisper l p) := by
  unfold State.removeCallWhisper
  split
  · exact h
  · split
    · exact (h.modWhisper p _).headRemoved p
    · exact h.modWhisper p _

theorem releaseAll (h : Keeps s t) (o : EngineOutcome) : Keeps s (t.releaseAll o) :=
  h.foldl _ (fun t _ => (refl t).run _) _

end Keeps

end Sys2Proof.Machine
end

section
set_option Elab.async false
/-! ## What the operations of the tap pool keep (R90 to R97, R114 to R119) -/

namespace Sys2Proof.Machine

/-! ### What a shortfall queue owes a leg -/

/-- Segments that a shortfall queue owes a leg. -/
def owedIn (queue : List Shortfall) (l : LegId) : Nat :=
  match queue.find? (fun x => x.leg = l) with
  | some x => x.owed
  | none => 0

theorem State.owed_eq (s : State) (l : LegId) : s.owed l = owedIn s.pool.queue l := rfl

theorem owedIn_cons (x : Shortfall) (queue : List Shortfall) (l : LegId) :
    owedIn (x :: queue) l = if x.leg = l then x.owed else owedIn queue l := by
  unfold owedIn
  rw [List.find?_cons]
  by_cases own : x.leg = l <;> simp [own]

theorem owedIn_of_absent {queue : List Shortfall} {l : LegId} (h : ∀ x ∈ queue, x.leg ≠ l) : owedIn queue l = 0 := by
  induction queue with
  | nil => rfl
  | cons x rest ih =>
    rw [owedIn_cons, if_neg (h x (by simp))]
    exact ih fun y hy => h y (List.mem_cons_of_mem _ hy)

/-- What is owed to other legs does not rest on a leg's own entries. -/
theorem owedIn_filter (queue : List Shortfall) {l m : LegId} (other : m ≠ l) :
    owedIn (queue.filter fun x => x.leg ≠ l) m = owedIn queue m := by
  induction queue with
  | nil => rfl
  | cons x rest ih =>
    rw [List.filter_cons, owedIn_cons]
    by_cases own : x.leg = l
    · rw [if_neg (by simpa using own), if_neg (own ▸ Ne.symm other), ih]
    · rw [if_pos (by simpa using own), owedIn_cons, ih]

theorem owedIn_append_of_ne (queue : List Shortfall) {x : Shortfall} {m : LegId} (other : x.leg ≠ m) :
    owedIn (queue ++ [x]) m = owedIn queue m := by
  induction queue with
  | nil => rw [List.nil_append, owedIn_cons, if_neg other]
  | cons y rest ih => rw [List.cons_append, owedIn_cons, owedIn_cons, ih]

theorem owedIn_append_of_absent {queue : List Shortfall} {x : Shortfall} (absent : ∀ y ∈ queue, y.leg ≠ x.leg) :
    owedIn (queue ++ [x]) x.leg = x.owed := by
  induction queue with
  | nil => rw [List.nil_append, owedIn_cons, if_pos rfl]
  | cons y rest ih =>
    rw [List.cons_append, owedIn_cons, if_neg (absent y (by simp))]
    exact ih fun z hz => absent z (List.mem_cons_of_mem _ hz)

/-- A queue with a leg's owed count replaced in place. -/
def replaceOwed (queue : List Shortfall) (l : LegId) (owed : Nat) : List Shortfall :=
  queue.map fun x => if x.leg = l then { x with owed := owed } else x

theorem replaceOwed_map_leg (queue : List Shortfall) (l : LegId) (owed : Nat) :
    (replaceOwed queue l owed).map Shortfall.leg = queue.map Shortfall.leg := by
  unfold replaceOwed
  rw [List.map_map]
  refine List.map_congr_left fun x _ => ?_
  rw [Function.comp_apply]
  split <;> rfl

theorem owedIn_replaceOwed (queue : List Shortfall) (l m : LegId) (owed : Nat) :
    owedIn (replaceOwed queue l owed) m ≤ if m = l then owed else owedIn queue m := by
  induction queue with
  | nil => exact Nat.zero_le _
  | cons x rest ih =>
    have cons : replaceOwed (x :: rest) l owed = (if x.leg = l then { x with owed := owed } else x) :: replaceOwed rest l owed := rfl
    rw [cons, owedIn_cons, owedIn_cons]
    by_cases own : x.leg = l
    · rw [if_pos own]
      by_cases same : l = m
      · rw [if_pos (own.trans same), if_pos same.symm]
      · rw [if_neg fun k => same (own.symm.trans k), if_neg fun k => same (own.symm.trans k)]
        exact ih
    · rw [if_neg own]
      by_cases same : x.leg = m
      · rw [if_pos same, if_pos same, if_neg (same ▸ own)]
      · rw [if_neg same, if_neg same]
        exact ih

/-! ### One leg's list and the queue changed -/

/-- One leg's segment list, the free set and the queue change together. -/
theorem PoolLaw.replaceLeg {s t : State} (h : PoolLaw s) (l : LegId)
    (others : ∀ m, m ≠ l → (t.leg m).ec.segments = (s.leg m).ec.segments ∧ ((t.leg m).state = .idle → (s.leg m).state = .idle))
    (each : (t.pool.free ++ (t.leg l).ec.segments).Perm (s.pool.free ++ (s.leg l).ec.segments))
    (rising : t.pool.free.Pairwise (· < ·)) (owed : ∀ m, m ≠ l → t.owed m ≤ s.owed m)
    (room : (t.leg l).ec.segments.length + t.owed l ≤ 16)
    (idle : (t.leg l).state = .idle → (t.leg l).ec.segments = [] ∧ ∀ x ∈ t.pool.queue, x.leg ≠ l)
    (queue : ∀ x ∈ t.pool.queue, x.leg ≠ l → ∃ y ∈ s.pool.queue, y.leg = x.leg)
    (once : (t.pool.queue.map Shortfall.leg).Nodup) (owes : ∀ x ∈ t.pool.queue, 1 ≤ x.owed) : PoolLaw t := by
  obtain ⟨each', _, room', idle', _, _⟩ := h
  refine ⟨List.Perm.trans ?_ each', rising, fun m => ?_, fun m k => ?_, once, owes⟩
  · have moved := flatMap_finRange_replace l (g := fun m => (s.leg m).ec.segments) (g' := fun m => (t.leg m).ec.segments)
      fun m hm => (others m hm).1
    refine (List.perm_append_left_iff (s.leg l).ec.segments).1 ?_
    have gathered := (List.perm_append_comm_assoc (s.leg l).ec.segments t.pool.free _).trans (moved.append_left t.pool.free)
    have exchanged := each.append_right s.heldSegments
    rw [List.append_assoc, List.append_assoc] at exchanged
    exact (gathered.trans exchanged).trans (List.perm_append_comm_assoc _ _ _)
  · by_cases same : m = l
    · rw [same]
      exact room
    · rw [(others m same).1]
      exact le_trans (Nat.add_le_add_left (owed m same) _) (room' m)
  · by_cases same : m = l
    · rw [same] at k ⊢
      exact idle k
    · obtain ⟨none, absent⟩ := idle' m ((others m same).2 k)
      refine ⟨(others m same).1.trans none, fun x hx own => ?_⟩
      obtain ⟨y, hy, e⟩ := queue x hx (own ▸ same)
      exact absent y hy (e.trans own)

/-- The free segments are not in any leg's list, and each list holds a segment once. -/
theorem PoolLaw.segments_append_free_nodup {s : State} (h : PoolLaw s) (l : LegId) : ((s.leg l).ec.segments ++ s.pool.free).Nodup := by
  have all := h.1.nodup_iff.2 List.nodup_range
  have one := ((flatMap_finRange_perm l fun m => (s.leg m).ec.segments).append_left s.pool.free).nodup_iff.1 all
  rw [← List.append_assoc] at one
  exact List.nodup_append_comm.1 (one.sublist (List.sublist_append_left _ _))

/-! ### The operations of the pool -/

@[simp] theorem Canceller.startPoint_segments (c : Canceller) : c.startPoint.segments = c.segments := by
  unfold Canceller.startPoint
  split <;> rfl

/-- A grant changes the pool and the canceller of the leg alone. -/
theorem State.grantSegments_leg (s : State) (l : LegId) (n : Nat) :
    ((s.grantSegments l n).leg l).state = (s.leg l).state ∧
    ((s.grantSegments l n).leg l).ec.segments = (s.leg l).ec.segments ++ s.pool.free.take n ∧
    ∀ m, m ≠ l → (s.grantSegments l n).leg m = s.leg m := by
  unfold State.grantSegments
  dsimp only
  refine ⟨by rw [State.leg_modEc_same]; rfl, ?_, fun m hm => (State.leg_modEc_ne _ _ _ _ (Ne.symm hm)).trans rfl⟩
  rw [State.leg_modEc_same]
  split
  · exact Canceller.startPoint_segments _
  · rfl

/-- A grant takes the lowest free segments from the free set (R94). -/
theorem State.grantSegments_pool (s : State) (l : LegId) (n : Nat) :
    (s.grantSegments l n).pool = { s.pool with free := s.pool.free.drop n } := rfl

/-- A grant moves segments from the free set to the leg's list. -/
theorem State.grantSegments_perm (s : State) (l : LegId) (n : Nat) :
    (s.pool.free.drop n ++ ((s.grantSegments l n).leg l).ec.segments).Perm (s.pool.free ++ (s.leg l).ec.segments) := by
  rw [(s.grantSegments_leg l n).2.1]
  refine (List.perm_append_comm_assoc _ _ _).trans ?_
  refine (List.Perm.append_left _ (List.perm_append_comm.trans ?_)).trans List.perm_append_comm
  rw [List.take_append_drop]

theorem PoolLaw.grantSegments {s : State} (h : PoolLaw s) {l : LegId} {n : Nat} (busy : (s.leg l).state ≠ .idle)
    (room : (s.leg l).ec.segments.length + n + s.owed l ≤ 16) : PoolLaw (s.grantSegments l n) := by
  obtain ⟨state, segments, others⟩ := s.grantSegments_leg l n
  refine h.replaceLeg l (fun m hm => by rw [others m hm]; exact ⟨rfl, id⟩) (s.grantSegments_perm l n)
    (h.2.1.sublist (List.drop_sublist n _)) (fun m _ => le_refl _) ?_ (fun k => absurd (state.symm.trans k) busy)
    (fun x hx _ => ⟨x, hx, rfl⟩) h.2.2.2.2.1 h.2.2.2.2.2
  rw [segments, List.length_append, List.length_take]
  exact le_trans (Nat.add_le_add_right (Nat.add_le_add_left (Nat.min_le_left _ _) _) _) room

/-- A cut leaves the first segments of the leg's list. -/
theorem State.cutSegments_leg (s : State) (l : LegId) (n : Nat) :
    ((s.cutSegments l n).leg l).state = (s.leg l).state ∧
    ((s.cutSegments l n).leg l).ec.segments = (s.leg l).ec.segments.take n ∧
    ∀ m, m ≠ l → (s.cutSegments l n).leg m = s.leg m := by
  unfold State.cutSegments
  exact ⟨by rw [State.leg_modEc_same]; rfl, by rw [State.leg_modEc_same]; rfl,
    fun m hm => (State.leg_modEc_ne _ _ _ _ (Ne.symm hm)).trans rfl⟩

theorem PoolLaw.cutSegments {s : State} (h : PoolLaw s) (l : LegId) (n : Nat) : PoolLaw (s.cutSegments l n) := by
  obtain ⟨state, segments, others⟩ := s.cutSegments_leg l n
  have nodup := h.segments_append_free_nodup l
  have room := h.2.2.1 l
  have idle := h.2.2.2.1 l
  have pool : (s.cutSegments l n).pool = { s.pool with free := returnNumbers ((s.leg l).ec.segments.drop n) s.pool.free } := rfl
  refine h.replaceLeg l (fun m hm => by rw [others m hm]; exact ⟨rfl, id⟩) ?_ ?_ (fun m _ => le_refl _) ?_ ?_
    (fun x hx _ => ⟨x, hx, rfl⟩) h.2.2.2.2.1 h.2.2.2.2.2
  · rw [segments, pool]
    have returned := returnNumbers_perm (nodup.sublist (List.Sublist.append_right (List.drop_sublist n _) _))
    refine (returned.append_right _).trans ?_
    refine List.perm_append_comm.trans ?_
    rw [← List.append_assoc, List.take_append_drop]
    exact List.perm_append_comm
  · rw [pool]
    exact returnNumbers_pairwise _ _ h.2.1
  · rw [segments, List.length_take]
    exact le_trans (Nat.add_le_add_right (Nat.min_le_right _ _) _) room
  · rw [state, segments]
    exact fun k => ⟨by rw [(idle k).1, List.take_nil], (idle k).2⟩

/-- The queue alone changes, for one leg. -/
theorem PoolLaw.setQueue {s t : State} (h : PoolLaw s) (l : LegId) (legs : t.legs = s.legs) (free : t.pool.free = s.pool.free)
    (owed : ∀ m, m ≠ l → t.owed m ≤ s.owed m) (room : (s.leg l).ec.segments.length + t.owed l ≤ 16)
    (idle : (s.leg l).state = .idle → ∀ x ∈ t.pool.queue, x.leg ≠ l)
    (queue : ∀ x ∈ t.pool.queue, x.leg ≠ l → ∃ y ∈ s.pool.queue, y.leg = x.leg)
    (once : (t.pool.queue.map Shortfall.leg).Nodup) (owes : ∀ x ∈ t.pool.queue, 1 ≤ x.owed) : PoolLaw t := by
  have leg : ∀ m, t.leg m = s.leg m := State.leg_congr legs
  refine h.replaceLeg l (fun m _ => by rw [leg]; exact ⟨rfl, id⟩) (by rw [leg, free]) (by rw [free]; exact h.2.1) owed
    (by rw [leg]; exact room) (fun k => ?_) queue once owes
  rw [leg] at k ⊢
  exact ⟨(h.2.2.2.1 l k).1, idle k⟩

theorem State.owed_dropShortfall (s : State) (l : LegId) : (s.dropShortfall l).owed l = 0 :=
  owedIn_of_absent fun x hx => by simpa using (List.mem_filter.1 hx).2

theorem PoolLaw.dropShortfall {s : State} (h : PoolLaw s) (l : LegId) : PoolLaw (s.dropShortfall l) := by
  have absent : ∀ x ∈ (s.dropShortfall l).pool.queue, x.leg ≠ l := fun x hx => by simpa using (List.mem_filter.1 hx).2
  have sub : (s.dropShortfall l).pool.queue.Sublist s.pool.queue := List.filter_sublist
  refine h.setQueue l rfl rfl (fun m hm => (owedIn_filter s.pool.queue hm).le) ?_ (fun _ => absent) (fun x hx _ => ⟨x, sub.subset hx, rfl⟩)
    (h.2.2.2.2.1.sublist (sub.map _)) (fun x hx => h.2.2.2.2.2 x (sub.subset hx))
  rw [State.owed_dropShortfall]
  exact le_trans (Nat.le_add_right _ _) (h.2.2.1 l)

/-- The queue that setting a leg's shortfall makes: its entry replaced in place, or a new one at the end (R93, R115). -/
theorem State.setShortfall_queue (s : State) (l : LegId) (owed : Nat) :
    ((∃ x ∈ s.pool.queue, x.leg = l) ∧ (s.setShortfall l owed).pool.queue = replaceOwed s.pool.queue l owed) ∨
    ((∀ x ∈ s.pool.queue, x.leg ≠ l) ∧ (s.setShortfall l owed).pool.queue = s.pool.queue ++ [⟨l, owed⟩]) := by
  unfold State.setShortfall
  dsimp only
  split
  · rename_i present
    exact .inl ⟨by simpa using present, rfl⟩
  · rename_i absent
    exact .inr ⟨by simpa using absent, rfl⟩

theorem PoolLaw.setShortfall {s : State} (h : PoolLaw s) {l : LegId} {owed : Nat} (busy : (s.leg l).state ≠ .idle)
    (room : (s.leg l).ec.segments.length + owed ≤ 16) (some : 1 ≤ owed) : PoolLaw (s.setShortfall l owed) := by
  have once := h.2.2.2.2.1
  have owes := h.2.2.2.2.2
  have law : ∀ queue, (s.setShortfall l owed).pool.queue = queue → (∀ m, m ≠ l → owedIn queue m ≤ s.owed m) → owedIn queue l ≤ owed →
      (∀ x ∈ queue, x.leg ≠ l → ∃ y ∈ s.pool.queue, y.leg = x.leg) → (queue.map Shortfall.leg).Nodup → (∀ x ∈ queue, 1 ≤ x.owed) →
      PoolLaw (s.setShortfall l owed) := by
    rintro _ rfl others own names once owes
    exact h.setQueue l rfl rfl others (le_trans (Nat.add_le_add_left own _) room) (fun k => absurd k busy) names once owes
  obtain ⟨_, e⟩ | ⟨absent, e⟩ := s.setShortfall_queue l owed
  · refine law _ e (fun m hm => ?_) ?_ (fun x hx _ => ?_) (by rw [replaceOwed_map_leg]; exact once) fun x hx => ?_
    · exact (owedIn_replaceOwed s.pool.queue l m owed).trans (if_neg hm).le
    · exact (owedIn_replaceOwed s.pool.queue l l owed).trans (if_pos rfl).le
    · obtain ⟨y, hy, rfl⟩ := List.mem_map.1 hx
      refine ⟨y, hy, ?_⟩
      split <;> rfl
    · obtain ⟨y, hy, rfl⟩ := List.mem_map.1 hx
      split
      · exact some
      · exact owes y hy
  · refine law _ e (fun m hm => (owedIn_append_of_ne _ (Ne.symm hm)).le) (owedIn_append_of_absent (x := ⟨l, owed⟩) absent).le
      (fun x hx other => ?_) ?_ fun x hx => ?_
    · obtain hx | hx := List.mem_append.1 hx
      · exact ⟨x, hx, rfl⟩
      · exact absurd (by rw [List.mem_singleton.1 hx]) other
    · rw [List.map_append, List.nodup_append]
      refine ⟨once, by simp, fun a ha b hb => ?_⟩
      obtain ⟨x, hx, rfl⟩ := List.mem_map.1 ha
      rw [show b = l by simpa using hb]
      exact absent x hx
    · obtain hx | hx := List.mem_append.1 hx
      · exact owes x hx
      · rw [List.mem_singleton.1 hx]
        exact some

/-! ### The top-up pass (R94) -/

/-- The state with the shortfall queue replaced. -/
def State.withShortfalls (s : State) (queue : List Shortfall) : State := { s with pool := { s.pool with queue := queue } }

/-- A top-up pass leaves the oldest entry and the queue, serves the entry whole and goes on, or serves a part of it and ends (R94). -/
theorem topUp_cons_cases (t : State) (x : Shortfall) (rest : List Shortfall) :
    topUp t (x :: rest) = t.withShortfalls (x :: rest) ∨
    (x.owed = min x.owed t.pool.free.length ∧
      topUp t (x :: rest) = topUp ((t.grantSegments x.leg (min x.owed t.pool.free.length)).report (.ecTaps x.leg
        ((t.leg x.leg).ec.segments.length + min x.owed t.pool.free.length) (x.owed - min x.owed t.pool.free.length))) rest) ∨
    (min x.owed t.pool.free.length < x.owed ∧
      topUp t (x :: rest) = ((t.grantSegments x.leg (min x.owed t.pool.free.length)).report (.ecTaps x.leg
        ((t.leg x.leg).ec.segments.length + min x.owed t.pool.free.length) (x.owed - min x.owed t.pool.free.length))).withShortfalls
          ({ x with owed := x.owed - min x.owed t.pool.free.length } :: rest)) := by
  rw [Machine.topUp]
  dsimp only
  generalize (if (t.leg x.leg).ec.segments.length = 0 then min 2 x.owed else 1) = least
  split
  · split
    · exact .inr (.inl ⟨‹_›, rfl⟩)
    · exact .inr (.inr ⟨by omega, rfl⟩)
  · exact .inl rfl

/-- The oldest entry served: what it is given leaves the free set and what it is owed (R94). -/
theorem PoolLaw.serve {s : State} {x : Shortfall} {rest queue : List Shortfall} {n : Nat} (h : PoolLaw (s.withShortfalls (x :: rest)))
    (free : n ≤ s.pool.free.length)
    (queue' : (x.owed = n ∧ queue = rest) ∨ (n < x.owed ∧ queue = { x with owed := x.owed - n } :: rest)) :
    PoolLaw ((s.grantSegments x.leg n).withShortfalls queue) := by
  obtain ⟨state, segments, others⟩ := s.grantSegments_leg x.leg n
  obtain ⟨_, rising, room, idle, once, owes⟩ := h
  obtain ⟨fresh, restOnce⟩ := List.nodup_cons.1 once
  have absent : ∀ y ∈ rest, y.leg ≠ x.leg := fun y hy e => fresh (e ▸ List.mem_map_of_mem hy)
  have owed : ∀ m, (s.withShortfalls (x :: rest)).owed m = if x.leg = m then x.owed else owedIn rest m := owedIn_cons x rest
  have room := room x.leg
  rw [owed, if_pos rfl] at room
  have sub : ∀ y ∈ queue, y.leg = x.leg ∨ y ∈ rest := fun y hy => by
    obtain ⟨_, rfl⟩ | ⟨_, rfl⟩ := queue'
    · exact .inr hy
    · exact (List.mem_cons.1 hy).imp (fun e => by rw [e]) id
  have left : ∀ m, ((s.grantSegments x.leg n).withShortfalls queue).owed m = if x.leg = m then x.owed - n else owedIn rest m := by
    intro m
    obtain ⟨e, rfl⟩ | ⟨_, rfl⟩ := queue'
    · split
      · rename_i same
        rw [e, Nat.sub_self, ← same]
        exact owedIn_of_absent absent
      · rfl
    · exact owedIn_cons _ rest m
  refine PoolLaw.replaceLeg (s := s.withShortfalls (x :: rest)) ⟨‹_›, rising, ‹_›, idle, once, owes⟩ x.leg
    (fun m hm => ⟨congrArg (fun y : Leg => y.ec.segments) (others m hm), fun k => (congrArg Leg.state (others m hm)).symm.trans k⟩)
    (s.grantSegments_perm x.leg n) (rising.sublist (List.drop_sublist n _)) (fun m hm => ?_) ?_ (fun k => ?_) (fun y hy own => ?_) ?_
    fun y hy => ?_
  · rw [left, owed, if_neg (Ne.symm hm), if_neg (Ne.symm hm)]
  · rw [left, if_pos rfl]
    show ((s.grantSegments x.leg n).leg x.leg).ec.segments.length + (x.owed - n) ≤ 16
    have room : (s.leg x.leg).ec.segments.length + x.owed ≤ 16 := room
    have le : n ≤ x.owed := by obtain ⟨e, _⟩ | ⟨e, _⟩ := queue' <;> omega
    rw [segments, List.length_append, List.length_take, Nat.min_eq_left free]
    omega
  · exact absurd rfl ((idle x.leg (state.symm.trans k)).2 x (by simp [State.withShortfalls]))
  · exact ⟨y, List.mem_cons_of_mem _ ((sub y hy).resolve_left own), rfl⟩
  · show (queue.map Shortfall.leg).Nodup
    obtain ⟨_, rfl⟩ | ⟨_, rfl⟩ := queue'
    · exact restOnce
    · exact once
  · obtain ⟨_, rfl⟩ | ⟨less, rfl⟩ := queue'
    · exact owes y (List.mem_cons_of_mem _ hy)
    · obtain rfl | hy := List.mem_cons.1 hy
      · show 1 ≤ x.owed - n
        omega
      · exact owes y (List.mem_cons_of_mem _ hy)

namespace Keeps

variable {s t : State}

/-- The pool and the legs change, to what the pool's law of s makes lawful. -/
theorem poolLegsFrom (h : Keeps s t) (pool : TapPool) (legs : Table Leg 64)
    (k : PoolLaw s → PoolLaw { t with pool := pool, legs := legs }) : Keeps s { t with pool := pool, legs := legs } :=
  ⟨⟨h.replies, h.buffer, h.reports, h.port, h.wait, h.flash, h.feed, k⟩, fun d => (h.directory d).of_fields⟩

/-- The pool and the legs change under the pool's law. -/
theorem poolLegs (h : Keeps s t) (pool : TapPool) (legs : Table Leg 64) (k : PoolLaw t → PoolLaw { t with pool := pool, legs := legs }) :
    Keeps s { t with pool := pool, legs := legs } := h.poolLegsFrom pool legs (k ∘ h.pool)

theorem topUp (queue : List Shortfall) (h : Keeps s (t.withShortfalls queue)) : Keeps s (topUp t queue) := by
  induction queue generalizing t with
  | nil => exact h
  | cons x rest ih =>
    have served := fun queue served => ((h.poolLegs { t.pool with free := _, queue := queue } _ fun k =>
      k.serve (n := min x.owed t.pool.free.length) (queue := queue) (Nat.min_le_right _ _) served).report
        (.ecTaps x.leg ((t.leg x.leg).ec.segments.length + min x.owed t.pool.free.length)
          (x.owed - min x.owed t.pool.free.length)))
    obtain e | ⟨whole, e⟩ | ⟨part, e⟩ := topUp_cons_cases t x rest <;> rw [e]
    · exact h
    · exact ih (t := (t.grantSegments _ _).report _) (served rest (.inl ⟨whole, rfl⟩))
    · exact served _ (.inr ⟨part, rfl⟩)

theorem topUpPass (h : Keeps s t) : Keeps s t.topUpPass := topUp t.pool.queue h

theorem cutSegments (h : Keeps s t) (l : LegId) (n : Nat) : Keeps s (t.cutSegments l n) := h.poolLegs _ _ fun k => k.cutSegments l n

theorem dropShortfall (h : Keeps s t) (l : LegId) : Keeps s (t.dropShortfall l) := h.poolLegs _ t.legs fun k => k.dropShortfall l

end Keeps

end Sys2Proof.Machine
end

section
set_option Elab.async false
/-! ## What the events of ports and positions keep (chapter 1) -/

namespace Sys2Proof.Machine

/-! ### Elastic buffers -/

theorem Elastic.Law.withSamples {b : Elastic} (h : b.Law) {xs : List Sample} (k : xs.length ≤ 192) : ({ b with samples := xs } : Elastic).Law :=
  ⟨k, h.2⟩

theorem sat16Count_le (n k : Nat) : sat16Count n k ≤ 65535 := Nat.min_le_left _ _

/-- A draw leaves a buffer within its size and its counts within 16 bits (R12, R13). -/
theorem Elastic.draw_law {b : Elastic} (h : b.Law) : b.draw.1.Law := by
  obtain ⟨fill, slips, underruns, overruns⟩ := h
  have drop : ∀ n, (b.samples.drop n).length ≤ 192 := fun n => (List.drop_sublist n _).length_le.trans fill
  unfold Elastic.draw
  dsimp only
  split
  · exact ⟨drop 65, sat16Count_le _ _, underruns, overruns⟩
  · split
    · split
      · exact ⟨Nat.zero_le _, slips, sat16Count_le _ _, overruns⟩
      · exact ⟨drop 63, sat16Count_le _ _, underruns, overruns⟩
    · split
      · exact ⟨Nat.zero_le _, slips, sat16Count_le _ _, overruns⟩
      · exact ⟨drop 64, slips, underruns, overruns⟩

/-- An EAR block written leaves a buffer within its size and its counts within 16 bits (R12, R14). -/
theorem Elastic.writeEar_law {b : Elastic} (h : b.Law) (block : Block) : (b.writeEar block).Law := by
  have slipped : ({ b with slips := sat16Count b.slips 1 } : Elastic).Law := ⟨h.1, sat16Count_le _ _, h.2.2⟩
  unfold Elastic.writeEar
  dsimp only
  split
  · exact Elastic.append_law slipped _
  · split
    · exact Elastic.append_law slipped _
    · exact Elastic.append_law h _

/-! ### The look back for frames -/

@[simp] theorem Port.judgeFrames_uplink (x : Port) : x.judgeFrames.uplink = x.uplink := by
  unfold Port.judgeFrames
  dsimp only
  split <;> rfl

@[simp] theorem Port.judgeFrames_downlink (x : Port) : x.judgeFrames.downlink = x.downlink := by
  unfold Port.judgeFrames
  dsimp only
  split <;> rfl

@[simp] theorem Port.judgeFrames_parityCount (x : Port) : x.judgeFrames.parityCount = x.parityCount := by
  unfold Port.judgeFrames
  dsimp only
  split <;> rfl

namespace Keeps

variable {s t : State}

/-! ### Buttons -/

theorem setMute (h : Keeps s t) (p : PosId) (value : Bool) (cause : MuteCause) : Keeps s (t.setMute p value cause) := by
  unfold State.setMute
  split
  · exact h
  · exact (h.modPos p).report _

theorem muteButton (h : Keeps s t) (p : PosId) (pressed : Bool) : Keeps s (t.muteButton p pressed) := by
  unfold State.muteButton
  split
  · split
    · exact h.setMute p _ _
    · exact h
  · exact h.setMute p _ _
  · exact h

theorem volumePress (h : Keeps s t) (p : PosId) (up : Bool) : Keeps s (t.volumePress p up) := (h.modPos p).report _

theorem buttonAct (h : Keeps s t) (p : PosId) (b : Button) (pressed : Bool) : Keeps s (t.buttonAct p b pressed) := by
  unfold State.buttonAct
  split
  · exact h.muteButton p pressed
  · split
    · exact h.volumePress p true
    · exact h
  · split
    · exact h.volumePress p false
    · exact h
  · exact h.report _

theorem debounce (h : Keeps s t) (p : PosId) (b : Button) (shown : Bool) : Keeps s (t.debounce p b shown) := by
  unfold State.debounce
  dsimp only
  split
  · exact h.modPort p
  · split
    · exact h.modPort p
    · exact (h.modPort p).buttonAct p b shown

theorem controlSlot (h : Keeps s t) (p : PosId) (shown : Buttons Bool) : Keeps s (t.controlSlot p shown) :=
  h.foldl _ (fun t b => (refl t).debounce p b _) _

theorem releaseButton (h : Keeps s t) (p : PosId) (b : Button) : Keeps s (t.releaseButton p b) := by
  unfold State.releaseButton
  split
  · exact (h.modPort p).buttonAct p b false
  · exact h.modPort p

theorem releaseButtons (h : Keeps s t) (p : PosId) : Keeps s (t.releaseButtons p) :=
  h.foldl _ (fun t b => (refl t).releaseButton p b) _

/-! ### Transitions and the release sequence -/

theorem enterLive (h : Keeps s t) (p : PosId) : Keeps s (t.enterLive p) :=
  (h.modPos p (f := Position.enterLive) fun _ k => ⟨k.1.withSamples (Nat.zero_le _), k.2.1.withSamples (by simp [Config.downlinkLoad]), k.2.2⟩).report _

theorem leaveLive (h : Keeps s t) (p : PosId) : Keeps s (t.leaveLive p) := by
  unfold State.leaveLive
  split
  · exact (h.releaseButtons p).modPos p fun _ k =>
      ⟨k.1.withSamples (Nat.zero_le _), k.2.1.withSamples (Nat.zero_le _), k.2.2⟩
  · exact h

theorem releaseWhispers (h : Keeps s t) (p : PosId) : Keeps s (t.releaseWhispers p) := by
  unfold State.releaseWhispers
  split
  · exact h
  · exact ((h.modWhisper p _).foldl _ (fun t w => (refl t).report _) _).headRemoved p

theorem abortConnect (h : Keeps s t) (l : LegId) : Keeps s (t.abortConnect l) := by
  refine (h.detach l).modLeg l (idle := fun x k => ?_)
  have origin : ∀ x : Leg, x.originState ≠ .idle := fun x => by
    unfold Leg.originState
    split <;> simp
  exact absurd k (origin x)

theorem releaseConnecting (h : Keeps s t) (p : PosId) : Keeps s (t.releaseConnecting p) := by
  unfold State.releaseConnecting
  split
  · split
    · exact (h.abortConnect _).report _
    · exact h
  · exact h

theorem holdLeg (h : Keeps s t) (l : LegId) (plan : Option PlanId) : Keeps s (t.holdLeg l plan) := by
  have held := fun {u : State} (k : Keeps s u) => (k.modLeg l (f := fun x => { x with state := .held }) (idle := fun _ k => nomatch k)).beginSession l plan
  unfold State.holdLeg
  dsimp only
  split
  · exact held ((h.detach l).notice l)
  · exact held h

theorem releaseActive (h : Keeps s t) (p : PosId) (cause : ReleaseCause) : Keeps s (t.releaseActive p cause) := by
  unfold State.releaseActive
  split
  · split
    · exact (h.holdLeg _ _).report _
    · exact h
  · exact h

theorem endSupervision (h : Keeps s t) (q : PosId) : Keeps s (t.endSupervision q) := by
  unfold State.endSupervision
  split
  · exact h
  · have ended := h.modPos q (f := fun x => { x with supervision := none })
    dsimp only
    split
    · split
      · exact ended.notice _
      · exact ended
    · exact ended

theorem releaseRecord (h : Keeps s t) (q : PosId) (cause : ReleaseCause) : Keeps s (t.releaseRecord q cause) := by
  unfold State.releaseRecord
  split
  · exact h
  · exact (h.endSupervision q).report _

theorem releaseSupervision (h : Keeps s t) (p : PosId) (cause : ReleaseCause) : Keeps s (t.releaseSupervision p cause) := by
  unfold State.releaseSupervision
  dsimp only
  split
  · exact (h.releaseRecord p cause).releaseRecord _ cause
  · exact h.releaseRecord p cause

theorem releaseSequence (h : Keeps s t) (p : PosId) (cause : ReleaseCause) : Keeps s (t.releaseSequence p cause) := by
  unfold State.releaseSequence
  have departed := (((h.releaseWhispers p).releaseConnecting p).releaseActive p cause).releaseSupervision p cause
  exact (departed.setMute p false .release).modPos p

theorem takeUnplug (h : Keeps s t) (p : PosId) : Keeps s (t.takeUnplug p) := by
  unfold State.takeUnplug
  dsimp only
  split
  · exact ((((h.leaveLive p).releaseSequence p .unplug).modPort p).report _).finish t
  · exact (((h.leaveLive p).modPort p).report _).finish t

theorem takeExpiry (h : Keeps s t) (p : PosId) : Keeps s (t.takeExpiry p) :=
  ((((h.modPort p (f := fun x => { x with window := none })).releaseSequence p .linkLost).report _).modPort p).finish t

theorem takeLockLoss (h : Keeps s t) (p : PosId) : Keeps s (t.takeLockLoss p) :=
  (((h.leaveLive p).modPort p (f := fun x => { x with
    state := .lost, missing := 0, parityCount := 0, parityAlert := false, window := some 0 })
      fun _ k => ⟨k.1, k.2.1, Nat.zero_le _, k.2.2.2⟩).report _).finish t

/-! ### Frames -/

theorem enterQualifying (h : Keeps s t) (p : PosId) (time : Nat) : Keeps s (t.enterQualifying p time) := by
  unfold State.enterQualifying
  dsimp only
  split
  · exact (h.modPort p).enterLive p
  · exact h.modPort p

theorem closeMeasurement (h : Keeps s t) (p : PosId) (time elapsed : Nat) : Keeps s (t.closeMeasurement p time elapsed) := by
  have closed := h.modPort p (f := fun x => { x with
    lastOffset := measureOffset elapsed, measured := true, previous := some (measureOffset elapsed), interval := some ⟨time, 0⟩ })
  have faulted := (closed.modPort p (f := fun x => { x with rateFault := true })).report (.rateFault p (measureOffset elapsed))
  have judged : ∀ u, Keeps s u → Keeps s (match (t.pos p).port.previous with
      | some b => if qualifies (t.pos p).config.hysteresis (measureOffset elapsed) b then u.enterQualifying p time else u
      | none => u) := fun u k => by
    split
    · split
      · exact k.enterQualifying p time
      · exact k
    · exact k
  unfold State.closeMeasurement
  refine judged _ ?_
  split
  · exact faulted
  · exact closed

theorem countFrame (h : Keeps s t) (p : PosId) (time : Nat) : Keeps s (t.countFrame p time) := by
  have seen := h.modPort p (f := fun x => { x with noFrames := false, frameSeen := true })
  unfold State.countFrame
  dsimp only
  split
  · exact seen.modPort p
  · split
    · exact seen.modPort p
    · exact seen.closeMeasurement p time _

theorem goodFrame (h : Keeps s t) (p : PosId) (f : UpFrame) : Keeps s (t.goodFrame p f) := by
  have taken := (h.modPort p (f := fun x => { x with
    uplink := x.uplink.append f.samples, badRun := 0, lastGood := some f.samples })
      fun _ k => ⟨Elastic.append_law k.1 _, k.2⟩).controlSlot p f.buttons
  unfold State.goodFrame
  dsimp only
  split
  · exact taken
  · exact taken.finish t

theorem badFrame (h : Keeps s t) (p : PosId) : Keeps s (t.badFrame p) := by
  have concealed := h.modPort p (f := fun x => { x with
    uplink := x.uplink.append x.concealed, badRun := x.badRun + 1, parityCount := sat16Count (t.pos p).port.parityCount 1 })
      fun _ k => ⟨Elastic.append_law k.1 _, k.2.1, sat16Count_le _ _, k.2.2.2⟩
  unfold State.badFrame
  dsimp only
  split
  · exact (concealed.modPort p).report _
  · exact concealed

theorem upFrame (h : Keeps s t) (p : PosId) (f : UpFrame) (time : Nat) : Keeps s (t.upFrame p f time) := by
  unfold State.upFrame
  split
  · exact h
  · exact h
  · exact h
  · exact h.countFrame p time
  · exact h.modPort p
  · dsimp only
    split
    · exact (h.modPort p).goodFrame p f
    · exact (h.modPort p).badFrame p
  · exact h.modPort p

theorem downFrame (h : Keeps s t) (p : PosId) : Keeps s (t.downFrame p) := by
  unfold State.downFrame
  split
  · exact h.modPort p
  · exact h.modPort p fun _ k => ⟨k.1, Elastic.takeFrame_law k.2.1, k.2.2⟩
  all_goals exact h

theorem frameMissed (h : Keeps s t) (p : PosId) : Keeps s (t.frameMissed p) := by
  unfold State.frameMissed
  dsimp only
  split
  · split
    · exact h.modPort p
    · exact h.modPort p
  · split
    · exact h.takeLockLoss p
    · exact h.modPort p
  all_goals exact h

/-! ### The block event -/

theorem putMic (h : Keeps s t) (p : PosId) (b : Block) : Keeps s (t.putMic p b) :=
  h.trans ⟨⟨rfl, rfl, id, id, id, id, id, id⟩, fun d => d.of_fields⟩

theorem speechOnset (h : Keeps s t) (p : PosId) : Keeps s (t.speechOnset p) := by
  unfold State.speechOnset
  split
  · split
    · split
      · exact (h.run _).finish t
      · exact h
    · exact h
    · exact h
  · exact h

theorem drawMic (h : Keeps s t) (p : PosId) : Keeps s (t.drawMic p) := by
  have drawn : Keeps s (t.modPort p fun y => { y with uplink := (t.pos p).port.uplink.draw.1, priming := false }) :=
    h.modPosAt p fun k => ⟨Elastic.draw_law k.1, k.2⟩
  unfold State.drawMic
  dsimp only
  split
  · exact h.putMic p _
  · split
    · split
      · exact ((drawn.modPos p).putMic p _).speechOnset p
      · exact (drawn.modPos p).putMic p _
    · exact drawn.putMic p _

theorem unplugIfDue (h : Keeps s t) (p : PosId) : Keeps s (t.unplugIfDue p) := by
  unfold State.unplugIfDue
  split
  · exact h.takeUnplug p
  · exact h

theorem expiryIfDue (h : Keeps s t) (p : PosId) : Keeps s (t.expiryIfDue p) := by
  unfold State.expiryIfDue
  split
  · exact h.takeExpiry p
  · exact h

theorem liveIfDue (h : Keeps s t) (p : PosId) : Keeps s (t.liveIfDue p) := by
  unfold State.liveIfDue
  split
  · exact h.enterLive p
  · exact h

theorem transitions (h : Keeps s t) (p : PosId) (order : EventOrder) : Keeps s (t.transitions p order) := by
  cases order with
  | unplugFirst => exact ((h.unplugIfDue p).expiryIfDue p).liveIfDue p
  | expiryFirst => exact ((h.expiryIfDue p).unplugIfDue p).liveIfDue p
  | liveFirst => exact ((h.liveIfDue p).unplugIfDue p).expiryIfDue p

theorem portBlock (h : Keeps s t) (order : EventOrder) (p : PosId) (presence : Bool) : Keeps s (t.portBlock order p presence) := by
  have judged : ∀ (x : Position) (y : Port), y.uplink = x.port.uplink → y.downlink = x.port.downlink →
      y.parityCount = x.port.parityCount → x.Law → ({ x with port := y.judgeFrames } : Position).Law := by
    intro x y uplink downlink count k
    simpa only [Position.Law, Port.judgeFrames_uplink, Port.judgeFrames_downlink, Port.judgeFrames_parityCount, uplink, downlink, count]
      using k
  have counted : Keeps s (t.modPort p fun x => ((x.sampleUnplug presence).countBlock).judgeFrames) :=
    h.modPort p fun x => judged x _ rfl rfl rfl
  unfold State.portBlock
  split
  · exact h.putMic p _
  · have sampled := h.modPort p (f := fun x => { x with
      presence := presence, insertCount := if presence then x.insertCount + 1 else 0 })
    exact ite (((sampled.putMic p _).modPort p).report _) (sampled.putMic p _)
  · have sampled := (h.modPort p (f := fun x => { (x.sampleUnplug presence) with frameSeen := false })).putMic p zeroBlock
    dsimp only
    split
    · exact sampled.takeUnplug p
    · exact sampled.modPort p
  · exact (counted.putMic p _).transitions p order
  · exact (counted.putMic p _).transitions p order
  · exact (counted.putMic p _).transitions p order
  · have sampled : Keeps s (t.modPort p fun x => (x.sampleUnplug presence).judgeFrames) :=
      h.modPort p fun x => judged x _ rfl rfl rfl
    dsimp only
    split
    · exact (sampled.putMic p _).takeUnplug p
    · exact sampled.drawMic p

/-! ### The requests about positions -/

theorem enablePort (h : Keeps s t) (p : PosId) : Keeps s (t.enablePort p) := by
  unfold State.enablePort
  split
  · exact h.modPort p
  · exact h

theorem disablePort (h : Keeps s t) (p : PosId) : Keeps s (t.disablePort p) := by
  unfold State.disablePort
  split
  · exact h
  · exact h.modPort p
  · exact (((h.leaveLive p).releaseSequence p .portDisabled).modPort p).finish t

theorem configure (h : Keeps s t) (p : PosId) (c : PositionConfig) : Keeps s (t.configure p c) :=
  (h.modPos p (f := fun x => { x with config := c, earVolume := c.earVolume })).finish t

end Keeps

/-- A request that is refused keeps everything. -/
theorem Keeps.refuse (s : State) (status : Status) : Keeps s (refuse s status).state := Keeps.refl s

theorem Keeps.withPosition {n : Nat} {s : State} {f : PosId → Handled} (h : ∀ p, Keeps s (f p).state) :
    Keeps s (withPosition n s f).state := by
  unfold Machine.withPosition
  split
  · exact h _
  · exact Keeps.refuse s _

theorem ownPortEnable_keeps (n : Nat) (s : State) : Keeps s (ownPortEnable n s).state :=
  Keeps.withPosition fun p => (Keeps.refl s).enablePort p

theorem ownPortDisable_keeps (n : Nat) (s : State) : Keeps s (ownPortDisable n s).state :=
  Keeps.withPosition fun p => (Keeps.refl s).disablePort p

theorem ownPositionConfig_keeps (f : ConfigFields) (s : State) : Keeps s (ownPositionConfig f s).state :=
  Keeps.withPosition fun p => by
    split
    · exact (Keeps.refl s).configure p _
    · exact Keeps.refuse s _

theorem ownPositionMute_keeps (f : MuteFields) (s : State) : Keeps s (ownPositionMute f s).state :=
  Keeps.withPosition fun p => by
    split
    · exact (Keeps.refl s).setMute p _ .host
    · exact Keeps.refuse s _

theorem ownPositionStatus_keeps (n : Nat) (s : State) : Keeps s (ownPositionStatus n s).state :=
  Keeps.withPosition fun _ => Keeps.refl s

theorem ownPositionStats_keeps (n : Nat) (s : State) : Keeps s (ownPositionStats n s).state :=
  Keeps.withPosition fun p => (Keeps.refl s).modPos p fun _ k =>
    ⟨⟨k.1.1, Nat.zero_le _, Nat.zero_le _, Nat.zero_le _⟩, ⟨k.2.1.1, Nat.zero_le _, Nat.zero_le _, Nat.zero_le _⟩,
      Nat.zero_le _, Nat.zero_le _⟩

end Sys2Proof.Machine
end

section
set_option Elab.async false
/-! ## What the requests and events of legs, cancellers, plans, whispers and supervision keep (chapters 2, 5, 7 and 8) -/

namespace Sys2Proof.Machine

/-! ### Cancellers: what leaves the segment list alone -/

@[simp] theorem Canceller.account_segments (c : Canceller) (rx errors : Block) (valid : Bool) (f : Findings) :
    (c.account rx errors valid f).1.segments = c.segments := by
  have judged : ∀ (c : Canceller) (w : ErleWindow), (c.judgeWindow w).1.segments = c.segments := fun c w => by
    unfold Canceller.judgeWindow
    repeat' split
    all_goals rfl
  have erle : ∀ qualifies, (c.accountErle rx errors qualifies).1.segments = c.segments := fun qualifies => by
    unfold Canceller.accountErle
    dsimp only
    split
    · rfl
    · exact judged _ _
  have search : ∀ counted, (c.accountSearch rx counted).1.segments = c.segments := fun counted => by
    unfold Canceller.accountSearch
    dsimp only
    repeat' split
    all_goals rfl
  unfold Canceller.account
  split
  · rfl
  · exact search _
  all_goals exact erle _

theorem Canceller.act_segments (c : Canceller) (action : EcAction) : (c.act action).segments = c.segments := by
  unfold Canceller.act
  split
  · rfl
  · dsimp only
    split
    · rfl
    · exact Canceller.startPoint_segments _
  all_goals split <;> rfl

/-! ### A leg opened and closed under the pool's law -/

theorem openGrant_le (free tail : Nat) : openGrant free tail ≤ tail := by
  unfold openGrant
  split
  · exact le_refl tail
  · split <;> omega

/-- A leg without segments and without an entry in the shortfall queue is opened (R92 to R94). -/
theorem PoolLaw.openEc_grant {s : State} (h : PoolLaw s) {l : LegId} {tail n : Nat} (busy : (s.leg l).state ≠ .idle)
    (bare : (s.leg l).ec.segments = [] ∧ ∀ x ∈ s.pool.queue, x.leg ≠ l) (le : n ≤ tail) (most : tail ≤ 16) :
    PoolLaw (if n < tail then (s.grantSegments l n).setShortfall l (tail - n) else s.grantSegments l n) := by
  obtain ⟨none, absent⟩ := bare
  obtain ⟨state, segments, _⟩ := s.grantSegments_leg l n
  have granted := h.grantSegments (n := n) busy (by
    rw [none, State.owed_eq, owedIn_of_absent absent, List.length_nil]
    omega)
  split
  · refine granted.setShortfall (by rw [state]; exact busy) ?_ (by omega)
    rw [segments, none, List.nil_append, List.length_take]
    omega
  · exact granted

/-- A canceller closed holds no segment and is owed none (R95, R119). -/
theorem State.closeEc_bare (s : State) (l : LegId) :
    ((s.closeEc l).leg l).ec.segments = [] ∧ ∀ x ∈ (s.closeEc l).pool.queue, x.leg ≠ l :=
  ⟨by simp [State.closeEc, Canceller.close], fun x hx => by simpa using (List.mem_filter.1 hx).2⟩

namespace Keeps

variable {s t : State}

theorem openEc (h : Keeps s t) {l : LegId} {tail : Nat} (mode : DelayMode) (d : Nat) (busy : (t.leg l).state ≠ .idle)
    (bare : PoolLaw s → (t.leg l).ec.segments = [] ∧ ∀ x ∈ t.pool.queue, x.leg ≠ l) (most : tail ≤ 16) :
    Keeps s (t.openEc l tail mode d) := by
  have columnLaw : ∀ cause, PoolLaw s → PoolLaw (t.modEc l fun c => c.openColumn cause mode d) := fun cause k =>
    (h.pool k).of_same rfl
      (State.forall_leg_modLeg (P := fun m x => x.ec.segments = (t.leg m).ec.segments) (fun _ => rfl) (bare k).1.symm)
      (State.forall_leg_modLeg (P := fun m x => x.state = .idle → (t.leg m).state = .idle) (fun _ => id) fun k => k)
  have column : ∀ cause, Keeps s (t.modEc l fun c => c.openColumn cause mode d) := fun cause =>
    h.poolLegsFrom t.pool _ (columnLaw cause)
  unfold State.openEc
  split
  · exact column _
  · dsimp only
    generalize hu : t.modEc l (fun c => c.openColumn .noTaps mode d) = u
    have leg : u.leg l = { t.leg l with ec := (t.leg l).ec.openColumn .noTaps mode d } := by rw [← hu, State.leg_modEc_same]
    have law : PoolLaw s → PoolLaw (if openGrant t.pool.free.length tail < tail
        then (u.grantSegments l (openGrant t.pool.free.length tail)).setShortfall l (tail - openGrant t.pool.free.length tail)
        else u.grantSegments l (openGrant t.pool.free.length tail)) := fun k => by
      refine PoolLaw.openEc_grant (hu ▸ columnLaw _ k) (by rw [leg]; exact busy) ⟨by rw [leg]; rfl, ?_⟩ (openGrant_le _ _) most
      rw [← hu]
      exact (bare k).2
    refine (Keeps.report ?_ _).topUpPass
    rw [← hu] at law ⊢
    split
    · rename_i short
      rw [if_pos short] at law
      exact h.poolLegsFrom _ _ law
    · rename_i whole
      rw [if_neg whole] at law
      exact h.poolLegsFrom _ _ law

theorem openLeg {l : LegId} {tail : Nat} (mode : DelayMode) (d : Nat) (idle : (s.leg l).state = .idle) (most : tail ≤ 16) :
    Keeps s (s.openLeg l tail mode d) := by
  have opened : Keeps s (s.modLeg l fun x => { x with
      state := .opened, attached := none, origin := none, session := none, resume := none, last := none }) :=
    (refl s).modLeg l (idle := fun _ k => nomatch k)
  unfold State.openLeg
  exact (opened.openEc mode d (by simp) (fun k => by simpa using k.2.2.2.1 l idle) most).finish s

/-! ### A leg closed -/

theorem closeWhisper (h : Keeps s t) (l : LegId) : Keeps s (t.closeWhisper l) := by
  unfold State.closeWhisper
  split
  · exact h.removeCallWhisper l _
  · exact h

theorem closeEc (h : Keeps s t) (l : LegId) : Keeps s (t.closeEc l) := by
  have segments : (((t.cutSegments l 0).dropShortfall l).leg l).ec.segments = [] :=
    ((t.cutSegments_leg l 0).2.1).trans List.take_zero
  unfold State.closeEc
  exact ((h.cutSegments l 0).dropShortfall l).trans
    ⟨KeepsLists.modEc _ l segments.symm, fun d => d.of_fields⟩

theorem closeLeg (h : Keeps s t) (l : LegId) : Keeps s (t.closeLeg l) := by
  have closed := ((((h.dropLegFeeds l).closeWhisper l).detach l).run [.sessionEnd l false]).closeEc l
  have bare := ((((t.dropLegFeeds l).closeWhisper l).detach l).run [.sessionEnd l false]).closeEc_bare l
  unfold State.closeLeg
  dsimp only
  generalize ((((t.dropLegFeeds l).closeWhisper l).detach l).run [.sessionEnd l false]).closeEc l = u at closed bare ⊢
  obtain ⟨none, absent⟩ := bare
  refine closed.poolLegs u.pool _ fun k => ?_
  have law : PoolLaw (u.modLeg l fun x => { x with
      state := .idle, attached := Option.none, origin := Option.none, session := Option.none, resume := Option.none, last := Option.none }) := by
    refine k.replaceLeg l (fun m hm => by rw [State.leg_modLeg_ne _ _ _ _ (Ne.symm hm)]; exact ⟨rfl, id⟩)
      (by simp) k.2.1 (fun _ _ => le_refl _) (by rw [State.leg_modLeg_same]; exact k.2.2.1 l) (fun _ => ⟨by simpa using none, absent⟩)
      (fun x hx _ => ⟨x, hx, rfl⟩) k.2.2.2.2.1 k.2.2.2.2.2
  exact law

/-! ### EC_CONFIG -/

theorem setTail (h : Keeps s t) {l : LegId} {tail : Nat} (busy : (t.leg l).state ≠ .idle) (most : tail ≤ 16) :
    Keeps s (t.setTail l tail) := by
  have off : ∀ {u}, Keeps s u → Keeps s (if tail = 0 then u.modEc l fun c => { c with state := .off .disabled } else u) :=
    fun k => ite (k.modEc l) k
  unfold State.setTail
  refine (off ?_).topUpPass
  split
  · exact (h.cutSegments l tail).dropShortfall l
  · split
    · exact h.dropShortfall l
    · refine Keeps.modEc (h.poolLegs _ t.legs fun k => k.setShortfall busy (by omega) (by omega)) l fun c => ?_
      split <;> rfl

theorem ecConfigure (h : Keeps s t) {l : LegId} (tail : Option Nat) (delay : Option (DelayMode × Nat)) (nlp : Option Nat)
    (action : EcAction) (busy : (t.leg l).state ≠ .idle) : Keeps s (t.ecConfigure l tail delay nlp action) := by
  have acted : ∀ {u : State}, Keeps s u → (u.leg l).state ≠ .idle → Keeps s ((match tail with
      | some n => u.setTail l (min n Config.maxTail)
      | none => u).modEc l fun c => c.act action) := fun k busy => by
    refine Keeps.modEc ?_ l fun c => c.act_segments action
    split
    · exact k.setTail busy (Nat.min_le_right _ _)
    · exact k
  unfold State.ecConfigure
  cases nlp with
  | none =>
    cases delay with
    | none => exact acted h busy
    | some d => exact acted (h.modEc l) (by simpa using busy)
  | some a =>
    cases delay with
    | none => exact acted (h.modEc l) (by simpa using busy)
    | some d => exact acted ((h.modEc l).modEc l) (by simpa using busy)

/-! ### The canceller's block -/

theorem ecNews (h : Keeps s t) (l : LegId) (news : Option EcNews) : Keeps s (t.ecNews l news) := by
  unfold State.ecNews
  split
  · exact h
  · exact h.report _
  · exact h.report _

theorem sources (h : Keeps s t) (x : Sources) : Keeps s { t with sources := x } :=
  h.trans ⟨⟨rfl, rfl, id, id, id, id, id, id⟩, fun d => d.of_fields⟩

theorem ecBlock (h : Keeps s t) (l : LegId) : Keeps s (t.ecBlock l) := by
  unfold State.ecBlock
  dsimp only
  refine Keeps.ecNews ((h.sources _).trans ⟨KeepsLists.modLeg _ l ?_ id, fun d => d.of_fields⟩) l _
  exact Canceller.account_segments _ _ _ _ _

/-! ### Holding and connecting -/

theorem replaceSession (h : Keeps s t) (l : LegId) (plan : Option PlanId) : Keeps s (t.replaceSession l plan) := by
  unfold State.replaceSession
  split
  · exact h.beginSession l plan
  · have ended := h.modLeg l (f := fun y => { y with session := none })
    split
    · split
      · exact ended.enterSession l plan
      · split
        · exact (ended.withdraw _).enterSession l plan
        · exact (ended.run _).enterSession l plan
    · exact (h.run _).beginSession l plan

theorem makeRoom (h : Keeps s t) (p : PosId) : Keeps s (t.makeRoom p) := by
  unfold State.makeRoom
  split
  · exact h
  · split
    · exact (h.modWhisper p _).report _
    · exact h

theorem placeCallWhisper (h : Keeps s t) (l : LegId) (p : PosId) (clip : ClipId) : Keeps s (t.placeCallWhisper l p clip) := by
  unfold State.placeCallWhisper
  have placed := (h.makeRoom p).modWhisper p fun q => { q with entries := placeBehindBegun ⟨.call l, clip, false⟩ q.entries }
  dsimp only
  exact (ite placed (placed.undoHead p)).run _

theorem connectNow (h : Keeps s t) (l : LegId) (p : PosId) : Keeps s (t.connectNow l p) := (h.run _).finish t

theorem connectWhisper (h : Keeps s t) (l : LegId) (p : PosId) (clip : ClipId) : Keeps s (t.connectWhisper l p clip) := by
  have connecting : Keeps s (t.modLeg l fun x => { x with state := .connecting, origin := x.state.asOrigin }) :=
    h.modLeg l (idle := fun _ k => nomatch k)
  exact ((connecting.attach l p).placeCallWhisper l p clip).finish t

theorem cancelConnect (h : Keeps s t) (l : LegId) : Keeps s (t.cancelConnect l) := by
  unfold State.cancelConnect
  split
  · exact ((h.abortConnect l).removeCallWhisper l _).finish t
  · exact h

/-! ### Whispers and supervision -/

theorem appendPrompt (h : Keeps s t) (p : PosId) (w : WhisperEntry) : Keeps s (t.appendPrompt p w) :=
  ((h.modWhisper p _).run _).finish t

theorem flushPrompts (h : Keeps s t) (p : PosId) : Keeps s (t.flushPrompts p) := by
  have flushed := (h.modWhisper p fun q => { q with entries := q.entries.filter fun w => !w.isPrompt }).foldl
    (fun t w => t.report (.whisperAborted (w.reportOf p (some .flush)))) (fun t _ => (refl t).report _)
    ((t.pos p).whisper.entries.filter WhisperEntry.isPrompt)
  unfold State.flushPrompts
  dsimp only
  split
  · exact flushed
  · exact (ite (flushed.headRemoved p) flushed).finish t

theorem gapBlock (h : Keeps s t) (p : PosId) : Keeps s (t.gapBlock p) := by
  unfold State.gapBlock
  split
  · exact h
  · exact ite (((h.modWhisper p _).run _).finish t) (h.modWhisper p _)

theorem deadlineBlock (h : Keeps s t) (p : PosId) : Keeps s (t.deadlineBlock p) := by
  unfold State.deadlineBlock
  split
  · exact h
  · exact h
  · exact ite (((h.withdraw _).run _).finish t) (h.modWhisper p _)

theorem setSupervision (h : Keeps s t) (q a : PosId) (mode : SuperMode) (wasBarge : Bool) :
    Keeps s (t.setSupervision q a mode wasBarge) := by
  have set := h.modPos q (f := fun x => { x with supervision := some ⟨a, mode⟩ })
  unfold State.setSupervision
  dsimp only
  refine Keeps.finish ?_ t
  split
  · split
    · exact set.notice _
    · exact set
  · exact set

/-! ### Plans -/

theorem stopStream (h : Keeps s t) (i : PlanId) : Keeps s (t.stopStream i) := by
  have withdrawn : ∀ {u}, Keeps s u →
      Keeps s (if (u.plan i).pending then (u.withdraw (.shared i)).modPlan i fun x => { x with pending := false } else u) :=
    fun k => ite ((k.withdraw _).modPlan i _) k
  unfold State.stopStream
  refine withdrawn ?_
  split
  · exact ite (h.run _) h
  · exact h

theorem setPlan (h : Keeps s t) (i : PlanId) (r : PlanRecord) : Keeps s (t.setPlan i r) := by
  have set := h.modPlan i fun x => { x with record := some r }
  exact ((ite (set.stopStream i) set).judgeStream i).finish t

theorem stepSession (h : Keeps s t) (l : LegId) (x : Session) (r : PlanRecord) : Keeps s (t.stepSession l x r) := by
  have put := fun y : Session => h.modLeg l (f := fun z => { z with session := some y })
  unfold State.stepSession
  dsimp only
  split
  · exact put _
  · split
    · exact (put _).run _
    · exact put _

theorem sessionBlock (h : Keeps s t) (l : LegId) : Keeps s (t.sessionBlock l) := by
  unfold State.sessionBlock
  split
  · exact h
  · split
    · exact ite ((h.stepSession l _ _).finish t) (h.modLeg l)
    · exact h

end Keeps

/-! ### The owners of the requests -/

theorem Keeps.withLeg {n : Nat} {s : State} {f : LegId → Handled} (h : ∀ l, Keeps s (f l).state) : Keeps s (withLeg n s f).state := by
  unfold Machine.withLeg
  split
  · exact h _
  · exact Keeps.refuse s _

theorem Keeps.withPlan {n : Nat} {s : State} {f : PlanId → Handled} (h : ∀ i, Keeps s (f i).state) : Keeps s (withPlan n s f).state := by
  unfold Machine.withPlan
  split
  · exact h _
  · exact Keeps.refuse s _

theorem Keeps.iteHandled {c : Prop} [Decidable c] {s : State} {a b : Handled} (h : c → Keeps s a.state) (k : ¬ c → Keeps s b.state) :
    Keeps s (if c then a else b).state := by
  split
  · exact h ‹_›
  · exact k ‹_›

theorem ownLegOpen_keeps (f : OpenFields) (s : State) : Keeps s (ownLegOpen f s).state := by
  unfold ownLegOpen
  split
  · exact Keeps.iteHandled (fun idle => Keeps.openLeg _ _ idle (Nat.min_le_right _ _)) fun _ => Keeps.refuse s _
  · exact Keeps.refuse s _

theorem ownLegHold_keeps (f : HoldFields) (s : State) : Keeps s (ownLegHold f s).state :=
  Keeps.withLeg fun l => by
    have r := Keeps.refl s
    split
    · exact Keeps.refuse s _
    · split
      · exact Keeps.refuse s _
      · exact Keeps.refuse s _
      · exact (r.holdLeg l _).finish s
      · exact (r.holdLeg l _).finish s
      · exact (r.replaceSession l _).finish s

theorem ownLegConnect_keeps (f : ConnectFields) (s : State) : Keeps s (ownLegConnect f s).state := by
  have r := Keeps.refl s
  unfold ownLegConnect
  split
  · split
    · split
      · exact r.connectNow _ _
      · exact r.connectWhisper _ _ _
    · exact Keeps.refuse s _
  · exact Keeps.refuse s _

theorem ownLegCancelConnect_keeps (n : Nat) (s : State) : Keeps s (ownLegCancelConnect n s).state :=
  Keeps.withLeg fun l => Keeps.iteHandled (fun _ => (Keeps.refl s).cancelConnect l) fun _ => Keeps.refuse s _

theorem ownLegClose_keeps (n : Nat) (s : State) : Keeps s (ownLegClose n s).state :=
  Keeps.withLeg fun l => Keeps.ite (Keeps.refl s) (((Keeps.refl s).closeLeg l).topUpPass.finish s)

theorem ownLegStatus_keeps (n : Nat) (s : State) : Keeps s (ownLegStatus n s).state := Keeps.withLeg fun _ => Keeps.refl s

theorem ownEcConfig_keeps (f : EcFields) (s : State) : Keeps s (ownEcConfig f s).state := by
  have decided : ∀ l action delay, Keeps s (ownEcConfig.decide' f s l action delay).state := fun l action delay => by
    unfold ownEcConfig.decide'
    exact Keeps.iteHandled (fun _ => Keeps.refuse s _) fun busy => Keeps.iteHandled (fun _ => Keeps.refuse s _) fun _ =>
      (Keeps.refl s).ecConfigure _ _ _ _ busy
  unfold ownEcConfig
  split
  · split
    · exact Keeps.refuse s _
    · exact decided _ _ _
    · exact decided _ _ _
  · exact Keeps.refuse s _

theorem ownPlanSet_keeps (f : PlanFields) (s : State) : Keeps s (ownPlanSet f s).state := by
  unfold ownPlanSet
  split
  · exact Keeps.iteHandled (fun _ => Keeps.refuse s _) fun _ => (Keeps.refl s).setPlan _ _
  · exact Keeps.refuse s _

theorem ownPlanDelete_keeps (n : Nat) (s : State) : Keeps s (ownPlanDelete n s).state :=
  Keeps.withPlan fun i => Keeps.iteHandled (fun _ => Keeps.refl s) fun _ => Keeps.iteHandled (fun _ => Keeps.refuse s _) fun _ =>
    (Keeps.refl s).modPlan i fun _ => Plan.reset

theorem ownPlanInfo_keeps (n : Nat) (s : State) : Keeps s (ownPlanInfo n s).state := Keeps.withPlan fun _ => Keeps.refl s

theorem ownWhisperPrompt_keeps (f : PromptFields) (s : State) : Keeps s (ownWhisperPrompt f s).state := by
  unfold ownWhisperPrompt
  split
  · exact Keeps.iteHandled (fun _ => Keeps.refuse s _) fun _ => Keeps.iteHandled (fun _ => Keeps.refuse s _) fun _ =>
      (Keeps.refl s).appendPrompt _ _
  · exact Keeps.refuse s _

theorem ownWhisperFlush_keeps (n : Nat) (s : State) : Keeps s (ownWhisperFlush n s).state :=
  Keeps.withPosition fun p => (Keeps.refl s).flushPrompts p

theorem ownSupervise_keeps (f : SuperviseFields) (s : State) : Keeps s (ownSupervise f s).state := by
  have r := Keeps.refl s
  unfold ownSupervise
  split
  · split
    · exact Keeps.iteHandled (fun _ => Keeps.iteHandled (fun _ => r) fun _ => r.setSupervision _ _ _ _) fun _ => Keeps.refuse s _
    · exact Keeps.iteHandled (fun _ => r.setSupervision _ _ _ _) fun _ => Keeps.refuse s _
  · exact Keeps.refuse s _

theorem ownSuperviseEnd_keeps (n : Nat) (s : State) : Keeps s (ownSuperviseEnd n s).state :=
  Keeps.withPosition fun q => Keeps.ite (((Keeps.refl s).endSupervision q).finish s) (Keeps.refl s)

end Sys2Proof.Machine
end

section
set_option Elab.async false
/-! ## What a chain of happenings does to the engines and to the memory's mode -/

namespace Sys2Proof.Machine

/-! ### Engines and the memory's mode under the operations of a happening -/

/-- The memory port stays in its mode, or releases the lines (R133). -/
def ModeKept (s t : State) : Prop := t.memory.mode = s.memory.mode ∨ (s.memory.mode = .releasing ∧ t.memory.mode = .released)

theorem ModeKept.trans {s t u : State} (a : ModeKept s t) (b : ModeKept t u) : ModeKept s u := by
  obtain a | ⟨a, a'⟩ := a
  · obtain b | ⟨b, b'⟩ := b
    · exact .inl (b.trans a)
    · exact .inr ⟨a.symm.trans b, b'⟩
  · obtain b | ⟨b, _⟩ := b
    · exact .inr ⟨a, b.trans a'⟩
    · exact nomatch a'.symm.trans b

/-- A port that is not releasing the lines stays in its mode. -/
theorem ModeKept.mode {s t : State} (h : ModeKept s t) (k : s.memory.mode ≠ .releasing) : t.memory.mode = s.memory.mode :=
  h.resolve_right fun r => k r.1

@[simp] theorem State.settlePort_engines (s : State) : s.settlePort.engines = s.engines := by
  obtain ⟨m, e, -⟩ | ⟨-, e⟩ := s.settlePort_cases <;> rw [e]
  rfl

@[simp] theorem State.settlePort_clips (s : State) : s.settlePort.clips = s.clips := by
  obtain ⟨m, e, -⟩ | ⟨-, e⟩ := s.settlePort_cases <;> rw [e]
  rfl

@[simp] theorem State.settlePort_arbiter (s : State) : s.settlePort.arbiter = s.arbiter := by
  obtain ⟨m, e, -⟩ | ⟨-, e⟩ := s.settlePort_cases <;> rw [e]
  rfl

theorem State.settlePort_mode (s : State) : ModeKept s s.settlePort := by
  obtain ⟨m, e, mode⟩ | ⟨releasing, e⟩ := s.settlePort_cases <;> rw [e]
  · exact .inl mode
  · exact .inr ⟨releasing, rfl⟩

@[simp] theorem State.queueUpdate_engines (s : State) (c : ClipId) : (s.queueUpdate c).engines = s.engines := by
  unfold State.queueUpdate
  split
  · rfl
  · exact State.settlePort_engines _

theorem State.queueUpdate_mode (s : State) (c : ClipId) : ModeKept s (s.queueUpdate c) := by
  unfold State.queueUpdate
  split
  · exact .inl rfl
  · exact State.settlePort_mode _

/-- A fetch request changes the memory port's record alone, and not its mode (R138). -/
theorem State.addFetch_memory (s : State) (e : EngId) : ∃ m, s.addFetch e = { s with memory := m } ∧ m.mode = s.memory.mode := by
  unfold State.addFetch
  split
  · exact ⟨_, rfl, rfl⟩
  · exact ⟨_, rfl, rfl⟩

@[simp] theorem State.issueFetch_engines (s : State) (e : EngId) : (s.issueFetch e).engines = s.engines := by
  obtain ⟨m, h, -⟩ := s.addFetch_memory e
  unfold State.issueFetch
  rw [State.settlePort_engines, h]

theorem State.issueFetch_mode (s : State) (e : EngId) : ModeKept s (s.issueFetch e) := by
  obtain ⟨m, h, mode⟩ := s.addFetch_memory e
  refine ModeKept.trans (.inl ?_) (State.settlePort_mode _)
  rw [h]
  exact mode

theorem State.clipReleased_engines (s : State) (c : ClipId) : (s.clipReleased c).engines = s.engines := by
  unfold State.clipReleased
  dsimp only
  split
  · exact State.queueUpdate_engines _ c
  · rfl

theorem State.clipReleased_mode (s : State) (c : ClipId) : ModeKept s (s.clipReleased c) := by
  unfold State.clipReleased
  dsimp only
  split
  · exact State.queueUpdate_mode (State.emptyClip _ c) c
  · exact .inl rfl

/-- An engine made FREE is the only engine changed (R141). -/
theorem State.freeOne_engines (s : State) (e : EngId) : (s.freeOne e).engines = tset s.engines e Engine.idle := by
  unfold State.freeOne
  dsimp only
  have cleared : ∀ o : Option Owner, (match o with
      | some o => (((s.withdrawFetch e).modEng e fun _ => Engine.idle).dropEngineFeeds e).clearBinding o e
      | none => ((s.withdrawFetch e).modEng e fun _ => Engine.idle).dropEngineFeeds e).engines = tset s.engines e Engine.idle :=
    fun o => by
      split
      · rename_i o
        obtain ⟨positions, plans, frame⟩ :=
          State.clearBinding_frame (((s.withdrawFetch e).modEng e fun _ => Engine.idle).dropEngineFeeds e) o e
        rw [frame]
        rfl
      · rfl
  split
  · exact (State.clipReleased_engines _ _).trans (cleared _)
  · exact cleared _

theorem State.freeOne_mode (s : State) (e : EngId) : ModeKept s (s.freeOne e) := by
  unfold State.freeOne
  dsimp only
  have cleared : ∀ o : Option Owner, ModeKept s (match o with
      | some o => (((s.withdrawFetch e).modEng e fun _ => Engine.idle).dropEngineFeeds e).clearBinding o e
      | none => ((s.withdrawFetch e).modEng e fun _ => Engine.idle).dropEngineFeeds e) :=
    fun o => by
      split
      · rename_i o
        obtain ⟨positions, plans, frame⟩ :=
          State.clearBinding_frame (((s.withdrawFetch e).modEng e fun _ => Engine.idle).dropEngineFeeds e) o e
        rw [frame]
        exact .inl rfl
      · exact .inl rfl
  split
  · exact (cleared _).trans (State.clipReleased_mode _ _)
  · exact cleared _

/-- What an owner records of a grant leaves alone. -/
theorem State.ownerGranted_frame (s : State) (o : Owner) (e : EngId) :
    ∃ positions legs plans, s.ownerGranted o e = { s with positions := positions, legs := legs, plans := plans } := by
  unfold State.ownerGranted
  split
  · exact ⟨_, _, _, rfl⟩
  · exact ⟨_, _, _, rfl⟩
  · exact ⟨_, _, _, rfl⟩

theorem State.grant_mode (s : State) (e : EngId) (w : WaitEntry) : ModeKept s (s.grant e w) := by
  unfold State.grant
  refine ModeKept.trans (.inl ?_) (State.issueFetch_mode _ e)
  obtain ⟨positions, legs, plans, frame⟩ := State.ownerGranted_frame _ w.owner e
  rw [frame]
  rfl

/-- What a session is told changes legs and reports alone. -/
theorem State.sessionTold_frame (s : State) (l : LegId) (o : EngineOutcome) :
    ∃ legs link, s.sessionTold l o = { s with legs := legs, link := link } := by
  unfold State.sessionTold
  split
  · exact ⟨_, _, rfl⟩
  · split
    · exact ⟨_, _, rfl⟩
    · dsimp only
      split
      · exact ⟨_, _, rfl⟩
      · exact ⟨_, _, rfl⟩

/-- The end of a whisper entry changes positions, legs and reports alone. -/
theorem runTask_whisperEnd_frame (s : State) (p : PosId) (o : WhisperOutcome) (cause : Option WhisperCause) :
    ∃ positions legs link, (runTask (.whisperEnd p o cause) s).1 = { s with positions := positions, legs := legs, link := link } := by
  simp only [runTask]
  split
  · exact ⟨_, _, _, rfl⟩
  · split
    · dsimp only
      split
      · exact ⟨_, _, _, rfl⟩
      · exact ⟨_, _, _, rfl⟩
    · dsimp only
      split
      · exact ⟨_, _, _, rfl⟩
      · exact ⟨_, _, _, rfl⟩

/-- What a happening does to the engines and to the memory's mode. -/
structure EnginesRun (s t : State) : Prop where
  mode : ModeKept s t
  free : s.arbiter.scanning = true → ∀ e, (s.eng e).state = .free → (t.eng e).state = .free

/-- A happening that leaves the engines and the memory alone. -/
theorem EnginesRun.of_same {s t : State} (engines : t.engines = s.engines) (memory : t.memory.mode = s.memory.mode) : EnginesRun s t :=
  ⟨.inl memory, fun _ e h => by rw [State.eng_congr engines]; exact h⟩

/-- During a scan no engine is granted, so that FREE engines stay FREE (R135, R143, R144). -/
theorem runTask_engines (x : Task) (s : State) : EnginesRun s (runTask x s).1 := by
  have same : ∀ {t : State}, t = s → EnginesRun s t := fun h => h ▸ .of_same rfl rfl
  cases x with
  | release e o =>
    simp only [runTask]
    split
    · exact same rfl
    · refine ⟨s.freeOne_mode e, fun _ d h => ?_⟩
      rw [State.eng, State.freeOne_engines, tget_tset_ite]
      split
      · rfl
      · exact h
  | stop e o =>
    simp only [runTask]
    split
    · exact same rfl
    · rename_i playing
      split
      · refine ⟨.inl rfl, fun _ d h => ?_⟩
        have other : e ≠ d := fun k => nomatch (k ▸ playing).symm.trans h
        exact (congrArg Engine.state (State.eng_modEng_ne (s.withdrawFetch e) e d _ other)).trans h
      · exact same rfl
    · exact same rfl
    · exact same rfl
  | offer e was =>
    simp only [runTask]
    split
    · split <;> exact .of_same rfl rfl
    · exact same rfl
  | heads e =>
    simp only [runTask]
    split
    · exact same rfl
    · rename_i open'
      split
      · exact same rfl
      · split
        · dsimp only
          refine ⟨ModeKept.trans ?_ (State.grant_mode _ _ _), fun scanning => absurd (.inl scanning) open'⟩
          exact .inl rfl
        · exact .of_same rfl rfl
  | request w =>
    simp only [runTask]
    split <;> exact .of_same rfl rfl
  | take w =>
    simp only [runTask]
    split
    · exact .of_same rfl rfl
    · rename_i idle
      split
      · split
        · exact ⟨State.grant_mode _ _ _, fun scanning => absurd scanning idle⟩
        · exact same rfl
      · exact .of_same rfl rfl
  | tell o out =>
    simp only [runTask]
    split
    · exact same rfl
    · obtain ⟨legs, link, frame⟩ := s.sessionTold_frame _ out
      rw [frame]
      exact .of_same rfl rfl
    · dsimp only
      split <;> exact .of_same rfl rfl
  | whisperEnd p o cause =>
    obtain ⟨positions, legs, link, frame⟩ := runTask_whisperEnd_frame s p o cause
    rw [frame]
    exact .of_same rfl rfl
  | whisperNext p =>
    simp only [runTask]
    split
    · exact same rfl
    · split
      · split <;> exact .of_same rfl rfl
      · exact same rfl
  | legActive l p => exact .of_same rfl rfl
  | sessionEnd l capture =>
    simp only [runTask]
    split
    · exact same rfl
    · split
      · exact .of_same rfl rfl
      · split <;> exact .of_same rfl rfl
  | planFall h =>
    simp only [runTask]
    split <;> exact .of_same rfl rfl
  | report b => exact .of_same rfl rfl

/-- During a scan FREE engines stay FREE through a chain of happenings. -/
theorem drive_free {s : State} (n : Nat) (ts : List Task) (scanning : s.arbiter.scanning = true) {e : EngId}
    (h : (s.eng e).state = .free) : ((drive n ts s).eng e).state = .free :=
  (drive_kept (fun u => u.arbiter.scanning = true ∧ (u.eng e).state = .free)
    (fun x u k => ⟨(Outside.runTask x u).scanning.trans k.1, (runTask_engines x u).free k.1 e k.2⟩) n ts s ⟨scanning, h⟩).2

theorem State.run_mode (s : State) (ts : List Task) : ModeKept s (s.run ts) :=
  s.run_kept (ModeKept s) (fun x u k => k.trans (runTask_engines x u).mode) ts (.inl rfl)

/-- An engine whose release is run during a scan is FREE (R135). -/
theorem State.run_release_free {s : State} (scanning : s.arbiter.scanning = true) (e : EngId) (o : Option EngineOutcome) :
    ((s.run [.release e o]).eng e).state = .free := by
  have first : (((runTask (.release e o) s).1).eng e).state = .free := by
    simp only [runTask]
    split
    · assumption
    · rw [State.eng, State.freeOne_engines, tget_tset_same]
      rfl
  show ((drive (4095 + 1) [.release e o] s).eng e).state = .free
  rw [drive]
  exact drive_free 4095 _ ((Outside.runTask (.release e o) s).scanning.trans scanning) first

/-- With the arbiter as in SCANNING, a reclaim's releases leave every engine FREE (R135). -/
theorem State.releaseAll_free {s : State} (scanning : s.arbiter.scanning = true) (o : EngineOutcome) (e : EngId) :
    ((s.releaseAll o).eng e).state = .free := by
  have fold : ∀ (es : List EngId) (t : State), t.arbiter.scanning = true → ((t.eng e).state = .free ∨ e ∈ es) →
      (((es.foldl (fun t e => t.run [.release e (some o)]) t)).eng e).state = .free := by
    intro es
    induction es with
    | nil => exact fun t _ h => h.resolve_right (by simp)
    | cons d es ih =>
      intro t scanning h
      refine ih _ ((Outside.run (Outside.refl t) _).scanning.trans scanning) ?_
      obtain h | h := h
      · exact .inl (drive_free _ _ scanning h)
      · obtain rfl | h := List.mem_cons.1 h
        · exact .inl (State.run_release_free scanning e _)
        · exact .inr h
  exact fold _ s scanning (.inr (List.mem_finRange e))

end Sys2Proof.Machine
end

section
set_option Elab.async false
/-! ## What the clip store, the memory port and the directory scan keep (chapter 6) -/

namespace Sys2Proof.Machine

/-! ### The directory's law at a write's beginning and end -/

/-- A clip that no engine may be on has no engine. -/
theorem DirectoryLaw.unused {s : State} (h : DirectoryLaw s) {c : ClipId} (state : (s.clip c).state ≠ .ready ∧ (s.clip c).state ≠ .retiring) :
    (s.clip c).useCount = 0 := by
  by_contra used
  obtain k | k := h.inUse c (Nat.pos_of_ne_zero used)
  · exact state.1 k
  · exact state.2 k

/-- A write that ends leaves its clip READY or DAMAGED on the slabs it was written on (R126). -/
theorem DirectoryLaw.finishWrite {s : State} (h : DirectoryLaw s) {c : ClipId} (writing : s.write.clip = some c) {state : ClipState}
    (ends : state = .ready ∨ state = .damaged) (sum : BitVec 32) :
    DirectoryLaw ({ s with write := .empty }.modClip c fun x => { x with state := state, sum := sum }) := by
  have was : (s.clip c).state = .writing := (h.writing c).2 writing
  have unused := h.unused (c := c) (by simp [was])
  refine h.replaceClip (c := c) rfl rfl rfl rfl rfl rfl (fun k => absurd k (by rw [← unused]; exact lt_irrefl _)) ?_ (fun d hd => ?_)
    (fun _ => rfl) ?_ h.rising (fun _ => List.Perm.refl _) fun _ => .inl rfl
  · obtain rfl | rfl := ends <;> exact ⟨nofun, nofun⟩
  · rw [writing]
    exact ⟨nofun, fun k => absurd (Option.some.inj k).symm hd⟩
  · obtain rfl | rfl := ends <;> nofun

/-- A write that begins takes free slabs for its clip (R123). -/
theorem DirectoryLaw.createClip {s : State} (h : DirectoryLaw s) {c : ClipId} (owned : s.memory.mode = .owned)
    (idle : s.write.clip = none) (state : (s.clip c).state = .empty) (n length : Nat) (loopStart : Option Nat) :
    DirectoryLaw ({ s with freeSlabs := s.freeSlabs.drop n, write := { WriteContext.empty with clip := some c } }.modClip c fun _ =>
      ⟨.writing, length, loopStart, s.freeSlabs.take n, 0, 0⟩) := by
  have unused := h.unused (c := c) (by simp [state])
  refine h.replaceClip (c := c) rfl rfl rfl rfl rfl unused.symm (fun k => absurd k (lt_irrefl _)) ⟨fun _ => rfl, fun _ => rfl⟩
    (fun d hd => ?_) (fun k => absurd owned k) nofun (h.rising.sublist (List.drop_sublist n _)) (fun _ => ?_)
    (fun k => nomatch owned.symm.trans k)
  · rw [idle]
    exact ⟨fun k => absurd (Option.some.inj k).symm hd, nofun⟩
  · rw [h.empty c state, List.append_nil]
    exact List.perm_append_comm.trans (.of_eq (List.take_append_drop n s.freeSlabs))

/-- A READY clip with engines becomes RETIRING (R127). -/
theorem DirectoryLaw.retire {s : State} (h : DirectoryLaw s) {c : ClipId} (state : (s.clip c).state = .ready) :
    DirectoryLaw (s.modClip c fun x => { x with state := .retiring }) := by
  refine h.replaceClip (c := c) rfl rfl rfl rfl rfl rfl (fun _ => .inr rfl) ⟨nofun, fun k => ?_⟩ (fun _ _ => Iff.rfl) h.away nofun
    h.rising (fun _ => List.Perm.refl _) fun _ => .inl rfl
  exact nomatch state.symm.trans ((h.writing c).2 k)

/-! ### The directory's law in a scan -/

/-- The entry that the scan reads next becomes the working one (R136). -/
theorem DirectoryLaw.scanned {s t : State} (h : DirectoryLaw s) (scanning : s.memory.mode = .scanning) {c : ClipId}
    (next : c.val = s.scan.next) {x : Clip} (clips : t.clips = tset s.clips c x) (engines : t.engines = s.engines)
    (freeSlabs : t.freeSlabs = s.freeSlabs) (write : t.write.clip = s.write.clip) (mode : t.memory.mode = s.memory.mode)
    (arbiter : t.arbiter.scanning = s.arbiter.scanning) (scan : t.scan.next = s.scan.next + 1) (useCount : x.useCount = 0)
    (state : x.state ≠ .writing) (empty : x.state = .empty → x.slabs = [])
    (slabs : x.slabs.Nodup ∧ ∀ n ∈ x.slabs, (4 ≤ n ∧ n < 1024) ∧ n ∉ s.slabsBelow c.val) : DirectoryLaw t := by
  obtain ⟨arbiterScanning, free⟩ := h.scanning scanning
  have none : s.write.clip = none := h.away (by rw [scanning]; nofun)
  have here : t.clip c = x := by rw [State.clip, clips, tget_tset_same]
  have there : ∀ d, d ≠ c → t.clip d = s.clip d := fun d hd => by
    rw [State.clip, clips, tget_tset_ne _ _ _ _ (Ne.symm hd), State.clip]
  have on : ∀ d, t.enginesOn d = 0 := fun d => by
    rw [State.enginesOn_congr (s := s) (fun e b => by rw [State.eng_congr engines e]) d, State.enginesOn]
    simp [free]
  have counts : ∀ d, (t.clip d).useCount = 0 := fun d => by
    by_cases same : d = c
    · rw [same, here, useCount]
    · rw [there d same]
      have was : (s.clip d).useCount = s.enginesOn d := h.useCount d
      rw [was, State.enginesOn]
      simp [free]
  constructor
  case useCount => exact fun d => (counts d).trans (on d).symm
  case inUse => exact fun d k => absurd k (by rw [counts]; exact lt_irrefl _)
  case writing =>
    intro d
    rw [write, none]
    refine ⟨fun k => ?_, nofun⟩
    by_cases same : d = c
    · rw [same, here] at k
      exact absurd k state
    · rw [there d same] at k
      exact nomatch none.symm.trans ((h.writing d).1 k)
  case away => exact fun _ => by rw [write, none]
  case scanning => exact fun _ => ⟨by rw [arbiter]; exact arbiterScanning, fun e => by rw [State.eng_congr engines e]; exact free e⟩
  case empty =>
    intro d
    by_cases same : d = c
    · rw [same, here]
      exact empty
    · rw [there d same]
      exact h.empty d
  case rising => rw [freeSlabs]; exact h.rising
  case slabs => exact fun k => absurd (mode.trans scanning) k
  case found =>
    intro _
    have below : t.slabsBelow c.val = s.slabsBelow c.val :=
      State.slabsBelow_congr fun d less => by rw [there d (fun e => absurd less (e ▸ lt_irrefl _))]
    obtain ⟨once, range⟩ := h.found scanning
    rw [← next] at once range
    have split := t.slabsBelow_succ c
    rw [below, here] at split
    rw [scan, ← next]
    refine ⟨split.nodup_iff.2 (List.nodup_append.2 ⟨once, slabs.1, ?_⟩), fun n hn => ?_⟩
    · rintro n hn _ hn' rfl
      exact (slabs.2 n hn').2 hn
    · obtain hn | hn := List.mem_append.1 (split.subset hn)
      · exact range n hn
      · exact (slabs.2 n hn).1

theorem State.keptBelow_iff (s : State) (n slab : Nat) : s.keptBelow n slab = true ↔ slab ∈ s.slabsBelow n := by
  rw [State.mem_slabsBelow]
  simp [State.keptBelow]

theorem distinct_iff_nodup (l : List Nat) : distinct l = true ↔ l.Nodup := by
  induction l with
  | nil => simp [distinct]
  | cons x xs ih => simp [distinct, ih]

/-- What is read of a good entry: READY or DAMAGED, no engine, its slabs data slabs (R136). -/
theorem readEntry_good {bytes : List Byte} {c : Clip} (h : readEntry bytes = .good c) :
    (c.state = .ready ∨ c.state = .damaged) ∧ c.useCount = 0 ∧ ∀ n ∈ c.slabs, 4 ≤ n ∧ n < 1024 := by
  have judged : ∀ state, (state = .ready ∨ state = .damaged) →
      (if inRanges bytes (storedClip bytes state) then Stored.good (storedClip bytes state) else .bad) = .good c →
      (c.state = .ready ∨ c.state = .damaged) ∧ c.useCount = 0 ∧ ∀ n ∈ c.slabs, 4 ≤ n ∧ n < 1024 := by
    intro state hs k
    split at k
    · rename_i ranges
      obtain rfl := Stored.good.inj k
      refine ⟨hs, rfl, fun n hn => ?_⟩
      simp only [inRanges, Bool.and_eq_true, List.all_eq_true, decide_eq_true_eq] at ranges
      exact ranges.2 n hn
    · cases k
  unfold readEntry at h
  split at h
  · cases h
  · dsimp only at h
    split at h
    · exact judged .ready (.inl rfl) h
    · exact judged .damaged (.inr rfl) h
    · cases h

/-- The working entry and the counts that a scanned entry gives, and the report of a discarded one (R136). -/
theorem State.scanEntry_cases (s : State) (c : ClipId) (bytes : List Byte) :
    ∃ x scan link, s.scanEntry c bytes = { s with clips := tset s.clips c x, scan := scan, link := link } ∧
      KeepsLists s (s.scanEntry c bytes) ∧ scan.next = s.scan.next ∧
      (x = Clip.empty ∨ (readEntry bytes = .good x ∧ x.slabs.Nodup ∧ ∀ n ∈ x.slabs, n ∉ s.slabsBelow c.val)) := by
  have put := fun x => KeepsLists.modClip s c fun _ => x
  have discard := (((put Clip.empty).trans (KeepsLists.scan _ { s.scan with discarded := s.scan.discarded + 1 })).trans
    (KeepsLists.report _ (.clipState c .empty .discarded none)))
  unfold State.scanEntry
  dsimp only
  split
  · exact ⟨_, _, _, rfl, put _, rfl, .inl rfl⟩
  · exact ⟨_, _, _, rfl, discard, rfl, .inl rfl⟩
  · rename_i x good
    split
    · exact ⟨_, _, _, rfl, discard, rfl, .inl rfl⟩
    · rename_i own
      rw [not_or, Bool.not_eq_false, distinct_iff_nodup] at own
      have fresh : ∀ n ∈ x.slabs, n ∉ s.slabsBelow c.val := fun n hn k =>
        own.2 (List.any_eq_true.2 ⟨n, hn, (s.keptBelow_iff c.val n).2 k⟩)
      split
      · exact ⟨_, _, _, rfl, (put x).trans (KeepsLists.scan _ _), rfl, .inr ⟨good, own.1, fresh⟩⟩
      · exact ⟨_, _, _, rfl, (put x).trans (KeepsLists.scan _ _), rfl, .inr ⟨good, own.1, fresh⟩⟩

theorem State.mem_unclaimed (s : State) (n : Nat) : n ∈ s.unclaimed ↔ (4 ≤ n ∧ n < 1024) ∧ n ∉ s.slabsBelow 256 := by
  unfold State.unclaimed
  rw [List.mem_filter, List.mem_map, Bool.not_eq_true', ← Bool.not_eq_true, s.keptBelow_iff]
  refine and_congr_left fun _ => ⟨fun ⟨k, hk, e⟩ => ?_, fun h => ⟨n - 4, ?_, by omega⟩⟩
  · have := List.mem_range.1 hk
    omega
  · rw [List.mem_range]
    omega

/-- The scan completed: the memory is owned, and the free slabs are those that no entry holds (R135, R136). -/
theorem DirectoryLaw.scanDone {s t : State} (h : DirectoryLaw s) (scanning : s.memory.mode = .scanning) (next : s.scan.next = 256)
    (clips : t.clips = s.clips) (engines : t.engines = s.engines) (write : t.write.clip = s.write.clip)
    (freeSlabs : t.freeSlabs = s.unclaimed) (mode : t.memory.mode = .owned) : DirectoryLaw t := by
  have clip : ∀ c, t.clip c = s.clip c := State.clip_congr clips
  have below : t.slabsBelow 256 = s.slabsBelow 256 := State.slabsBelow_congr fun c _ => by rw [clip]
  have nodup : s.unclaimed.Nodup := dataSlabs_nodup.filter _
  constructor
  case useCount =>
    intro c
    rw [clip]
    exact (h.useCount c).trans (State.enginesOn_congr (fun e d => by rw [State.eng_congr engines e]) c).symm
  case inUse => exact fun c => by rw [clip]; exact h.inUse c
  case writing => exact fun c => by rw [clip, write]; exact h.writing c
  case away => exact fun k => absurd mode k
  case scanning => exact fun k => nomatch mode.symm.trans k
  case empty => exact fun c => by rw [clip]; exact h.empty c
  case rising =>
    rw [freeSlabs]
    refine List.Pairwise.filter _ ((List.pairwise_map.2 ?_))
    exact List.pairwise_lt_range.imp fun k => Nat.add_lt_add_right k 4
  case slabs =>
    intro _
    obtain ⟨once, range⟩ := h.found scanning
    rw [next] at once range
    rw [freeSlabs, below]
    refine (List.perm_ext_iff_of_nodup (List.nodup_append.2 ⟨nodup, once, ?_⟩) dataSlabs_nodup).2 fun n => ?_
    · rintro n hn _ hn' rfl
      exact ((s.mem_unclaimed n).1 hn).2 hn'
    · rw [List.mem_append, s.mem_unclaimed, List.mem_map]
      constructor
      · intro k
        have bounds : 4 ≤ n ∧ n < 1024 := k.elim (fun k => k.1) (range n)
        exact ⟨n - 4, List.mem_range.2 (by omega), by omega⟩
      · rintro ⟨k, hk, rfl⟩
        have := List.mem_range.1 hk
        by_cases held : k + 4 ∈ s.slabsBelow 256
        · exact .inr held
        · exact .inl ⟨by omega, held⟩
  case found => exact fun k => nomatch mode.symm.trans k

/-! ### The requests of the clip store -/

namespace Keeps

variable {s t : State}

theorem settled (h : Keeps s t) : Keeps s t.settlePort := h.settlePort

theorem writeSame (h : Keeps s t) (w : WriteContext) (clip : w.clip = t.write.clip) : Keeps s { t with write := w } :=
  h.trans ⟨KeepsLists.write t w, fun d => d.of_fields (write := clip)⟩

theorem flashImage (h : Keeps s t) (m : List Host.Cell) (k : Memory.wf t.flash = true → Memory.wf m = true) :
    Keeps s { t with flash := m } :=
  h.trans ⟨KeepsLists.flashImage t m k, fun d => d.of_fields⟩

theorem judgePlansOn (h : Keeps s t) (c : ClipId) : Keeps s (t.judgePlansOn c) :=
  h.foldl _ (fun t i => by
    split
    · exact ite ((refl t).judgeStream i) (refl t)
    · exact refl t) _

theorem finishWrite (h : Keeps s t) : Keeps s t.finishWrite := by
  unfold State.finishWrite
  split
  · rename_i c given writing closing
    split
    · have ends : (if t.write.sum = given then ClipState.ready else .damaged) = .ready ∨
          (if t.write.sum = given then ClipState.ready else .damaged) = .damaged := ite_eq_or_eq _ _ _
      have ended := fun state ends => h.trans (u := { t with write := .empty }.modClip c fun x =>
        { x with state := state, sum := t.write.sum })
          ⟨(KeepsLists.write t _).trans (KeepsLists.modClip _ c _), fun d => d.finishWrite writing ends _⟩
      dsimp only
      generalize (if t.write.sum = given then ClipState.ready else ClipState.damaged) = state at ends ⊢
      have reported := ((ended state ends).queueUpdate c).report (.clipState c state .closed (some t.write.sum))
      exact ite ((reported.judgePlansOn c).finish t) reported
    · exact h
  · exact h

theorem abandonErase_frame (s : State) : ∃ flash ops, s.abandonErase = { s with flash := flash, unfinishedOps := ops } ∧
    (Memory.wf s.flash = true → Memory.wf flash = true) := by
  obtain ⟨_, e⟩ | ⟨slab, _, e⟩ := s.abandonErase_cases
  · exact ⟨_, _, e, id⟩
  · exact ⟨_, _, e, flashFill_wf _ _ _⟩

/-- An abandoned write leaves the write context empty. -/
theorem abandonWrite_write (s : State) : s.abandonWrite.write.clip = none := by
  unfold State.abandonWrite
  split
  · assumption
  · rfl

theorem abandonWrite (h : Keeps s t) : Keeps s t.abandonWrite := by
  unfold State.abandonWrite
  split
  · exact h
  · rename_i c writing
    obtain ⟨flash, ops, e, wf⟩ := abandonErase_frame t
    rw [e]
    refine h.trans ⟨⟨rfl, rfl, id, id, id, wf, id, id⟩, fun d => ?_⟩
    have state : (t.clip c).state = .writing := (d.writing c).2 writing
    exact d.emptyClip (d.unused (by simp [state])) rfl rfl rfl rfl rfl rfl (.inr ⟨writing, rfl⟩)

theorem createClip (h : Keeps s t) {c : ClipId} (owned : t.memory.mode = .owned) (idle : t.write.clip = none)
    (state : (t.clip c).state = .empty) (length : Nat) (loopStart : Option Nat) : Keeps s (t.createClip c length loopStart) := by
  unfold State.createClip
  refine Keeps.settlePort (h.trans ⟨⟨rfl, rfl, id, id, id, id, id, id⟩, fun d => ?_⟩)
  exact d.createClip owned idle state _ length loopStart

theorem emptyClip (h : Keeps s t) {c : ClipId} (unused : DirectoryLaw t → (t.clip c).useCount = 0) (state : (t.clip c).state ≠ .writing) :
    Keeps s (t.emptyClip c) :=
  h.trans ⟨(KeepsLists.freeSlabs t _).trans (KeepsLists.modClip _ c _), fun d => d.emptyClip_of_not_writing (unused d) state⟩

theorem deleteClip (h : Keeps s t) (c : ClipId) : Keeps s (t.deleteClip c) := by
  unfold State.deleteClip
  split
  · exact h
  · exact h.abandonWrite.settlePort
  · rename_i ready
    split
    · rename_i unused
      exact (h.emptyClip (fun _ => unused) (by simp [ready])).queueUpdate c
    · exact Keeps.queueUpdate (h.trans ⟨KeepsLists.modClip t c _, fun d => d.retire ready⟩) c
  · rename_i damaged
    exact (h.emptyClip (fun d => d.unused (by simp [damaged])) (by simp [damaged])).queueUpdate c
  · exact h

end Keeps

theorem Keeps.withClip {n : Nat} {s : State} {f : ClipId → Handled} (h : s.memory.mode = .owned → ∀ c, Keeps s (f c).state) :
    Keeps s (withClip n s f).state := by
  unfold Machine.withClip
  split
  · exact Keeps.iteHandled (fun _ => Keeps.refuse s _) fun owned => h (by simpa [State.memoryAway] using owned) _
  · exact Keeps.refuse s _

theorem ownClipCreate_keeps (f : CreateFields) (s : State) : Keeps s (ownClipCreate f s).state := by
  have refused := Keeps.refuse s
  exact Keeps.withClip fun owned c => Keeps.iteHandled (fun _ => refused _) fun idle => Keeps.iteHandled (fun _ => refused _)
    fun empty => Keeps.iteHandled (fun _ => refused _) fun _ => Keeps.iteHandled (fun _ => refused _) fun _ =>
      (Keeps.refl s).createClip owned (not_not.1 idle) (not_not.1 empty) _ _

theorem ownClipData_keeps (f : DataFields) (s : State) : Keeps s (ownClipData f s).state := by
  have refused := Keeps.refuse s
  exact Keeps.withClip fun _ c => Keeps.iteHandled (fun _ => refused _) fun _ => Keeps.iteHandled (fun _ => refused _)
    fun _ => Keeps.iteHandled (fun _ => refused _) fun _ => Keeps.iteHandled (fun _ => refused _) fun _ =>
      Keeps.iteHandled (fun _ => refused _) fun _ => by
        unfold State.acceptData
        exact ((Keeps.refl s).writeSame { s.write with
          buffer := s.write.buffer ++ [f.samples], expected := s.write.expected + f.samples.length } rfl).settlePort

theorem ownClipClose_keeps (f : CloseFields) (s : State) : Keeps s (ownClipClose f s).state := by
  have refused := Keeps.refuse s
  exact Keeps.withClip fun _ c => Keeps.iteHandled (fun _ => refused _) fun _ => Keeps.iteHandled (fun _ => refused _) fun _ =>
    ((Keeps.refl s).writeSame { s.write with closing := some (BitVec.ofNat 32 f.sum) } rfl).finishWrite

theorem ownClipDelete_keeps (n : Nat) (s : State) : Keeps s (ownClipDelete n s).state :=
  Keeps.withClip fun _ c => (Keeps.refl s).deleteClip c

theorem ownClipInfo_keeps (n : Nat) (s : State) : Keeps s (ownClipInfo n s).state := by
  unfold ownClipInfo
  split
  · exact Keeps.iteHandled (fun _ => Keeps.refuse s _) fun _ => Keeps.refl s
  · exact Keeps.refuse s _

end Sys2Proof.Machine
end

section
set_option Elab.async false
/-! ## What the memory port's completions, its release and reclaim, the scan, the engines and the mixes keep (chapters 2, 3 and 6) -/

namespace Sys2Proof.Machine

/-! ### The directory's law at the ends of a mode -/

/-- A scan that begins finds every engine FREE and no write standing (R135). -/
theorem DirectoryLaw.scanBegins {s t : State} (h : DirectoryLaw s) (idle : s.write.clip = none) (clips : t.clips = s.clips)
    (engines : t.engines = s.engines) (freeSlabs : t.freeSlabs = s.freeSlabs) (write : t.write.clip = s.write.clip)
    (mode : t.memory.mode = .scanning) (scanning : t.arbiter.scanning = true) (free : ∀ e, (t.eng e).state = .free)
    (start : t.scan.next = 0) : DirectoryLaw t := by
  have clip : ∀ c, t.clip c = s.clip c := State.clip_congr clips
  constructor
  case useCount =>
    intro c
    rw [clip]
    exact (h.useCount c).trans (State.enginesOn_congr (fun e d => by rw [State.eng_congr engines e]) c).symm
  case inUse => exact fun c => by rw [clip]; exact h.inUse c
  case writing => exact fun c => by rw [clip, write]; exact h.writing c
  case away => exact fun _ => write.trans idle
  case scanning => exact fun _ => ⟨scanning, free⟩
  case empty => exact fun c => by rw [clip]; exact h.empty c
  case rising => rw [freeSlabs]; exact h.rising
  case slabs => exact fun k => absurd mode k
  case found =>
    intro _
    have none : t.slabsBelow t.scan.next = [] := by simp [State.slabsBelow, start]
    rw [none]
    exact ⟨List.nodup_nil, fun _ k => absurd k List.not_mem_nil⟩

/-- Outside a scan the arbiter's own mode is free. -/
theorem DirectoryLaw.setArbiter {s : State} (h : DirectoryLaw s) (k : s.memory.mode ≠ .scanning) (a : Arbiter) :
    DirectoryLaw { s with arbiter := a } :=
  h.setMode rfl rfl rfl rfl k k h.away

/-! ### The memory port's mode through chains of happenings -/

theorem ModeKept.ite {c : Prop} [Decidable c] {s t u : State} (h : ModeKept s t) (k : ModeKept s u) : ModeKept s (if c then t else u) := by
  split
  · exact h
  · exact k

theorem State.judgeStream_mode (s : State) (i : PlanId) : ModeKept s (s.judgeStream i) := by
  unfold State.judgeStream
  split
  · exact .inl rfl
  · split
    · exact .inl rfl
    · exact .inl rfl
    · exact ModeKept.ite (State.run_mode (s.modPlan i fun x => { x with pending := true }) _) (.inl rfl)

theorem ModeKept.foldl {α : Type} {f : State → α → State} (k : ∀ t x, ModeKept t (f t x)) {s t : State} (h : ModeKept s t) (xs : List α) :
    ModeKept s (xs.foldl f t) := by
  induction xs generalizing t with
  | nil => exact h
  | cons x xs ih => exact ih (h.trans (k t x))

theorem State.releaseAll_mode (s : State) (o : EngineOutcome) : ModeKept s (s.releaseAll o) :=
  ModeKept.foldl (fun t _ => t.run_mode _) (.inl rfl) _

theorem State.releaseAll_scanning (s : State) (o : EngineOutcome) : (s.releaseAll o).arbiter.scanning = s.arbiter.scanning := by
  unfold State.releaseAll
  generalize List.finRange 24 = es
  induction es generalizing s with
  | nil => rfl
  | cons e es ih => exact (ih _).trans (Outside.run (Outside.refl s) _).scanning

namespace Keeps

variable {s t : State}

/-! ### The memory port's completions -/

theorem endOp (h : Keeps s t) : Keeps s t.endOp := h.memory _

theorem programComplete (h : Keeps s t) (found : Option (List Sample)) : Keeps s (t.programComplete found) := by
  unfold State.programComplete
  split
  · rename_i slab offset samples stands _
    dsimp only
    have read := h.endOp.flashImage (flashWriteBytes t.endOp.flash (slab * Config.slabBytes + offset * 2) (sampleBytes (found.getD samples)))
      (flashWriteBytes_wf _ _ _)
    refine Keeps.settlePort (ite ?_ read)
    exact (read.writeSame (t.write.programBlock samples.length (found.getD samples)) rfl).finishWrite
  · exact h

theorem eraseComplete (h : Keeps s t) : Keeps s t.eraseComplete := by
  unfold State.eraseComplete
  split
  · rename_i slab _
    exact ((h.endOp.flashImage (flashErase t.flash slab) (flashErase_wf _ _)).writeSame
      { t.write with erased := t.write.erased + 1 } rfl).settlePort
  · exact h

theorem updateComplete (h : Keeps s t) : Keeps s t.updateComplete := by
  unfold State.updateComplete
  split
  · rename_i c image _
    exact (h.endOp.flashImage (flashWriteBytes t.flash (Config.entryStride * c.val) image) (flashWriteBytes_wf _ _ _)).settlePort
  · exact h

theorem beginWhisper (h : Keeps s t) (e : EngId) : Keeps s (t.beginWhisper e) := by
  unfold State.beginWhisper
  split
  · exact ite (h.modWhisper _ _) h
  · exact h

theorem startPlaying (h : Keeps s t) (before : State) (e : EngId) : Keeps s (t.startPlaying before e) := by
  unfold State.startPlaying
  split
  · rename_i primed
    refine ((h.modEng e ?_ rfl).beginWhisper e).finish before
    exact ⟨nofun, fun k => nomatch primed.1.symm.trans k⟩
  · exact h

theorem fetchComplete (h : Keeps s t) (found : Option (List Sample)) : Keeps s (t.fetchComplete found) := by
  unfold State.fetchComplete
  split
  · refine Keeps.settlePort ?_
    split
    · refine ite ?_ h.endOp
      exact ((h.endOp.modEng _ Iff.rfl rfl).startPlaying t _).addFetch _
    · exact h.endOp
  · exact h

/-! ### Release, reclaim and scan -/

theorem scanEntry (h : Keeps s t) {c : ClipId} (bytes : List Byte) (scanning : t.memory.mode = .scanning) (next : c.val = t.scan.next) :
    Keeps s { t.scanEntry c bytes with scan := { (t.scanEntry c bytes).scan with next := t.scan.next + 1 } } := by
  obtain ⟨x, scan, link, e, lists, _, found⟩ := t.scanEntry_cases c bytes
  refine h.trans ⟨lists.trans (KeepsLists.scan _ _), fun d => ?_⟩
  rw [e]
  obtain rfl | ⟨good, once, fresh⟩ := found
  · exact d.scanned scanning next rfl rfl rfl rfl rfl rfl rfl rfl nofun (fun _ => rfl) ⟨List.nodup_nil, nofun⟩
  · obtain ⟨state, unused, range⟩ := readEntry_good good
    refine d.scanned scanning next rfl rfl rfl rfl rfl rfl rfl unused ?_ ?_ ⟨once, fun n hn => ⟨range n hn, fresh n hn⟩⟩
    · obtain k | k := state <;> simp [k]
    · obtain k | k := state <;> simp [k]

theorem scanDone (h : Keeps s t) (scanning : t.memory.mode = .scanning) (next : t.scan.next = 256) (before : State) :
    Keeps s (t.scanDone before) := by
  unfold State.scanDone
  extract_lets port owned judged arbiter grants heads
  have first : Keeps s owned ∧ owned.memory.mode = .owned := by
    have lists : KeepsLists t owned :=
      ((KeepsLists.memory t { t.memory with mode := .owned }).trans (KeepsLists.freeSlabs _ t.unclaimed)).trans (KeepsLists.report _ _)
    refine ⟨h.trans ⟨lists, fun d => ?_⟩, by simp [owned]⟩
    refine d.scanDone scanning next ?_ ?_ ?_ ?_ ?_ <;> simp [owned, port]
  clear_value owned
  obtain ⟨first, mode⟩ := first
  have streams : Keeps s judged ∧ judged.memory.mode = .owned := by
    have kept : ModeKept owned judged := ModeKept.foldl (fun u i => u.judgeStream_mode i) (.inl rfl) _
    exact ⟨first.foldl _ (fun u i => (refl u).judgeStream i) _, (kept.mode (by simp [mode])).trans mode⟩
  clear_value judged
  obtain ⟨streams, mode⟩ := streams
  have granting : Keeps s grants := streams.trans ⟨KeepsLists.arbiter _ _ id, fun d => d.setArbiter (by simp [mode]) _⟩
  clear_value grants
  exact ((granting.foldl _ (fun u e => (refl u).run [.heads e]) _).settlePort).finish before

/-- The scan's step once the bytes of the next entry are known (R136). -/
theorem scanNext (h : Keeps s t) {c : ClipId} (bytes : List Byte) (scanning : t.memory.mode = .scanning) (next : c.val = t.scan.next)
    (before : State) : Keeps s
      (if t.scan.next + 1 < 256 then { t.scanEntry c bytes with scan := { (t.scanEntry c bytes).scan with next := t.scan.next + 1 } }
      else State.scanDone { t.scanEntry c bytes with scan := { (t.scanEntry c bytes).scan with next := t.scan.next + 1 } } before) := by
  have entry := h.scanEntry bytes scanning next
  split
  · exact entry
  · have bound := c.isLt
    refine entry.scanDone ?_ (show t.scan.next + 1 = 256 by omega) before
    obtain ⟨x, scan, link, e, _⟩ := t.scanEntry_cases c bytes
    rw [e]
    exact scanning

theorem scanRead (h : Keeps s t) (found : Option (List Byte)) : Keeps s (t.scanRead found) := by
  unfold State.scanRead
  split
  · rename_i scanning
    split
    · exact h
    · rename_i c next
      have place : c.val = t.scan.next := by
        unfold toId at next
        split at next
        · rw [← Option.some.inj next]
        · cases next
      cases found with
      | none => exact h.scanNext _ scanning place t
      | some bytes => exact (h.flashImage _ (flashWriteBytes_wf t.flash (Config.entryStride * c.val) bytes)).scanNext bytes scanning place t
  · exact h

theorem reclaim (h : Keeps s t) (released : t.memory.mode = .released) : Keeps s t.reclaim := by
  unfold State.reclaim
  extract_lets arbiter freed port
  have away : Keeps s { t with arbiter := { t.arbiter with scanning := true } } :=
    h.trans ⟨KeepsLists.arbiter t _ id, fun d => d.setArbiter (by simp [released]) _⟩
  have kept : Keeps s freed := away.releaseAll _
  have mode : freed.memory.mode = .released := by
    have kept : ModeKept { t with arbiter := { t.arbiter with scanning := true } } freed := State.releaseAll_mode _ _
    exact (kept.mode (fun k => nomatch released.symm.trans k)).trans released
  have scanning : freed.arbiter.scanning = true := by
    rw [State.releaseAll_scanning]
  have free : ∀ e, (freed.eng e).state = .free := State.releaseAll_free rfl _
  clear_value freed
  refine Keeps.finish ?_ t
  refine kept.trans ⟨⟨rfl, rfl, id, id, id, id, id, id⟩, fun d => ?_⟩
  exact d.scanBegins (d.away (by rw [mode]; nofun)) rfl rfl rfl rfl rfl scanning free rfl

/-! ### Engines -/

theorem putEngine (h : Keeps s t) (e : EngId) (b : Block) : Keeps s (t.putEngine e b) :=
  h.trans ⟨⟨rfl, rfl, id, id, id, id, id, id⟩, fun d => d.of_fields⟩

theorem playBlock (h : Keeps s t) (e : EngId) : Keeps s (t.playBlock e) := by
  unfold State.playBlock
  dsimp only
  split
  · exact ((h.putEngine e _).modEng e Iff.rfl rfl).issueFetch e
  · have silent := (h.putEngine e zeroBlock).modEng e (f := fun y => { y with underruns := sat16Count y.underruns 1 }) Iff.rfl rfl
    exact (ite (silent.report _) silent).issueFetch e

theorem engineBlock (h : Keeps s t) (e : EngId) : Keeps s (t.engineBlock e) := by
  have release : ∀ o, Keeps s (t.releaseEngine e o) := fun o => ((h.putEngine e _).run _).finish t
  have close : Keeps s (t.closingBlock e) := (h.putEngine e _).modEng e Iff.rfl rfl
  have fade : Keeps s (t.fadeOut e) := by
    unfold State.fadeOut
    exact (h.putEngine e _).modEng e Iff.rfl rfl
  unfold State.engineBlock
  dsimp only
  split
  · exact h.putEngine e _
  · exact h.putEngine e _
  · exact h.playBlock e
  · exact close
  · exact release _
  · exact fade
  · exact close
  · exact release _

end Keeps

/-! ### The mixes -/

theorem FeedListLaw.of_keys {l m : List Feed} (h : FeedListLaw l) (k : (m.map Feed.key).Sublist (l.map Feed.key)) : FeedListLaw m :=
  ⟨by simpa using k.length_le.trans (by simpa using h.1), h.2.sublist k⟩

/-- A ramp moves a feed's gain alone; a faded feed leaves (R61, R67). -/
theorem advanceLanes_keys (lanes : List Lane) :
    ((advanceLanes lanes).map fun x => x.feed.key).Sublist (lanes.map fun x => x.feed.key) := by
  induction lanes with
  | nil => exact .slnil
  | cons x lanes ih =>
    rw [advanceLanes, List.filterMap_cons]
    split
    · exact ih.cons _
    · rename_i y advanced
      have key : y.feed.key = x.feed.key := by
        unfold Lane.advance at advanced
        dsimp only at advanced
        split at advanced
        · cases advanced
        · rw [← Option.some.inj advanced]
          rfl
      rw [List.map_cons, List.map_cons, key]
      exact ih.cons_cons _

theorem mixRun_keys (n : Nat) (lanes : List Lane) :
    ((mixRun n lanes).2.map fun x => x.feed.key).Sublist (lanes.map fun x => x.feed.key) := by
  induction n generalizing lanes with
  | zero => exact List.Sublist.refl _
  | succ n ih => exact (ih _).trans (advanceLanes_keys lanes)

/-- The feeds after a block keep the law of the list that they are the rest of. -/
theorem mixRun_law {l : List Feed} (h : FeedListLaw l) (target : Feed → Nat) (block : Feed → Block) (n : Nat) :
    FeedListLaw ((mixRun n (l.map fun f => ⟨f, target f, block f⟩)).2.map Lane.feed) := by
  refine h.of_keys ?_
  have keys := mixRun_keys n (l.map fun f => (⟨f, target f, block f⟩ : Lane))
  rw [List.map_map] at keys ⊢
  exact keys

/-- The shock count stays within 16 bits (R71). -/
theorem EarWork.shocks_le (volume level release : Nat) (mix : Block) {w : EarWork} (h : w.limiter.shocks ≤ 65535) :
    (mix.foldl (EarWork.step volume level release) w).limiter.shocks ≤ 65535 := by
  induction mix generalizing w with
  | nil => exact h
  | cons m mix ih =>
    refine ih ?_
    unfold EarWork.step
    dsimp only
    split
    · exact sat16Count_le _ _
    · exact h

namespace Keeps

variable {s t : State}

theorem ears (h : Keeps s t) (p : PosId) (l : List Feed) (k : FeedListLaw (tget t.ears p) → FeedListLaw l) :
    Keeps s { t with ears := tset t.ears p l } := by
  refine h.trans ⟨⟨rfl, rfl, id, id, id, id, fun f => ⟨fun q => ?_, f.2⟩, id⟩, fun d => d.of_fields⟩
  show FeedListLaw (tget (tset t.ears p l) q)
  rw [tget_tset_ite]
  split
  · exact k (f.1 p)
  · exact f.1 q

theorem sends (h : Keeps s t) (i : LegId) (l : List Feed) (x : Highway) (k : FeedListLaw (tget t.sends i) → FeedListLaw l) :
    Keeps s { t with sends := tset t.sends i l, highway := x } := by
  refine h.trans ⟨⟨rfl, rfl, id, id, id, id, fun f => ⟨f.1, fun j => ?_⟩, id⟩, fun d => d.of_fields⟩
  show FeedListLaw (tget (tset t.sends i l) j)
  rw [tget_tset_ite]
  split
  · exact k (f.2 i)
  · exact f.2 j

theorem earBlock (h : Keeps s t) (p : PosId) : Keeps s (t.earBlock p) := by
  have fed := h.ears p ((mixRun Config.blockSamples (t.earLanes p)).2.map Lane.feed) fun law => mixRun_law law _ _ _
  unfold State.earBlock
  dsimp only
  refine ite ?_ (fed.modPos p)
  refine foldl _ (fun u k => (refl u).report _) (fed.modPosAt p ?_) _
  rintro ⟨uplink, downlink, parity, shocks⟩
  exact ⟨uplink, Elastic.writeEar_law downlink _, parity, EarWork.shocks_le _ _ _ _ shocks⟩

theorem sendBlock (h : Keeps s t) (l : LegId) : Keeps s (t.sendBlock l) :=
  (h.sends l ((mixRun Config.blockSamples (t.sendLanes l)).2.map Lane.feed)
    { t.highway with computed := tset t.highway.computed l (mixRun Config.blockSamples (t.sendLanes l)).1 } fun law =>
      mixRun_law law _ _ _).modEc l (f := fun c => { c with
        history := ((mixRun Config.blockSamples (t.sendLanes l)).1 :: c.history).take Config.historyBlocks, joined := true })

/-! ### The highway -/

theorem highway (h : Keeps s t) (x : Highway) : Keeps s { t with highway := x } :=
  h.trans ⟨⟨rfl, rfl, id, id, id, id, id, id⟩, fun d => d.of_fields⟩

theorem startPeriod (h : Keeps s t) : Keeps s t.startPeriod := by
  refine h.trans ⟨⟨rfl, rfl, id, fun k p => ?_, id, id, id, fun k => ?_⟩, fun d => d.of_fields⟩
  · show Position.Law (tget (tmap _ t.positions) p)
    rw [tget_tmap]
    exact k p
  · have leg : ∀ l, t.startPeriod.leg l = { t.leg l with ec := { (t.leg l).ec with joined := false } } := fun l => tget_tmap _ _ _
    exact k.of_same rfl (fun l => by rw [leg]) (fun l => by rw [leg]; exact id)

theorem regain (h : Keeps s t) (f : HighwayFrame) : Keeps s (t.regain f) :=
  (((h.highway _).report _).startPeriod).highway _

theorem highwayFrame (h : Keeps s t) (f : HighwayFrame) (wellPlaced : Bool) : Keeps s (t.highwayFrame f wellPlaced) := by
  unfold State.highwayFrame
  split
  · exact h.highway _
  · exact ite (ite (h.regain f) (h.highway _)) (h.highway _)

theorem loseSync (h : Keeps s t) : Keeps s t.loseSync := (h.highway _).report _

end Keeps

theorem ownMemoryRelease_keeps (u : Unit) (s : State) : Keeps s (ownMemoryRelease u s).state := by
  have kept := Keeps.refl s
  unfold ownMemoryRelease
  split
  · have told : ∀ t : State, Keeps s t → t.write.clip = none → t.memory.mode = .owned →
        Keeps s { t with memory := { t.memory with mode := .releasing } } := fun t h idle mode =>
      h.trans ⟨KeepsLists.memory t _, fun d => d.setMode rfl rfl rfl rfl (by simp [mode]) (by simp) fun _ => idle⟩
    rename_i owned
    have mode : s.abandonWrite.memory.mode = .owned := by
      unfold State.abandonWrite
      split
      · exact owned
      · obtain ⟨flash, ops, e, _⟩ := Keeps.abandonErase_frame s
        rw [e]
        exact owned
    dsimp only
    split
    · exact told _ (kept.abandonWrite.report _) (Keeps.abandonWrite_write s) mode
    · exact told _ kept.abandonWrite (Keeps.abandonWrite_write s) mode
  · exact kept
  · exact kept
  · exact kept

theorem ownMemoryReclaim_keeps (u : Unit) (s : State) : Keeps s (ownMemoryReclaim u s).state := by
  unfold ownMemoryReclaim
  split
  · rename_i released
    exact (Keeps.refl s).reclaim released
  all_goals exact Keeps.refl s

end Sys2Proof.Machine
end

section
set_option Elab.async false
/-! ## What every command keeps of the link's sizes, the ports, the wait queue, the flash, the feed lists, the pool and the directory -/

namespace Sys2Proof.Machine

/-! ### The relation that whole commands keep -/

/-- What a command keeps from s to t: seven of the laws of chapter 9 and before it. -/
structure LawsKept (s t : State) : Prop where
  link : LinkLaw s → LinkLaw t
  port : PortLaw s → PortLaw t
  wait : WaitLaw s → WaitLaw t
  flash : FlashLaw s → FlashLaw t
  feed : FeedLaw s → FeedLaw t
  pool : PoolLaw s → PoolLaw t
  directory : DirectoryLaw s → DirectoryLaw t

theorem Keeps.laws {s t : State} (h : Keeps s t) : LawsKept s t where
  link := fun ⟨places, buffer, reports⟩ => ⟨by rw [h.replies, h.buffer]; exact places, by rw [h.buffer]; exact buffer, h.reports reports⟩
  port := h.port
  wait := h.wait
  flash := h.flash
  feed := h.feed
  pool := h.pool
  directory := h.directory

namespace LawsKept

variable {s t u : State}

theorem refl (s : State) : LawsKept s s := (Keeps.refl s).laws

theorem trans (a : LawsKept s t) (b : LawsKept t u) : LawsKept s u where
  link := b.link ∘ a.link
  port := b.port ∘ a.port
  wait := b.wait ∘ a.wait
  flash := b.flash ∘ a.flash
  feed := b.feed ∘ a.feed
  pool := b.pool ∘ a.pool
  directory := b.directory ∘ a.directory

theorem ite {c : Prop} [Decidable c] (h : LawsKept s t) (k : LawsKept s u) : LawsKept s (if c then t else u) := by
  split
  · exact h
  · exact k

/-- A change of the link alone. -/
theorem setLink (s : State) (k : Link) (link : LinkLaw s → LinkLaw { s with link := k }) : LawsKept s { s with link := k } :=
  ⟨link, id, id, id, id, id, fun d => d.of_fields⟩

theorem linkError (s : State) (cause : LinkCause) : LawsKept s (s.linkError cause) :=
  (setLink s { s.link with linkErrors := sat16Count s.link.linkErrors 1 } id).trans (((Keeps.refl _).report _).laws)

/-- A reply placed where a place is free (R190). -/
theorem reply (h : LawsKept s t) (r : Reply) (room : LinkLaw s → t.link.places < 8) : LawsKept s (t.reply r) where
  link := fun law => by
    obtain ⟨_, buffer, reports⟩ := h.link law
    have free := room law
    unfold Link.places at free
    refine ⟨?_, by simpa using buffer, by simpa using reports⟩
    simp only [State.reply_link, Link.placeReply_replies, Link.placeReply_buffer, List.length_append, List.length_singleton]
    omega
  port := h.port
  wait := h.wait
  flash := h.flash
  feed := h.feed
  pool := h.pool
  directory := fun d => (h.directory d).of_fields

theorem takeBuffered (s : State) : LawsKept s s.takeBuffered := by
  refine setLink s _ fun ⟨places, buffer, reports⟩ => ⟨?_, ?_, reports⟩ <;> simp only [List.length_drop] <;> omega

/-- A request that the handler takes: the owner keeps the reply places, and the reply takes one that is free (R188, R190). -/
theorem respond {α : Type} {owner : α → State → Handled} (kept : ∀ f s, Keeps s (owner f s).state) (h : LawsKept s t)
    (room : LinkLaw s → t.link.places < 8) (code tag : Byte) (q : Payload α) : LawsKept s (respond code tag q owner t) := by
  cases q with
  | malformed => exact h.reply _ room
  | fields f =>
    refine (h.trans (kept f t).laws).reply _ fun law => ?_
    have free := room law
    unfold Link.places at free ⊢
    rw [(kept f t).replies, (kept f t).buffer]
    exact free

/-- A request command keeps the laws when its owner does (R186, R188). -/
theorem serve {α : Type} [DecidableEq α] {owner : α → State → Handled} (kept : ∀ f s, Keeps s (owner f s).state)
    (code tag : Byte) (fields : Parser α) (q : Payload α) (s : State) : LawsKept s (serve code tag fields q owner s) := by
  obtain e | ⟨_, _, _, e⟩ | ⟨_, empty, free, e⟩ | ⟨_, ⟨r, rest, buffer, _⟩, e⟩ := serve_cases code tag fields q owner s <;> rw [e]
  · exact refl s
  · exact linkError s _
  · exact (refl s).respond kept (fun _ => by simpa [Link.places, empty] using free) code tag q
  · refine (takeBuffered s).respond kept (fun law => ?_) code tag q
    have places := law.1
    simp only [State.takeBuffered, Link.places, List.length_drop]
    rw [buffer] at places ⊢
    simp only [List.length_cons] at places ⊢
    omega

theorem unknownRequest (s : State) (tag code : Byte) : LawsKept s (s.unknownRequest tag code) := by
  unfold State.unknownRequest
  refine ite (refl s) ?_
  split
  · split
    · exact linkError s _
    · rename_i empty full
      exact (refl s).reply _ fun _ => Nat.lt_of_not_le full
  · rename_i r rest buffer
    refine ite ((takeBuffered s).reply _ fun law => ?_) (refl s)
    have places := law.1
    simp only [State.takeBuffered, Link.places, List.length_drop]
    rw [buffer] at places ⊢
    simp only [List.length_cons] at places ⊢
    omega

/-! ### The soft reset -/

end LawsKept

theorem returnNumbers_flatMap {α : Type} (f : α → List Nat) (xs : List α) (free : List Nat) :
    xs.foldl (fun free x => returnNumbers (f x) free) free = returnNumbers (xs.flatMap f) free := by
  induction xs generalizing free with
  | nil => rfl
  | cons x xs ih => rw [List.foldl_cons, ih, List.flatMap_cons, returnNumbers, returnNumbers, returnNumbers, List.foldl_append]

/-- What lists give over all identifiers is what those give that meet a test, and what the others give. -/
theorem flatMap_finRange_split {n : Nat} {α : Type} (P : Fin n → Bool) (g : Fin n → List α) :
    ((List.finRange n).flatMap g).Perm
      (((List.finRange n).filter P).flatMap g ++ (List.finRange n).flatMap fun i => if P i = true then [] else g i) := by
  induction List.finRange n with
  | nil => exact .nil
  | cons i is ih =>
    rw [List.flatMap_cons, List.flatMap_cons, List.filter_cons]
    by_cases k : P i = true
    · simp only [k, if_true, List.flatMap_cons, List.nil_append]
      rw [List.append_assoc]
      exact ih.append_left _
    · simp only [k]
      exact (ih.append_left _).trans (List.perm_append_comm_assoc _ _ _)

/-- Soft reset leaves a clip that is not RETIRING with its slabs and no engine (R121, R145). -/
theorem State.softResetBlocks_clip (s : State) (c : ClipId) : s.softResetBlocks.clip c = (s.clip c).softReset := tget_tmap _ _ _

theorem DirectoryLaw.softResetBlocks {s : State} (h : DirectoryLaw s) : DirectoryLaw s.softResetBlocks := by
  have clip := s.softResetBlocks_clip
  have retired : ∀ c, (s.clip c).state = .retiring → (s.clip c).softReset = Clip.empty := fun c k => if_pos k
  have stays : ∀ c, (s.clip c).state ≠ .retiring → (s.clip c).softReset = { s.clip c with useCount := 0 } := fun c k => if_neg k
  have free : ∀ e, s.softResetBlocks.eng e = Engine.idle := fun e => tget_replicate _ _
  have unused : ∀ c, ((s.clip c).softReset).useCount = 0 := fun c => by
    unfold Clip.softReset
    split <;> rfl
  have slabs : ∀ c, ((s.clip c).softReset).slabs = if decide ((s.clip c).state = .retiring) = true then [] else (s.clip c).slabs := fun c => by
    unfold Clip.softReset
    split <;> simp [*, Clip.empty]
  have returned : s.softResetBlocks.freeSlabs = returnNumbers (s.retiring.flatMap fun c => (s.clip c).slabs) s.freeSlabs :=
    returnNumbers_flatMap _ _ _
  constructor
  case useCount =>
    intro c
    rw [clip, unused]
    simp [free, Engine.idle]
  case inUse =>
    intro c k
    rw [clip, unused] at k
    exact absurd k (lt_irrefl _)
  case writing =>
    intro c
    rw [clip]
    refine Iff.trans ?_ (h.writing c)
    by_cases k : (s.clip c).state = .retiring
    · rw [retired c k, k]
      exact ⟨nofun, nofun⟩
    · rw [stays c k]
  case away => exact h.away
  case scanning => exact fun k => ⟨(h.scanning k).1, fun e => by rw [free]; rfl⟩
  case empty =>
    intro c k
    rw [clip] at k ⊢
    by_cases retiring : (s.clip c).state = .retiring
    · rw [retired c retiring]
      rfl
    · rw [stays c retiring] at k ⊢
      exact h.empty c k
  case rising =>
    rw [returned]
    exact returnNumbers_pairwise _ _ h.rising
  case slabs =>
    intro k
    have whole := h.slabs k
    have split := flatMap_finRange_split (fun c => decide ((s.clip c).state = .retiring)) fun c : ClipId => (s.clip c).slabs
    have own : s.softResetBlocks.slabsBelow 256 =
        (List.finRange 256).flatMap fun c => if decide ((s.clip c).state = .retiring) = true then [] else (s.clip c).slabs := by
      rw [State.slabsBelow_all]
      exact List.flatMap_congr fun c _ => by rw [clip, slabs]
    rw [State.slabsBelow_all] at whole
    have parts := (split.append_left s.freeSlabs).symm.trans whole
    rw [← List.append_assoc] at parts
    have once := (parts.nodup_iff.2 dataSlabs_nodup).sublist (List.sublist_append_left _ _)
    rw [returned, own]
    refine ((returnNumbers_perm (List.nodup_append_comm.1 once)).append_right _).trans ?_
    exact (List.perm_append_comm.append_right _).trans parts
  case found =>
    intro k
    obtain ⟨once, range⟩ := h.found k
    have part : (s.softResetBlocks.slabsBelow s.scan.next).Sublist (s.slabsBelow s.scan.next) := by
      unfold State.slabsBelow
      refine List.Sublist.flatMap_right _ fun c _ => ?_
      rw [clip, slabs]
      split
      · exact List.nil_sublist _
      · exact List.Sublist.refl _
    exact ⟨once.sublist part, fun n hn => range n (part.subset hn)⟩

/-- After soft reset every leg's list of segments is empty, and the pool holds them all (R90, R119). -/
theorem PoolLaw.softResetBlocks {s : State} (h : PoolLaw s) : PoolLaw s.softResetBlocks := by
  have bare : ∀ l, (s.softResetBlocks.leg l).ec.segments = [] := fun l => by
    have leg : s.softResetBlocks.leg l = (s.leg l).softReset := tget_tmap _ _ _
    rw [leg]
    unfold Leg.softReset
    split
    · exact (h.2.2.2.1 l ‹_›).1
    · rfl
  have held : s.softResetBlocks.heldSegments = [] := by
    unfold State.heldSegments
    simp [bare]
  have pool : s.softResetBlocks.pool = ⟨List.range 512, []⟩ := rfl
  unfold PoolLaw
  rw [pool, held, List.append_nil]
  dsimp only
  refine ⟨List.Perm.refl _, List.pairwise_lt_range, fun l => ?_, fun l _ => ⟨bare l, nofun⟩, List.nodup_nil, nofun⟩
  rw [bare, State.owed_eq, pool]
  exact Nat.zero_le _

theorem FeedListLaw.nil : FeedListLaw [] := ⟨Nat.zero_le _, List.nodup_nil⟩

namespace LawsKept

variable {s t u : State}

theorem softResetBlocks (s : State) : LawsKept s s.softResetBlocks where
  link := fun ⟨places, _, _⟩ => by
    refine ⟨?_, Nat.zero_le _, Nat.zero_le _⟩
    simpa [State.softResetBlocks, Link.softReset] using places
  port := fun k p => by
    show Position.Law (tget (tmap _ s.positions) p)
    rw [tget_tmap]
    exact k p
  wait := fun _ => List.Pairwise.nil
  flash := id
  feed := fun _ => ⟨fun p => by rw [State.softResetBlocks, tget_replicate]; exact .nil, fun l => by rw [State.softResetBlocks, tget_replicate]; exact .nil⟩
  pool := PoolLaw.softResetBlocks
  directory := DirectoryLaw.softResetBlocks

theorem softReset (s : State) : LawsKept s s.softReset :=
  (softResetBlocks s).trans ((((Keeps.refl _).settlePort).foldl _ (fun t c => (Keeps.refl t).queueUpdate c) _).laws)

/-! ### The byte clock -/

theorem choose (h : LawsKept s t) : LawsKept s { t with link := t.link.choose } :=
  h.trans (setLink t _ fun ⟨places, buffer, reports⟩ => ⟨by simpa using places, by simpa using buffer, by simpa using reports⟩)

theorem messageSent (s : State) : LawsKept s s.messageSent := by
  unfold State.messageSent
  split
  · exact refl s
  · split
    · exact refl s
    · rename_i r rest replies
      have sent : LawsKept s { s with link := Link.endMessage { s.link with replies := rest } r.frame } :=
        setLink s _ fun ⟨places, buffer, reports⟩ => ⟨by
          rw [replies, List.length_cons] at places
          show rest.length + s.link.buffer.length ≤ 8
          omega, buffer, reports⟩
      exact choose (ite (sent.trans (softReset _)) sent)
  · split
    · exact refl s
    · rename_i r rest reports
      refine choose (setLink s _ fun ⟨places, buffer, size⟩ => ⟨places, buffer, ?_⟩)
      rw [reports, List.length_cons] at size
      show rest.length ≤ 32
      omega

theorem sendByte (s : State) : LawsKept s s.sendByte := by
  obtain ⟨_, e⟩ | ⟨_, _, _, e⟩ | ⟨_, _, _, e⟩ := s.sendByte_cases <;> rw [e]
  · exact setLink s _ id
  · exact setLink s _ id
  · exact messageSent s

theorem setReceiver (h : LawsKept s t) (r : Receiver) : LawsKept s (t.setReceiver r) := h.trans (setLink t _ id)

theorem huntByte (h : LawsKept s t) (b : Byte) : LawsKept s (t.huntByte b) := by
  unfold State.huntByte
  exact ite (h.setReceiver _) h

theorem dispose (s : State) (r : RequestFrame) : LawsKept s (s.dispose r) := by
  obtain ⟨_, e⟩ | ⟨free, room, e⟩ | ⟨free, _, e⟩ := s.dispose_cases r <;> rw [e]
  · exact linkError s _
  · refine setLink s _ fun ⟨_, _, reports⟩ => ⟨?_, ?_, reports⟩
    · unfold Link.places at free
      simp only [List.length_append, List.length_singleton]
      omega
    · simp only [List.length_append, List.length_singleton]
      omega
  · exact (refl s).reply _ fun _ => free

theorem judgeBytes (s : State) (start : BitVec 32) (bytes : List Byte) : LawsKept s (s.judgeBytes start bytes) := by
  unfold State.judgeBytes
  split
  · exact (refl s).setReceiver _
  · exact (linkError s _).setReceiver _
  · exact (dispose s _).setReceiver _

theorem takeByte (s : State) (b : Byte) : LawsKept s (s.takeByte b) := by
  obtain ⟨_, e⟩ | ⟨start, got, _, ⟨_, e⟩ | ⟨_, e⟩⟩ := s.takeByte_cases b <;> rw [e]
  · exact (refl s).huntByte b
  · exact ((linkError s _).setReceiver _).huntByte b
  · exact judgeBytes s _ _

theorem clock (s : State) (bytes : List Byte) : LawsKept s (s.clock bytes) := by
  induction bytes generalizing s with
  | nil => exact refl s
  | cons b bytes ih => exact ((sendByte s).trans (takeByte _ b)).trans (ih _)

theorem timeoutFrame (s : State) : LawsKept s s.timeoutFrame := by
  unfold State.timeoutFrame
  split
  · exact refl s
  · exact ite ((linkError s _).setReceiver _) (refl s)

end LawsKept

end Sys2Proof.Machine
end

section
set_option Elab.async false
/-! ## Hardware reset, the commands, and the laws that every step keeps (O56, O57, O58, O60) -/

namespace Sys2Proof.Machine

/-! ### The part after hardware reset meets the laws -/

theorem State.reset_pos (p : PosId) : State.reset.pos p = Position.reset := tget_replicate _ _
theorem State.reset_leg (l : LegId) : State.reset.leg l = Leg.reset := tget_replicate _ _
theorem State.reset_clip (c : ClipId) : State.reset.clip c = Clip.empty := tget_replicate _ _
theorem State.reset_eng (e : EngId) : State.reset.eng e = Engine.idle := tget_replicate _ _

theorem linkLaw_reset : LinkLaw State.reset := ⟨Nat.zero_le _, Nat.zero_le _, Nat.zero_le _⟩

theorem portLaw_reset : PortLaw State.reset := fun p => by
  rw [State.reset_pos]
  exact ⟨⟨Nat.zero_le _, Nat.zero_le _, Nat.zero_le _, Nat.zero_le _⟩, ⟨Nat.zero_le _, Nat.zero_le _, Nat.zero_le _, Nat.zero_le _⟩,
    Nat.zero_le _, Nat.zero_le _⟩

theorem waitLaw_reset : WaitLaw State.reset := List.Pairwise.nil

theorem feedLaw_reset : FeedLaw State.reset :=
  ⟨fun p => by rw [State.reset, tget_replicate]; exact .nil, fun l => by rw [State.reset, tget_replicate]; exact .nil⟩

theorem range_shifted_pairwise (n : Nat) : ((List.range n).map (· + 4)).Pairwise (· < ·) :=
  List.pairwise_map.2 (List.pairwise_lt_range.imp fun k => Nat.add_lt_add_right k 4)

theorem directoryLaw_reset : DirectoryLaw State.reset := by
  have below : ∀ n, State.reset.slabsBelow n = [] := fun n => by
    unfold State.slabsBelow
    simp [State.reset_clip, Clip.empty]
  constructor
  case useCount => exact fun c => by simp [State.reset_clip, State.reset_eng, Clip.empty, Engine.idle]
  case inUse => exact fun c k => absurd k (by rw [State.reset_clip]; exact lt_irrefl _)
  case writing => exact fun c => by rw [State.reset_clip]; exact ⟨nofun, nofun⟩
  case away => exact fun _ => rfl
  case scanning => exact fun _ => ⟨rfl, fun e => by rw [State.reset_eng]; rfl⟩
  case empty => exact fun c _ => by rw [State.reset_clip]; rfl
  case rising =>
    unfold State.reset
    dsimp only
    exact range_shifted_pairwise 1020
  case slabs => exact fun k => absurd rfl k
  case found => exact fun _ => by rw [below]; exact ⟨List.nodup_nil, nofun⟩

theorem poolLaw_reset : PoolLaw State.reset := by
  have bare : ∀ l, (State.reset.leg l).ec.segments = [] := fun l => by rw [State.reset_leg]; rfl
  have held : State.reset.heldSegments = [] := by
    unfold State.heldSegments
    simp [bare]
  have pool : State.reset.pool = ⟨List.range 512, []⟩ := rfl
  unfold PoolLaw
  rw [pool, held, List.append_nil]
  dsimp only
  refine ⟨List.Perm.refl _, List.pairwise_lt_range, fun l => ?_, fun l _ => ⟨bare l, nofun⟩, List.nodup_nil, nofun⟩
  rw [bare, State.owed_eq, pool]
  exact Nat.zero_le _

theorem attachLaw_reset : AttachLaw State.reset := by
  simp only [AttachLaw, State.reset_pos, State.reset_leg]
  exact ⟨fun _ _ => ⟨nofun, nofun⟩, fun _ => ⟨nofun, nofun⟩, nofun, nofun, fun _ => Nat.zero_le _⟩

theorem superLaw_reset : SuperLaw State.reset := by
  simp only [SuperLaw, State.reset_pos]
  exact nofun

theorem whisperLaw_reset : WhisperLaw State.reset := fun p => by
  rw [State.reset_pos]
  exact ⟨Nat.zero_le _, nofun⟩

/-- Settles O60, law by law: every table is filled with one reset record, and every list is empty or whole. -/
theorem resetMeetsLaws : Obligations.ResetMeetsLaws :=
  ⟨linkLaw_reset, portLaw_reset, waitLaw_reset, rfl, feedLaw_reset, directoryLaw_reset, poolLaw_reset, attachLaw_reset,
    superLaw_reset, whisperLaw_reset⟩

/-! ### Hardware reset -/

theorem State.cutOff_wf {s : State} (h : FlashLaw s) : Memory.wf s.cutOff.flash = true := by
  have erased : FlashLaw s.abandonErase := by
    obtain ⟨flash, ops, e, wf⟩ := Keeps.abandonErase_frame s
    rw [e]
    exact wf h
  unfold State.cutOff
  split
  · exact flashFill_wf _ _ _ erased
  · exact flashFill_wf _ _ _ erased
  all_goals exact erased

theorem LawsKept.hardwareReset (s : State) : LawsKept s s.hardwareReset := by
  unfold State.hardwareReset
  have directory : ∀ pending flash ops, DirectoryLaw { State.reset with pending := pending, flash := flash, unfinishedOps := ops } :=
    fun _ _ _ => directoryLaw_reset.of_fields (t := { State.reset with pending := _, flash := _, unfinishedOps := _ }) (freeSlabs := by dsimp only)
  have kept := ((Keeps.refl { State.reset with
    pending := s.pending, flash := s.cutOff.flash, unfinishedOps := s.cutOff.unfinishedOps }).report .restarted).laws
  exact ⟨fun _ => kept.link linkLaw_reset, fun _ => kept.port portLaw_reset, fun _ => kept.wait waitLaw_reset,
    fun h => kept.flash (State.cutOff_wf h), fun _ => kept.feed feedLaw_reset, fun _ => kept.pool (poolLaw_reset.of_same rfl (fun _ => rfl) fun _ => id),
    fun _ => kept.directory (directory _ _ _)⟩

/-! ### The commands -/

theorem LawsKept.afterRelease {s t : State} (h : LawsKept s t) (before : State) : LawsKept s (t.afterRelease before) := by
  unfold State.afterRelease
  exact LawsKept.ite (h.trans ((Keeps.refl t).settlePort).laws) h

theorem ownDeviceStatus_keeps (u : Unit) (s : State) : Keeps s (ownDeviceStatus u s).state :=
  ⟨⟨rfl, rfl, id, id, id, id, id, id⟩, fun d => d.of_fields⟩

theorem ownDeviceReset_keeps (u : Unit) (s : State) : Keeps s (ownDeviceReset u s).state :=
  ⟨⟨rfl, rfl, id, id, id, id, id, id⟩, fun d => d.of_fields⟩

/-- Every command has a next state, and keeps the laws on the way to it. -/
theorem exec_laws (i : Instr) (s : State) : ∃ t, exec i s = .next t ∧ LawsKept s t := by
  have same := Keeps.refl s
  have port := fun order p presence => same.portBlock order p presence
  have handled := fun {α : Type} [DecidableEq α] {owner : α → State → Handled} (kept : ∀ f s, Keeps s (owner f s).state)
    (code tag : Byte) (fields : Parser α) (q : Payload α) => LawsKept.serve kept code tag fields q s
  cases i with
  | hardwareReset => exact ⟨_, rfl, .hardwareReset s⟩
  | softReset => exact ⟨_, rfl, .ite (.clock s _) (.refl s)⟩
  | portEnable tag q => exact ⟨_, rfl, handled ownPortEnable_keeps _ _ _ _⟩
  | portDisable tag q => exact ⟨_, rfl, handled ownPortDisable_keeps _ _ _ _⟩
  | positionConfig tag q => exact ⟨_, rfl, handled ownPositionConfig_keeps _ _ _ _⟩
  | positionMute tag q => exact ⟨_, rfl, handled ownPositionMute_keeps _ _ _ _⟩
  | positionStatus tag q => exact ⟨_, rfl, handled ownPositionStatus_keeps _ _ _ _⟩
  | positionStats tag q => exact ⟨_, rfl, handled ownPositionStats_keeps _ _ _ _⟩
  | upFrame p frame time => exact ⟨_, rfl, (same.upFrame p frame time).laws⟩
  | downFrame p => exact ⟨_, rfl, (same.downFrame p).laws⟩
  | expectedFrameMissed p => exact ⟨_, rfl, (same.frameMissed p).laws⟩
  | lockLoss p => exact ⟨_, rfl, (Keeps.ite (same.frameMissed p) same).laws⟩
  | portBlockEvent p presence => exact ⟨_, rfl, (port _ _ _).laws⟩
  | headsetInserted p => exact ⟨_, rfl, (Keeps.ite (port _ _ _) same).laws⟩
  | acquisitionStart p presence => exact ⟨_, rfl, (Keeps.ite (port _ _ _) same).laws⟩
  | unplug p => exact ⟨_, rfl, (Keeps.ite (port _ _ _) same).laws⟩
  | portLive p presence => exact ⟨_, rfl, (Keeps.ite (port _ _ _) same).laws⟩
  | recoveryWindowExpiry p presence =>
    refine ⟨_, rfl, ?_⟩
    split
    · exact (Keeps.ite (port _ _ _) same).laws
    · exact same.laws
  | periodStart => exact ⟨_, rfl, same.startPeriod.laws⟩
  | syncLost => exact ⟨_, rfl, (Keeps.ite same.loseSync same).laws⟩
  | syncRegained frame => exact ⟨_, rfl, (Keeps.ite (same.highwayFrame frame true) same).laws⟩
  | legOpen tag q => exact ⟨_, rfl, handled ownLegOpen_keeps _ _ _ _⟩
  | legHold tag q => exact ⟨_, rfl, handled ownLegHold_keeps _ _ _ _⟩
  | legConnect tag q => exact ⟨_, rfl, handled ownLegConnect_keeps _ _ _ _⟩
  | legCancelConnect tag q => exact ⟨_, rfl, handled ownLegCancelConnect_keeps _ _ _ _⟩
  | legClose tag q => exact ⟨_, rfl, handled ownLegClose_keeps _ _ _ _⟩
  | legStatus tag q => exact ⟨_, rfl, handled ownLegStatus_keeps _ _ _ _⟩
  | earBlockEvent p => exact ⟨_, rfl, (same.earBlock p).laws⟩
  | sendBlockEvent l => exact ⟨_, rfl, (same.sendBlock l).laws⟩
  | hangoverEnd p presence => exact ⟨_, rfl, (Keeps.ite (port _ _ _) same).laws⟩
  | ecBlockEvent l => exact ⟨_, rfl, (same.ecBlock l).laws⟩
  | searchWindowEnd l => exact ⟨_, rfl, (Keeps.ite (same.ecBlock l) same).laws⟩
  | erleWindowEnd l => exact ⟨_, rfl, (Keeps.ite (same.ecBlock l) same).laws⟩
  | ecConfig tag q => exact ⟨_, rfl, handled ownEcConfig_keeps _ _ _ _⟩
  | planSet tag q => exact ⟨_, rfl, handled ownPlanSet_keeps _ _ _ _⟩
  | planDelete tag q => exact ⟨_, rfl, handled ownPlanDelete_keeps _ _ _ _⟩
  | planInfo tag q => exact ⟨_, rfl, handled ownPlanInfo_keeps _ _ _ _⟩
  | announcementStep l => exact ⟨_, rfl, (same.sessionBlock l).laws⟩
  | clipCreate tag q => exact ⟨_, rfl, handled ownClipCreate_keeps _ _ _ _⟩
  | clipData tag q => exact ⟨_, rfl, handled ownClipData_keeps _ _ _ _⟩
  | clipClose tag q => exact ⟨_, rfl, handled ownClipClose_keeps _ _ _ _⟩
  | clipDelete tag q => exact ⟨_, rfl, handled ownClipDelete_keeps _ _ _ _⟩
  | clipInfo tag q => exact ⟨_, rfl, handled ownClipInfo_keeps _ _ _ _⟩
  | memoryRelease tag q => exact ⟨_, rfl, (handled ownMemoryRelease_keeps _ _ _ _).afterRelease s⟩
  | memoryReclaim tag q => exact ⟨_, rfl, handled ownMemoryReclaim_keeps _ _ _ _⟩
  | scanEntryRead found => exact ⟨_, rfl, (same.scanRead found).laws⟩
  | fetchComplete found => exact ⟨_, rfl, (same.fetchComplete found).laws⟩
  | programComplete found => exact ⟨_, rfl, (same.programComplete found).laws⟩
  | eraseComplete => exact ⟨_, rfl, same.eraseComplete.laws⟩
  | directoryUpdateComplete => exact ⟨_, rfl, same.updateComplete.laws⟩
  | engineBlockEvent e => exact ⟨_, rfl, (same.engineBlock e).laws⟩
  | whisperPrompt tag q => exact ⟨_, rfl, handled ownWhisperPrompt_keeps _ _ _ _⟩
  | whisperFlush tag q => exact ⟨_, rfl, handled ownWhisperFlush_keeps _ _ _ _⟩
  | gapEnd p => exact ⟨_, rfl, (same.gapBlock p).laws⟩
  | whisperDeadlineExpiry p => exact ⟨_, rfl, (same.deadlineBlock p).laws⟩
  | supervise tag q => exact ⟨_, rfl, handled ownSupervise_keeps _ _ _ _⟩
  | superviseEnd tag q => exact ⟨_, rfl, handled ownSuperviseEnd_keeps _ _ _ _⟩
  | requestFrameReceived frame => exact ⟨_, rfl, .clock s _⟩
  | frameDiscarded frame => exact ⟨_, rfl, .clock s _⟩
  | frameTimeout => exact ⟨_, rfl, .timeoutFrame s⟩
  | unknown tag code => exact ⟨_, rfl, .unknownRequest s tag code⟩
  | messageSent => exact ⟨_, rfl, .clock s _⟩
  | deviceStatus tag q => exact ⟨_, rfl, handled ownDeviceStatus_keeps _ _ _ _⟩
  | deviceReset tag q => exact ⟨_, rfl, handled ownDeviceReset_keeps _ _ _ _⟩
  | highwayFrame frame wellPlaced => exact ⟨_, rfl, (same.highwayFrame frame wellPlaced).laws⟩
  | startMarker => exact ⟨_, rfl, .clock s _⟩

theorem step_laws {s t : State} (h : step s = .next t) : LawsKept s t := by
  unfold step at h
  split at h
  · rw [← Host.Outcome.next.inj h]
    exact .refl s
  · rename_i c rest _
    obtain ⟨u, e, kept⟩ := exec_laws c { s with pending := rest }
    rw [← Host.Outcome.next.inj (e.symm.trans h)]
    refine LawsKept.trans ?_ kept
    exact ⟨id, id, id, id, id, fun k => k.of_same rfl (fun _ => rfl) fun _ => id, fun d => d.of_fields⟩

/-- Settles O56: each command keeps the laws (`exec_laws`), the owners by what their operations keep (`Keeps`), the link by its cases. -/
theorem linkAndPortLawsKept : Obligations.LinkAndPortLawsKept :=
  ⟨fun _ _ k h => (step_laws h).link k, fun _ _ k h => (step_laws h).port k, fun _ _ k h => (step_laws h).wait k⟩

/-- Settles O57, by the same walk over the commands. -/
theorem flashAndFeedLawsKept : Obligations.FlashAndFeedLawsKept :=
  ⟨fun _ _ k h => (step_laws h).flash k, fun _ _ k h => (step_laws h).feed k, fun _ _ k h => (step_laws h).directory k⟩

/-- Settles O58, by the same walk over the commands. -/
theorem poolLawKept : Obligations.PoolLawKept := fun _ _ k h => (step_laws h).pool k

end Sys2Proof.Machine
end

section
set_option Elab.async false
/-! ## Requests handled at once: what each request command comes to in a ready handler (R186, R188), and identifiers that name something -/

namespace Sys2Proof.Machine

/-- An owner's answer with its reply placed (R188). -/
def Handled.replied (h : Handled) (code tag : Byte) : State := h.state.reply ⟨code, tag, h.status, h.fields⟩

@[simp] theorem replied_accept (s : State) (code tag : Byte) : (accept s).replied code tag = s.ok code tag := rfl

@[simp] theorem replied_refuse (s : State) (status : Status) (code tag : Byte) :
    (refuse s status).replied code tag = s.reply ⟨code, tag, status, .none⟩ := rfl

/-- An identifier that names a position is that position's (R189). -/
@[simp] theorem withPosition_val (p : PosId) (s : State) (f : PosId → Handled) : withPosition p.val s f = f p := by
  simp [withPosition]

/-- An identifier beyond the last position is refused (R189). -/
theorem withPosition_beyond {n : Nat} (hn : 32 ≤ n) (s : State) (f : PosId → Handled) : withPosition n s f = refuse s .range := by
  simp [withPosition, toId_none hn]

/-- An identifier beyond the last leg is refused (R189). -/
theorem withLeg_beyond {n : Nat} (hn : 64 ≤ n) (s : State) (f : LegId → Handled) : withLeg n s f = refuse s .range := by
  simp [withLeg, toId_none hn]

/-- With the memory owned, an identifier that names a clip is that clip's (R122, R189). -/
theorem withClip_val {s : State} (owned : s.memory.mode = .owned) (c : ClipId) (f : ClipId → Handled) : withClip c.val s f = f c := by
  simp [withClip, State.memoryAway, owned]

/-- With the memory away every request of the clip store is refused (R122). -/
theorem withClip_away {s : State} (away : s.memory.mode ≠ .owned) (c : ClipId) (f : ClipId → Handled) :
    withClip c.val s f = refuse s .busy := by
  simp [withClip, State.memoryAway, away]

/-- An identifier beyond the last clip is refused before anything else (R189). -/
theorem withClip_beyond {n : Nat} (hn : 256 ≤ n) (s : State) (f : ClipId → Handled) : withClip n s f = refuse s .range := by
  simp [withClip, toId_none hn]

/-! ### The request commands -/

section Ready
variable {s : State} (ready : Ready s) (tag : Byte)
include ready

theorem exec_ecConfig_ready (f : EcFields) : exec (.ecConfig tag (.fields f)) s = .next ((ownEcConfig f s).replied 0x16 tag) :=
  congrArg Host.Outcome.next (serve_fields_of_ready ready 0x16 tag ecFields f ownEcConfig)

theorem exec_portEnable_ready (n : Nat) : exec (.portEnable tag (.fields n)) s = .next ((ownPortEnable n s).replied 0x01 tag) :=
  congrArg Host.Outcome.next (serve_fields_of_ready ready 0x01 tag wordField n ownPortEnable)

theorem exec_portDisable_ready (n : Nat) : exec (.portDisable tag (.fields n)) s = .next ((ownPortDisable n s).replied 0x02 tag) :=
  congrArg Host.Outcome.next (serve_fields_of_ready ready 0x02 tag wordField n ownPortDisable)

theorem exec_positionConfig_ready (f : ConfigFields) : exec (.positionConfig tag (.fields f)) s = .next ((ownPositionConfig f s).replied 0x03 tag) :=
  congrArg Host.Outcome.next (serve_fields_of_ready ready 0x03 tag configFields f ownPositionConfig)

theorem exec_positionMute_ready (f : MuteFields) : exec (.positionMute tag (.fields f)) s = .next ((ownPositionMute f s).replied 0x04 tag) :=
  congrArg Host.Outcome.next (serve_fields_of_ready ready 0x04 tag muteFields f ownPositionMute)

theorem exec_positionStatus_ready (n : Nat) : exec (.positionStatus tag (.fields n)) s = .next ((ownPositionStatus n s).replied 0x05 tag) :=
  congrArg Host.Outcome.next (serve_fields_of_ready ready 0x05 tag wordField n ownPositionStatus)

theorem exec_positionStats_ready (n : Nat) : exec (.positionStats tag (.fields n)) s = .next ((ownPositionStats n s).replied 0x06 tag) :=
  congrArg Host.Outcome.next (serve_fields_of_ready ready 0x06 tag wordField n ownPositionStats)

theorem exec_whisperPrompt_ready (f : PromptFields) : exec (.whisperPrompt tag (.fields f)) s = .next ((ownWhisperPrompt f s).replied 0x40 tag) :=
  congrArg Host.Outcome.next (serve_fields_of_ready ready 0x40 tag promptFields f ownWhisperPrompt)

theorem exec_whisperFlush_ready (n : Nat) : exec (.whisperFlush tag (.fields n)) s = .next ((ownWhisperFlush n s).replied 0x41 tag) :=
  congrArg Host.Outcome.next (serve_fields_of_ready ready 0x41 tag wordField n ownWhisperFlush)

theorem exec_supervise_ready (f : SuperviseFields) : exec (.supervise tag (.fields f)) s = .next ((ownSupervise f s).replied 0x42 tag) :=
  congrArg Host.Outcome.next (serve_fields_of_ready ready 0x42 tag superviseFields f ownSupervise)

theorem exec_superviseEnd_ready (n : Nat) : exec (.superviseEnd tag (.fields n)) s = .next ((ownSuperviseEnd n s).replied 0x43 tag) :=
  congrArg Host.Outcome.next (serve_fields_of_ready ready 0x43 tag wordField n ownSuperviseEnd)

theorem exec_legOpen_ready (f : OpenFields) : exec (.legOpen tag (.fields f)) s = .next ((ownLegOpen f s).replied 0x10 tag) :=
  congrArg Host.Outcome.next (serve_fields_of_ready ready 0x10 tag openFields f ownLegOpen)

theorem exec_legHold_ready (f : HoldFields) : exec (.legHold tag (.fields f)) s = .next ((ownLegHold f s).replied 0x11 tag) :=
  congrArg Host.Outcome.next (serve_fields_of_ready ready 0x11 tag holdFields f ownLegHold)

theorem exec_legConnect_ready (f : ConnectFields) : exec (.legConnect tag (.fields f)) s = .next ((ownLegConnect f s).replied 0x12 tag) :=
  congrArg Host.Outcome.next (serve_fields_of_ready ready 0x12 tag connectFields f ownLegConnect)

theorem exec_legCancelConnect_ready (n : Nat) : exec (.legCancelConnect tag (.fields n)) s = .next ((ownLegCancelConnect n s).replied 0x13 tag) :=
  congrArg Host.Outcome.next (serve_fields_of_ready ready 0x13 tag wordField n ownLegCancelConnect)

theorem exec_legClose_ready (n : Nat) : exec (.legClose tag (.fields n)) s = .next ((ownLegClose n s).replied 0x14 tag) :=
  congrArg Host.Outcome.next (serve_fields_of_ready ready 0x14 tag wordField n ownLegClose)

theorem exec_deviceStatus_ready (u : Unit) : exec (.deviceStatus tag (.fields u)) s = .next ((ownDeviceStatus u s).replied 0x70 tag) :=
  congrArg Host.Outcome.next (serve_fields_of_ready ready 0x70 tag noFields u ownDeviceStatus)

theorem exec_deviceReset_ready (u : Unit) : exec (.deviceReset tag (.fields u)) s = .next ((ownDeviceReset u s).replied 0x71 tag) :=
  congrArg Host.Outcome.next (serve_fields_of_ready ready 0x71 tag noFields u ownDeviceReset)

theorem exec_clipCreate_ready (f : CreateFields) : exec (.clipCreate tag (.fields f)) s = .next ((ownClipCreate f s).replied 0x30 tag) :=
  congrArg Host.Outcome.next (serve_fields_of_ready ready 0x30 tag createFields f ownClipCreate)

theorem exec_clipData_ready (f : DataFields) : exec (.clipData tag (.fields f)) s = .next ((ownClipData f s).replied 0x31 tag) :=
  congrArg Host.Outcome.next (serve_fields_of_ready ready 0x31 tag dataFields f ownClipData)

theorem exec_clipClose_ready (f : CloseFields) : exec (.clipClose tag (.fields f)) s = .next ((ownClipClose f s).replied 0x32 tag) :=
  congrArg Host.Outcome.next (serve_fields_of_ready ready 0x32 tag closeFields f ownClipClose)

theorem exec_clipDelete_ready (n : Nat) : exec (.clipDelete tag (.fields n)) s = .next ((ownClipDelete n s).replied 0x33 tag) :=
  congrArg Host.Outcome.next (serve_fields_of_ready ready 0x33 tag wordField n ownClipDelete)

theorem exec_memoryReclaim_ready (u : Unit) : exec (.memoryReclaim tag (.fields u)) s = .next ((ownMemoryReclaim u s).replied 0x39 tag) :=
  congrArg Host.Outcome.next (serve_fields_of_ready ready 0x39 tag noFields u ownMemoryReclaim)

theorem exec_planSet_ready (f : PlanFields) : exec (.planSet tag (.fields f)) s = .next ((ownPlanSet f s).replied 0x20 tag) :=
  congrArg Host.Outcome.next (serve_fields_of_ready ready 0x20 tag planFields f ownPlanSet)

theorem exec_planDelete_ready (n : Nat) : exec (.planDelete tag (.fields n)) s = .next ((ownPlanDelete n s).replied 0x21 tag) :=
  congrArg Host.Outcome.next (serve_fields_of_ready ready 0x21 tag wordField n ownPlanDelete)

theorem exec_memoryRelease_ready (u : Unit) :
    exec (.memoryRelease tag (.fields u)) s = .next (((ownMemoryRelease u s).replied 0x38 tag).afterRelease s) :=
  congrArg (fun t : State => Host.Outcome.next (t.afterRelease s)) (serve_fields_of_ready ready 0x38 tag noFields u ownMemoryRelease)

end Ready

end Sys2Proof.Machine
end

section
set_option Elab.async false
/-! ## The step, the reset state, hardware reset, the reads of a position, the handler's refusals (O1, O2, O3, O7, O51) -/

namespace Sys2Proof.Machine

/-- Settles O1: both forms are the two branches of the step. -/
theorem stepTakesFrontCommand : Obligations.StepTakesFrontCommand :=
  ⟨fun _ _ _ => rfl, fun s none => by unfold step; rw [none]⟩

/-- Settles O2: every table is filled with one reset record, whose fields are those listed. -/
theorem resetState : Obligations.ResetState := by
  have buttons : ∀ b, buttonOf Position.reset.port.buttons b = ⟨false, 0⟩ := fun b => by cases b <;> rfl
  have pool : State.reset.pool.free = List.range 512 := by
    unfold State.reset TapPool.reset
    dsimp only
  have free : State.reset.freeSlabs = (List.range 1020).map (· + 4) := by
    unfold State.reset
    dsimp only
  refine ⟨fun p => ?_, ⟨rfl, rfl, rfl⟩, fun l => ?_, ⟨pool, rfl⟩, fun p => tget_replicate _ _, fun l => tget_replicate _ _,
    fun h => tget_replicate _ _, fun c => ?_, ⟨free, rfl, rfl, rfl⟩, fun e => ?_, rfl, rfl, rfl, rfl, rfl, rfl, rfl⟩
  · rw [State.reset_pos]
    exact ⟨rfl, rfl, rfl, rfl, rfl, rfl, rfl, rfl, rfl, rfl, buttons, rfl, rfl, rfl, rfl, rfl, rfl, rfl, rfl⟩
  · rw [State.reset_leg]
    exact ⟨rfl, rfl, rfl, rfl, rfl, rfl, rfl, rfl, rfl⟩
  · rw [State.reset_clip]
    exact ⟨rfl, rfl⟩
  · rw [State.reset_eng]
    exact ⟨rfl, rfl, rfl, rfl, rfl⟩

/-! ### Hardware reset (R195) -/

/-- An operation cut off in a slab leaves the slab partly erased (R128, log 41). -/
theorem State.leaveUnfinished_partlyErased {s : State} (h : FlashLaw s) (slab : Nat) :
    PartlyErased s.flash (s.leaveUnfinished (slabAddresses slab)).flash slab s.unfinishedOps := by
  have read := fun a => s.leaveUnfinished_read (slabAddresses slab) a h
  refine ⟨s.leaveUnfinished_wf _ h, fun a low high => ?_, fun a outside => ?_⟩
  · rw [read, if_pos ((mem_slabAddresses slab a).2 ⟨low, high⟩)]
  · rw [read, if_neg fun k => ?_]
    have := (mem_slabAddresses slab a).1 k
    omega

/-- The slab of an erase in progress, or of one suspended under a fetch or alone, is the one an abandonment leaves partly erased. -/
theorem State.abandonErase_of_erasing {s : State} {slab : Nat} (h : s.memory.erasing = some slab) :
    s.abandonErase = s.leaveUnfinished (slabAddresses slab) := by
  unfold State.abandonErase
  rw [h]

theorem State.abandonErase_of_idle {s : State} (h : s.memory.erasing = none) : s.abandonErase = s := by
  unfold State.abandonErase
  rw [h]

/-- Settles O3: the reset state is the model's by definition; the flash is followed through the operation that is cut off. -/
theorem hardwareReset : Obligations.HardwareReset := by
  intro s
  refine ⟨s.hardwareReset, rfl, ?reset, rfl, fun none idle => ?kept, fun law => ⟨fun slab erasing => ?erased, fun none start n cut => ?cut⟩⟩
  case reset =>
    unfold State.hardwareReset State.report
    dsimp only
    rfl
  case kept =>
    have erasing : s.memory.erasing = Option.none := by
      unfold MemoryPort.erasing
      obtain op | ⟨e, g, op⟩ := idle <;> rw [op] <;> exact none
    have same : s.cutOff = s := by
      unfold State.cutOff
      obtain op | ⟨e, g, op⟩ := idle <;> rw [op] <;> exact State.abandonErase_of_idle erasing
    show s.cutOff.flash = s.flash ∧ s.cutOff.unfinishedOps = s.unfinishedOps
    rw [same]
    exact ⟨rfl, rfl⟩
  case erased =>
    have abandoned : s.memory.erasing = some slab ∧ s.cutOff = s.abandonErase := by
      unfold MemoryPort.erasing State.cutOff
      obtain op | ⟨suspended, op | ⟨e, g, op⟩⟩ := erasing <;> rw [op]
      · exact ⟨rfl, rfl⟩
      · exact ⟨suspended, rfl⟩
      · exact ⟨suspended, rfl⟩
    show PartlyErased s.flash s.cutOff.flash slab s.unfinishedOps
    rw [abandoned.2, State.abandonErase_of_erasing abandoned.1]
    exact State.leaveUnfinished_partlyErased law slab
  case cut =>
    have places : s.cutOff = s.leaveUnfinished (addressesFrom start n) := by
      unfold State.cutOff
      obtain ⟨slab, offset, block, stands, op, rfl, rfl⟩ | ⟨c, image, op, rfl, rfl⟩ := cut
      · have idle : s.memory.erasing = Option.none := by
          unfold MemoryPort.erasing
          rw [op]
          exact none
        rw [op]
        dsimp only
        rw [State.abandonErase_of_idle idle]
        rfl
      · have idle : s.memory.erasing = Option.none := by
          unfold MemoryPort.erasing
          rw [op]
          exact none
        rw [op]
        dsimp only
        rw [State.abandonErase_of_idle idle]
        rfl
    have read := fun a => s.leaveUnfinished_read (addressesFrom start n) a law
    refine ⟨fun a low high => ?_, fun a outside => ?_⟩
    · show flashRead s.cutOff.flash a = _
      rw [places, read, if_pos ((mem_addressesFrom start n a).2 ⟨low, high⟩)]
    · show flashRead s.cutOff.flash a = _
      rw [places, read, if_neg fun k => ?_]
      have := (mem_addressesFrom start n a).1 k
      omega

/-! ### POSITION_STATUS and POSITION_STATS (R26, R27) -/

/-- Settles O7: the fields are copied from the records; the supervision shown is looked up by its three cases. -/
theorem positionReads : Obligations.PositionReads := by
  refine ⟨fun s p tag ready => ⟨s.positionStatus p, ?_, rfl, rfl, rfl, rfl, rfl, rfl, fun k => if_pos k, fun k => if_neg k, ?_, rfl, rfl,
    rfl, rfl, rfl, rfl, rfl, ?_, ?_, ?_, rfl, rfl, rfl⟩, fun s p tag ready => ?_⟩
  · rw [exec_positionStatus_ready ready, ownPositionStatus, withPosition_val]
    rfl
  · intro b
    cases b <;> rfl
  · intro r supervises
    show s.superView p = _
    rw [State.superView, supervises]
  · intro q r none supervisor supervises
    show s.superView p = _
    simp [State.superView, none, supervisor, supervises]
  · intro none free
    show s.superView p = _
    rw [State.superView, none]
    dsimp only
    rw [free]
  · rw [exec_positionStats_ready ready, ownPositionStats, withPosition_val]
    rfl

/-! ### What the handler refuses (R184, R188, R189) -/

section Malformed
variable {s : State} (ready : Ready s)
include ready

theorem serve_malformed_of_ready {α : Type} [DecidableEq α] (code tag : Byte) (fields : Parser α) (owner : α → State → Handled) :
    serve code tag fields .malformed owner s = s.reply ⟨code, tag, .length, .none⟩ :=
  (serve_ready code tag fields .malformed owner s ready.1 ready.2.1 ready.2.2).trans (respond_malformed code tag owner s)

theorem next_malformed {α : Type} [DecidableEq α] (code tag : Byte) (fields : Parser α) (owner : α → State → Handled) :
    (.next (serve code tag fields .malformed owner s) : Result) = .next (s.reply ⟨code, tag, .length, .none⟩) :=
  congrArg _ (serve_malformed_of_ready ready code tag fields owner)

theorem exec_unknown_ready (tag : Byte) {code : Byte} (h : code ∉ requestCodes) :
    exec (.unknown tag code) s = .next (s.reply ⟨code, tag, .unknown, .none⟩) := by
  obtain ⟨running, empty, room⟩ := ready
  show (.next (s.unknownRequest tag code) : Result) = _
  have free : ¬ Config.replyPlaces ≤ s.link.places := by
    simpa [Config.replyPlaces, Link.places, empty] using room
  simp [State.unknownRequest, running, h, empty, free]

end Malformed

/-- A release request leaves the port to itself where its mode did not change (R133). -/
theorem State.afterRelease_reply (s : State) (r : Reply) : (s.reply r).afterRelease s = s.reply r := by
  unfold State.afterRelease
  refine if_neg fun ⟨owned, releasing⟩ => ?_
  exact nomatch owned.symm.trans releasing

/-- Settles O51: the three refusals are made ahead of any owner's own. -/
theorem requestsRefusedByTheHandler : Obligations.RequestsRefusedByTheHandler := by
  intro s tag ready
  have length := fun {α : Type} [DecidableEq α] (code : Byte) (fields : Parser α) (owner : α → State → Handled) =>
    next_malformed ready code tag fields owner
  refine ⟨⟨length _ _ _, length _ _ _, length _ _ _, length _ _ _, length _ _ _, length _ _ _, length _ _ _, length _ _ _,
    length _ _ _, length _ _ _, length _ _ _, length _ _ _, length _ _ _, length _ _ _, length _ _ _, length _ _ _, length _ _ _,
    length _ _ _, length _ _ _, length _ _ _, length _ _ _, ?release, length _ _ _, length _ _ _, length _ _ _, length _ _ _,
    length _ _ _, length _ _ _, length _ _ _⟩, fun code h => exec_unknown_ready ready tag h, ?position, ?leg, ?plan, ?clip⟩
  case release =>
    show (.next ((serve 0x38 tag noFields .malformed ownMemoryRelease s).afterRelease s) : Result) = _
    rw [serve_malformed_of_ready ready, State.afterRelease_reply]
  case position =>
    intro n beyond
    rw [exec_portEnable_ready ready, exec_portDisable_ready ready, exec_positionStatus_ready ready, exec_positionStats_ready ready,
      exec_whisperFlush_ready ready, exec_superviseEnd_ready ready, ownPortEnable, ownPortDisable, ownPositionStatus, ownPositionStats,
      ownWhisperFlush, ownSuperviseEnd]
    simp only [withPosition_beyond beyond, replied_refuse, and_self]
  case leg =>
    intro n beyond
    rw [exec_legCancelConnect_ready ready, exec_legClose_ready ready, exec_legStatus, execLegStatus, serve_fields_of_ready ready,
      ownLegCancelConnect, ownLegClose, ownLegStatus]
    simp only [withLeg_beyond beyond]
    exact ⟨rfl, rfl, rfl⟩
  case plan =>
    intro n beyond
    rw [exec_planDelete_ready ready, ownPlanDelete, withPlan_beyond beyond, replied_refuse]
  case clip =>
    intro n beyond
    rw [exec_clipDelete_ready ready, ownClipDelete, withClip_beyond beyond, replied_refuse, exec_clipInfo, execClipInfo,
      serve_fields_of_ready ready, ownClipInfo, toId_none beyond]
    exact ⟨rfl, rfl⟩

end Sys2Proof.Machine
end

section
set_option Elab.async false
/-! ## The forms of messages: a frame judged, an entry stored and scanned, payloads read (O53, O54, O55) -/

namespace Sys2Proof.Machine

/-! ### Frames (Table 9-1, R183) -/

theorem wordBytes_eq (x : Nat) : wordBytes x = [BitVec.ofNat 8 x, BitVec.ofNat 8 (x / 256)] := rfl

@[simp] theorem wordBytes_length (x : Nat) : (wordBytes x).length = 2 := rfl

/-- The two bytes of a number give it back (R184). -/
theorem wordBytes_value {x : Nat} (h : x < 65536) : (BitVec.ofNat 8 x).toNat + 256 * (BitVec.ofNat 8 (x / 256)).toNat = x := by
  simp only [BitVec.toNat_ofNat]
  omega

@[simp] theorem frameBody_length (kind code tag : Byte) (payload : List Byte) : (frameBody kind code tag payload).length = 5 + payload.length := by
  simp [frameBody]
  omega

theorem frameBody_eq (kind code tag : Byte) (payload : List Byte) : frameBody kind code tag payload =
    kind :: code :: tag :: BitVec.ofNat 8 payload.length :: BitVec.ofNat 8 (payload.length / 256) :: payload := rfl

/-- A frame's two length bytes announce its payload (Table 9-1). -/
theorem announcedLength_frameBody {payload : List Byte} (h : payload.length ≤ 1020) (kind code tag : Byte) (rest : List Byte) :
    announcedLength (frameBody kind code tag payload ++ rest) = payload.length :=
  wordBytes_value (by omega)

/-- A frame whose bytes have all arrived is judged by its check and its kind (R183, R186). -/
theorem judgeFrame_frameBody {payload : List Byte} (h : payload.length ≤ 1020) (kind code tag x y : Byte) :
    judgeFrame (frameBody kind code tag payload ++ [x, y]) =
      if wordBytes (crc (frameBody kind code tag payload)).toNat ≠ [x, y] then .error .check
      else if kind ≠ 0x01 then .error .kind else .request ⟨code, tag, payload⟩ := by
  have length : (frameBody kind code tag payload ++ [x, y]).length = payload.length + 7 := by
    rw [List.length_append, frameBody_length]
    simp
    omega
  have body : (frameBody kind code tag payload ++ [x, y]).take (payload.length + 5) = frameBody kind code tag payload :=
    List.take_left' (by rw [frameBody_length, Nat.add_comm])
  have check : ((frameBody kind code tag payload ++ [x, y]).drop (payload.length + 5)).take 2 = [x, y] := by
    rw [List.drop_left' (by rw [frameBody_length, Nat.add_comm])]
    rfl
  have content : ((frameBody kind code tag payload ++ [x, y]).drop 5).take payload.length = payload := List.take_left
  unfold judgeFrame
  dsimp only
  rw [announcedLength_frameBody h, length, body, check, content, if_neg (by omega), if_neg (by simp [Config.maxPayload]; omega),
    if_neg (lt_irrefl _)]
  rfl

/-- Settles O54: the announced length cuts the frame where it was put together; the worked check is computed. -/
theorem frameRoundTrip : Obligations.FrameRoundTrip := by
  refine ⟨fun code tag payload h => ?_, by decide +kernel⟩
  rw [wordBytes_eq, judgeFrame_frameBody h, ← wordBytes_eq, if_neg (not_not.2 rfl), if_neg (not_not.2 rfl)]

/-! ### Payloads (R184)

A parser that succeeds on the front of the bytes hands the rest to the parser behind it; each kind of field has one such lemma, with what
follows it and at the payload's end. -/

/-- A parser that has taken its field leaves the rest to the next. -/
theorem parser_bind {α β : Type} {p : Parser α} {bytes rest : List Byte} {a : α} (h : p bytes = some (a, rest)) (q : α → Parser β) :
    (p >>= q) bytes = q a rest := by
  show (StateT.bind p q bytes) = _
  simp [StateT.bind, h]

theorem parser_bind_none {α β : Type} {p : Parser α} {bytes : List Byte} (h : p bytes = none) (q : α → Parser β) : (p >>= q) bytes = none := by
  show (StateT.bind p q bytes) = _
  simp [StateT.bind, h]

@[simp] theorem parser_pure {α : Type} (a : α) (bytes : List Byte) : (pure a : Parser α) bytes = some (a, bytes) := rfl

theorem byteField_cons (b : Byte) (rest : List Byte) : byteField (b :: rest) = some (b.toNat, rest) := rfl

@[simp] theorem byteField_bind {β : Type} (b : Byte) (rest : List Byte) (q : Nat → Parser β) : (byteField >>= q) (b :: rest) = q b.toNat rest :=
  parser_bind (byteField_cons b rest) q

/-- A number read is the number put there, in as many bytes (R184). -/
theorem numberField_numberBytes (n x : Nat) (rest : List Byte) : numberField n (numberBytes n x ++ rest) = some (x % 256 ^ n, rest) := by
  induction n generalizing x with
  | zero => rw [pow_zero, Nat.mod_one]; rfl
  | succ n ih =>
    show (byteField >>= fun low => numberField n >>= fun high => pure (low + 256 * high))
      (BitVec.ofNat 8 x :: (numberBytes n (x / 256) ++ rest)) = _
    have digits : x % 256 ^ (n + 1) = x % 256 + 256 * (x / 256 % 256 ^ n) := by rw [pow_succ', Nat.mod_mul]
    rw [byteField_bind, parser_bind (ih (x / 256)), parser_pure, BitVec.toNat_ofNat, digits]

theorem wordField_wordBytes {x : Nat} (h : x < 65536) (rest : List Byte) : wordField (wordBytes x ++ rest) = some (x, rest) := by
  rw [wordField, wordBytes, numberField_numberBytes, Nat.mod_eq_of_lt (by norm_num; exact h)]

theorem longField_longBytes {x : Nat} (h : x < 4294967296) (rest : List Byte) : longField (longBytes x ++ rest) = some (x, rest) := by
  rw [longField, longBytes, numberField_numberBytes, Nat.mod_eq_of_lt (by norm_num; exact h)]

theorem wordField_bind {β : Type} {x : Nat} (h : x < 65536) (rest : List Byte) (q : Nat → Parser β) :
    (wordField >>= q) (wordBytes x ++ rest) = q x rest := parser_bind (wordField_wordBytes h rest) q

theorem wordField_bind_end {β : Type} {x : Nat} (h : x < 65536) (q : Nat → Parser β) : (wordField >>= q) (wordBytes x) = q x [] := by
  simpa using wordField_bind h [] q

theorem longField_bind {β : Type} {x : Nat} (h : x < 4294967296) (rest : List Byte) (q : Nat → Parser β) :
    (longField >>= q) (longBytes x ++ rest) = q x rest := parser_bind (longField_longBytes h rest) q

theorem longField_bind_end {β : Type} {x : Nat} (h : x < 4294967296) (q : Nat → Parser β) : (longField >>= q) (longBytes x) = q x [] := by
  simpa using longField_bind h [] q

/-- An optional field that is absent (R184). -/
theorem optionalField_absent {α : Type} (f : Parser α) (rest : List Byte) : optionalField f (0 :: rest) = some (none, rest) := rfl

/-- An optional field that is present (R184). -/
theorem optionalField_present {α : Type} {f : Parser α} {a : α} {bytes rest : List Byte} (h : f bytes = some (a, rest)) :
    optionalField f (1 :: bytes) = some (some a, rest) := by
  show (f >>= fun x => pure (some x)) bytes = _
  rw [parser_bind h, parser_pure]

/-- A presence byte above 1 makes the payload malformed (R184). -/
theorem optionalField_beyond {α : Type} (f : Parser α) (rest : List Byte) : optionalField f (2 :: rest) = none := rfl

/-- Samples read are the samples put there (R184). -/
theorem itemsField_samples (xs : List Sample) (rest : List Byte) :
    itemsField sampleField xs.length (xs.flatMap (fun x : Sample => wordBytes x.toNat) ++ rest) = some (xs, rest) := by
  induction xs with
  | nil => rfl
  | cons x xs ih =>
    have one : sampleField (wordBytes x.toNat ++ (xs.flatMap (fun x : Sample => wordBytes x.toNat) ++ rest))
        = some (x, xs.flatMap (fun x : Sample => wordBytes x.toNat) ++ rest) := by
      show (wordField >>= fun n => pure (BitVec.ofNat 16 n)) _ = _
      rw [wordField_bind x.isLt, parser_pure, BitVec.ofNat_toNat, BitVec.setWidth_eq]
    show (sampleField >>= fun x => itemsField sampleField xs.length >>= fun xs => pure (x :: xs)) _ = _
    rw [List.flatMap_cons, List.append_assoc, parser_bind one, parser_bind ih, parser_pure]

theorem listField_samples {xs : List Sample} (h : xs.length < 65536) :
    listField sampleField (listBytes (fun x : Sample => wordBytes x.toNat) xs) = some (xs, []) := by
  have items := itemsField_samples xs []
  rw [List.append_nil] at items
  show (wordField >>= fun n => itemsField sampleField n) (wordBytes xs.length ++ _) = _
  rw [wordField_bind h]
  exact items

/-- A payload whose fields take all its bytes (R184). -/
theorem readPayload_fields {α : Type} {f : Parser α} {bytes : List Byte} {x : α} (h : f bytes = some (x, [])) :
    readPayload f bytes = .fields x := by
  rw [readPayload, h]

theorem readPayload_malformed {α : Type} {f : Parser α} {bytes : List Byte} (h : f bytes = none ∨ ∃ x b rest, f bytes = some (x, b :: rest)) :
    readPayload f bytes = .malformed := by
  obtain e | ⟨x, b, rest, e⟩ := h <;> rw [readPayload, e]

/-- Settles O53: each shape's fields are read one after the other. -/
theorem payloadsAreRead : Obligations.PayloadsAreRead := by
  intro a b c ha hb hc
  have long : 65536 * b + c < 4294967296 := by omega
  have word := wordField_wordBytes hb []
  have last := wordField_wordBytes hc []
  rw [List.append_nil] at word last
  have fixed : delayField (1 :: wordBytes c) = some (.fixed c, []) := parser_bind last fun d => pure (DelayField.fixed d)
  simp only [List.append_assoc, List.cons_append, List.nil_append]
  refine ⟨?_, ?_, ?_, ?_, ?_, ?_, ?_, ?_, ?_, ?_, ?_, ?_, ?_, fun samples hs => ?_, fun x => ⟨?_, ?_⟩⟩
  · exact readPayload_fields (by simpa using wordField_wordBytes ha [])
  · exact readPayload_fields (wordField_bind ha [1] _)
  · exact readPayload_fields ((wordField_bind ha _ _).trans (wordField_bind hb [0] _))
  · exact readPayload_fields (((wordField_bind ha _ _).trans (wordField_bind hb _ _)).trans
      (parser_bind fixed _))
  · exact readPayload_fields ((wordField_bind ha _ _).trans (parser_bind (optionalField_absent wordField []) _))
  · exact readPayload_fields ((wordField_bind ha _ _).trans (parser_bind (optionalField_present word) _))
  · exact readPayload_malformed (.inl ((wordField_bind ha _ _).trans (parser_bind_none (optionalField_beyond wordField _) _)))
  · exact readPayload_malformed (.inr ⟨_, _, _, (wordField_bind ha _ _).trans (parser_bind (optionalField_absent wordField _) _)⟩)
  · exact readPayload_fields (((wordField_bind ha _ _).trans (wordField_bind hb _ _)).trans (parser_bind (optionalField_present last) _))
  · exact readPayload_fields (((wordField_bind ha _ _).trans (longField_bind long _ _)).trans (parser_bind (optionalField_absent longField []) _))
  · exact readPayload_fields ((wordField_bind ha _ _).trans (longField_bind_end long _))
  · exact readPayload_fields (((wordField_bind ha _ _).trans (wordField_bind hb _ _)).trans
      ((byteField_bind 0 _ _).trans (wordField_bind_end hc _)))
  · exact readPayload_fields ((wordField_bind ha _ _).trans (wordField_bind hb [2] _))
  · exact readPayload_fields (((wordField_bind ha _ _).trans (longField_bind (by omega) _ _)).trans (parser_bind (listField_samples hs) _))
  · exact readPayload_malformed (.inr ⟨_, _, _, wordField_wordBytes ha [x]⟩)
  · exact readPayload_malformed (.inl rfl)

/-! ### Directory entries (Table 6-8) -/

theorem numberBytes_eq_map (w n : Nat) : numberBytes w n = (List.range w).map fun i => BitVec.ofNat 8 (n / 256 ^ i) := by
  induction w generalizing n with
  | zero => rfl
  | succ w ih =>
    rw [numberBytes, ih, List.range_succ_eq_map, List.map_cons, List.map_map, pow_zero, Nat.div_one]
    refine congrArg _ (List.map_congr_left fun i _ => ?_)
    rw [Function.comp_apply, Nat.succ_eq_add_one, pow_succ', Nat.div_div_eq_div_mul]

@[simp] theorem numberBytes_length (w n : Nat) : (numberBytes w n).length = w := by
  induction w generalizing n with
  | zero => rfl
  | succ w ih => rw [numberBytes, List.length_cons, ih]

/-- A number read at the place where it was put is that number, in as many bytes (Table 6-8). -/
theorem entryNumber_numberBytes (w n place : Nat) (front back : List Byte) (at_ : front.length = place) :
    entryNumber (front ++ (numberBytes w n ++ back)) place w = n % 256 ^ w := by
  induction w generalizing n place front with
  | zero => rw [pow_zero, Nat.mod_one]; rfl
  | succ w ih =>
    have rest := ih (n / 256) (place + 1) (front ++ [BitVec.ofNat 8 n]) (by rw [List.length_append, at_]; rfl)
    have same : front ++ [BitVec.ofNat 8 n] ++ (numberBytes w (n / 256) ++ back) = front ++ (numberBytes (w + 1) n ++ back) := by
      rw [numberBytes, List.append_assoc]
      rfl
    rw [same] at rest
    have here : (front ++ (numberBytes (w + 1) n ++ back)).getD place 0 = BitVec.ofNat 8 n := by
      rw [← at_, numberBytes, List.cons_append, List.getD_eq_getElem?_getD, List.getElem?_append_right (le_refl _), Nat.sub_self]
      rfl
    have digits : n % 256 ^ (w + 1) = n % 256 + 256 * (n / 256 % 256 ^ w) := by rw [pow_succ', Nat.mod_mul]
    rw [entryNumber, rest, here, BitVec.toNat_ofNat, digits]

/-- Bytes 0 to 143 of a stored entry, number by number (Table 6-8). -/
def entryParts (code flag length loop sum count : Nat) (slabs : List Nat) : List Byte :=
  numberBytes 1 code ++ (numberBytes 1 flag ++ (numberBytes 4 length ++ (numberBytes 4 loop ++ (numberBytes 4 sum ++
    (numberBytes 2 count ++ slabs.flatMap (numberBytes 2))))))

/-- The slab list as stored: 64 places, zeros behind the last. -/
def storedSlabs (slabs : List Nat) : List Nat := (slabs ++ List.replicate 64 0).take 64

theorem flatMap_numberBytes_length (w : Nat) (xs : List Nat) : (xs.flatMap (numberBytes w)).length = w * xs.length := by
  rw [List.length_flatMap]
  simp [Nat.mul_comm]

theorem entryParts_length (code flag length loop sum count : Nat) (slabs : List Nat) :
    (entryParts code flag length loop sum count (storedSlabs slabs)).length = 144 := by
  unfold entryParts
  simp only [List.length_append, numberBytes_length, flatMap_numberBytes_length, storedSlabs]
  simp

/-- The code that a state is stored as (Table 6-8). -/
def ClipState.stored : ClipState → Nat
  | .empty => 0
  | .writing => 0
  | .ready => 2
  | .damaged => 3
  | .retiring => 4

theorem entryFields_of_kept {c : Clip} (kept : c.state ≠ .empty ∧ c.state ≠ .writing) : entryFields c =
    entryParts c.state.stored (if c.loopStart.isSome then 1 else 0) c.length (c.loopStart.getD 0) c.sum.toNat c.slabs.length
      (storedSlabs c.slabs) := by
  obtain ⟨one, two⟩ := kept
  have taken : (c.state ≠ .empty && c.state ≠ .writing) = true := by simp [one, two]
  unfold entryFields entryParts storedSlabs
  simp only [taken, if_true, ← numberBytes_eq_map, List.append_assoc]
  cases h : c.state with
  | writing => exact absurd h two
  | _ => rfl

theorem entryFields_of_not_kept {c : Clip} (gone : c.state = .empty ∨ c.state = .writing) : entryFields c = entryFields Clip.empty := by
  unfold entryFields
  obtain h | h := gone <;> rw [h] <;> rfl

section Parts
variable (code flag length loop sum count : Nat) (slabs : List Nat) (back : List Byte)

theorem entryParts_code : entryNumber (entryParts code flag length loop sum count slabs ++ back) 0 1 = code % 256 := by
  unfold entryParts
  simp only [List.append_assoc]
  exact entryNumber_numberBytes 1 code 0 [] _ rfl

theorem entryParts_flag : entryNumber (entryParts code flag length loop sum count slabs ++ back) 1 1 = flag % 256 := by
  unfold entryParts
  simp only [List.append_assoc]
  exact entryNumber_numberBytes 1 flag 1 (numberBytes 1 code) _ rfl

theorem entryParts_lengthField : entryNumber (entryParts code flag length loop sum count slabs ++ back) 2 4 = length % 4294967296 := by
  unfold entryParts
  simp only [List.append_assoc]
  exact entryNumber_numberBytes 4 length 2 (numberBytes 1 code ++ numberBytes 1 flag) _ rfl

theorem entryParts_loop : entryNumber (entryParts code flag length loop sum count slabs ++ back) 6 4 = loop % 4294967296 := by
  unfold entryParts
  simp only [List.append_assoc]
  exact entryNumber_numberBytes 4 loop 6 (numberBytes 1 code ++ (numberBytes 1 flag ++ numberBytes 4 length)) _ rfl

theorem entryParts_sum : entryNumber (entryParts code flag length loop sum count slabs ++ back) 10 4 = sum % 4294967296 := by
  unfold entryParts
  simp only [List.append_assoc]
  exact entryNumber_numberBytes 4 sum 10 (numberBytes 1 code ++ (numberBytes 1 flag ++ (numberBytes 4 length ++ numberBytes 4 loop))) _ rfl

theorem entryParts_count : entryNumber (entryParts code flag length loop sum count slabs ++ back) 14 2 = count % 65536 := by
  unfold entryParts
  simp only [List.append_assoc]
  exact entryNumber_numberBytes 2 count 14
    (numberBytes 1 code ++ (numberBytes 1 flag ++ (numberBytes 4 length ++ (numberBytes 4 loop ++ numberBytes 4 sum)))) _ rfl

theorem entryParts_slab {i : Nat} (h : i < slabs.length) :
    entryNumber (entryParts code flag length loop sum count slabs ++ back) (16 + 2 * i) 2 = slabs[i] % 65536 := by
  have split : slabs = slabs.take i ++ slabs[i] :: slabs.drop (i + 1) := by rw [List.cons_getElem_drop_succ, List.take_append_drop]
  have parts : entryParts code flag length loop sum count slabs ++ back = entryParts code flag length loop sum count (slabs.take i) ++
      (numberBytes 2 slabs[i] ++ ((slabs.drop (i + 1)).flatMap (numberBytes 2) ++ back)) := by
    conv_lhs => rw [split]
    unfold entryParts
    simp only [List.flatMap_append, List.flatMap_cons, List.append_assoc]
  rw [parts]
  refine entryNumber_numberBytes 2 slabs[i] _ _ _ ?_
  unfold entryParts
  simp only [List.length_append, numberBytes_length, flatMap_numberBytes_length, List.length_take]
  omega

end Parts

theorem byteSum_lt (bytes : List Byte) : byteSum bytes < 65536 := Nat.mod_lt _ (by decide)

/-- The fields of a stored entry judged in a state that they may have (R136). -/
def judgeStored (bytes : List Byte) (state : ClipState) : Stored :=
  if inRanges bytes (storedClip bytes state) then .good (storedClip bytes state) else .bad

/-- An entry stored with its check is found as its first byte says (R136). -/
theorem readEntry_of_fields {fields : List Byte} (length : fields.length = 144) {code : Nat}
    (named : entryNumber (fields ++ wordBytes (byteSum fields)) 0 1 = code) :
    (code = 2 → readEntry (fields ++ wordBytes (byteSum fields)) = judgeStored (fields ++ wordBytes (byteSum fields)) .ready) ∧
    (code = 3 → readEntry (fields ++ wordBytes (byteSum fields)) = judgeStored (fields ++ wordBytes (byteSum fields)) .damaged) ∧
    (code = 0 ∨ code = 4 → readEntry (fields ++ wordBytes (byteSum fields)) = .blank) := by
  have check : entryNumber (fields ++ wordBytes (byteSum fields)) 144 2 = byteSum fields := by
    have read := entryNumber_numberBytes 2 (byteSum fields) 144 fields [] length
    rw [List.append_nil] at read
    exact read.trans (Nat.mod_eq_of_lt (byteSum_lt fields))
  have body : (fields ++ wordBytes (byteSum fields)).take 144 = fields := List.take_left' length
  unfold readEntry
  rw [check, body, if_neg (not_not.2 rfl), named]
  refine ⟨?_, ?_, ?_⟩
  · rintro rfl
    rfl
  · rintro rfl
    rfl
  · rintro (rfl | rfl) <;> rfl

theorem entryImage_eq (c : Clip) : entryImage c = entryFields c ++ wordBytes (byteSum (entryFields c)) := rfl

theorem entryFields_empty : entryFields Clip.empty = entryParts 0 0 0 0 0 0 (storedSlabs []) := by decide

/-- The stored fields of an entry in its ranges are the entry (R132, R136). -/
theorem storedClip_entry {c : Clip} {state : ClipState} {code flag : Nat} {back : List Byte} (short : c.length ≤ 2097152)
    (loop : ∀ y, c.loopStart = some y → y < c.length) (few : c.slabs.length ≤ 64) (range : ∀ n ∈ c.slabs, 4 ≤ n ∧ n < 1024)
    (flags : flag = if c.loopStart.isSome then 1 else 0) :
    storedClip (entryParts code flag c.length (c.loopStart.getD 0) c.sum.toNat c.slabs.length (storedSlabs c.slabs) ++ back) state
      = { c with state := state, useCount := 0 } := by
  have loopStart : (if flag % 256 = 0 then none else some (c.loopStart.getD 0 % 4294967296)) = c.loopStart := by
    rw [flags]
    cases h : c.loopStart with
    | none => rfl
    | some y =>
      have := loop y h
      rw [if_neg (by simp), Option.getD_some, Nat.mod_eq_of_lt (by omega)]
  have slabs : ((List.range (min 64 c.slabs.length)).map fun i => entryNumber
      (entryParts code flag c.length (c.loopStart.getD 0) c.sum.toNat c.slabs.length (storedSlabs c.slabs) ++ back) (16 + 2 * i) 2) = c.slabs := by
    refine List.ext_getElem (by simp [few]) fun i hi hi' => ?_
    have place : i < (storedSlabs c.slabs).length := by
      simp [storedSlabs]
      omega
    have same : (storedSlabs c.slabs)[i] = c.slabs[i] := by
      simp [storedSlabs, List.getElem_append_left hi']
    have bounds := range c.slabs[i] (List.getElem_mem hi')
    rw [List.getElem_map, List.getElem_range, entryParts_slab _ _ _ _ _ _ _ _ place, same, Nat.mod_eq_of_lt (by omega)]
  unfold storedClip
  rw [entryParts_flag, entryParts_lengthField, entryParts_loop, entryParts_sum, entryParts_count, loopStart,
    Nat.mod_eq_of_lt (show c.length < 4294967296 by omega), Nat.mod_eq_of_lt (show c.slabs.length < 65536 by omega), slabs,
    Nat.mod_eq_of_lt c.sum.isLt, BitVec.ofNat_toNat, BitVec.setWidth_eq]

/-- Settles O55: each number is read at the place where the image has it; the check is that of the image. -/
theorem entryRoundTrip : Obligations.EntryRoundTrip := by
  refine ⟨fun c state long short loop more fewer range => ?kept, fun c state => ?blank⟩
  case kept =>
    have few : c.slabs.length ≤ 64 := by omega
    have fields := entryFields_of_kept (c := c) (by obtain h | h := state <;> rw [h] <;> exact ⟨nofun, nofun⟩)
    have length : (entryFields c).length = 144 := by rw [fields, entryParts_length]
    refine ⟨by rw [entryImage_eq, List.length_append, length]; rfl, ?_⟩
    let back := wordBytes (byteSum (entryFields c))
    have count : c.slabs.length = slabsFor c.length := by
      unfold slabsFor Config.slabSamples
      omega
    have good : ∀ state, inRanges
        (entryParts c.state.stored (if c.loopStart.isSome then 1 else 0) c.length (c.loopStart.getD 0) c.sum.toNat c.slabs.length
          (storedSlabs c.slabs) ++ back) { c with state := state, useCount := 0 } = true := by
      intro state
      have shape : goodShape c.length c.loopStart = true := by
        unfold goodShape
        cases h : c.loopStart with
        | none => simp [long, Config.maxClip, short]
        | some y => simp [long, Config.maxClip, short, loop y h]
      show (goodShape c.length c.loopStart && decide (entryNumber _ 14 2 = slabsFor c.length) && c.slabs.all _) = true
      rw [entryParts_count, Nat.mod_eq_of_lt (show c.slabs.length < 65536 by omega), shape, ← count]
      simp only [decide_true, Bool.true_and, List.all_eq_true]
      intro n hn
      simp [Config.indexSlabs, Config.slabs, range n hn]
    have judged : ∀ state, judgeStored (entryFields c ++ back) state = .good { c with state := state, useCount := 0 } := fun state => by
      rw [fields]
      exact (congrArg (fun x => if inRanges _ x = true then Stored.good x else .bad)
        (storedClip_entry short loop few range rfl)).trans (if_pos (good state))
    have named : entryNumber (entryFields c ++ back) 0 1 = c.state.stored % 256 := by rw [fields, entryParts_code]
    obtain ⟨ready, damaged, _⟩ := readEntry_of_fields length named
    rw [entryImage_eq]
    obtain h | h := state
    · exact (ready (by rw [h]; rfl)).trans ((judged .ready).trans (by rw [h]))
    · exact (damaged (by rw [h]; rfl)).trans ((judged .damaged).trans (by rw [h]))
  case blank =>
    have blank : ∀ code flag length loop sum count slabs, code % 256 = 0 ∨ code % 256 = 4 →
        entryFields c = entryParts code flag length loop sum count (storedSlabs slabs) → readEntry (entryImage c) = .blank := by
      intro code flag length loop sum count slabs named fields
      have code : entryNumber (entryFields c ++ wordBytes (byteSum (entryFields c))) 0 1 = code % 256 := by
        generalize wordBytes (byteSum (entryFields c)) = back
        rw [fields, entryParts_code]
      exact (readEntry_of_fields (by rw [fields, entryParts_length]) code).2.2 named
    obtain h | h | h := state
    · exact blank _ _ _ _ _ _ _ (.inl rfl) ((entryFields_of_not_kept (.inl h)).trans entryFields_empty)
    · exact blank _ _ _ _ _ _ _ (.inl rfl) ((entryFields_of_not_kept (.inr h)).trans entryFields_empty)
    · exact blank _ _ _ _ _ _ _ (.inr (by rw [h]; rfl)) (entryFields_of_kept (by rw [h]; exact ⟨nofun, nofun⟩))

end Sys2Proof.Machine
end

section
set_option Elab.async false
/-! ## The control link: bytes clocked in and out, link errors, messages (O48, O49, O50) -/

namespace Sys2Proof.Machine

/-! ### The receiver set -/

@[simp] theorem State.setReceiver_receiver (s : State) (r : Receiver) : (s.setReceiver r).link.receiver = r := rfl
@[simp] theorem State.setReceiver_setReceiver (s : State) (r q : Receiver) : (s.setReceiver r).setReceiver q = s.setReceiver q := rfl

theorem State.setReceiver_self (s : State) : s.setReceiver s.link.receiver = s := rfl

theorem Link.choose_setReceiver (k : Link) (r : Receiver) : ({ k with receiver := r } : Link).choose = { k.choose with receiver := r } := by
  unfold Link.choose
  cases h : k.sending <;> simp [h]

theorem Link.placeReport_setReceiver (k : Link) (r : Receiver) (x : Report) :
    ({ k with receiver := r } : Link).placeReport x = { k.placeReport x with receiver := r } := by
  unfold Link.placeReport
  split
  · rfl
  · exact Link.choose_setReceiver { k with reports := k.reports ++ [x] } r

theorem State.linkError_setReceiver (s : State) (r : Receiver) (cause : LinkCause) :
    (s.setReceiver r).linkError cause = (s.linkError cause).setReceiver r := by
  unfold State.linkError State.report State.setReceiver
  dsimp only
  rw [← Link.placeReport_setReceiver]

theorem State.reply_setReceiver (s : State) (r : Receiver) (x : Reply) : (s.setReceiver r).reply x = (s.reply x).setReceiver r := by
  unfold State.reply State.setReceiver
  dsimp only
  rw [Link.placeReply, Link.placeReply, ← Link.choose_setReceiver]

/-! ### Bytes taken in that do nothing but move the receiver -/

/-- The receiver after a byte that does nothing else; none for a byte that ends a frame or comes too late (R185). -/
def Receiver.quiet (now : BitVec 32) (r : Receiver) (b : Byte) : Option Receiver :=
  match r.frame? with
  | none => some (if b = Config.startMarker then .frame now [] else r)
  | some (start, got) =>
    if Config.frameTimeout < (now - start).toNat ∨ judgeFrame (got ++ [b]) ≠ .unfinished then none
    else some (collecting start (got ++ [b]))

theorem Receiver.eq_hunt_of_frame {r : Receiver} (h : r.frame? = none) : r = .hunt := by
  cases r with
  | hunt => rfl
  | _ => cases h

theorem State.takeByte_quiet {s : State} {b : Byte} {r : Receiver} (h : s.link.receiver.quiet s.highway.period b = some r) :
    s.takeByte b = s.setReceiver r := by
  unfold Receiver.quiet at h
  unfold State.takeByte
  split at h
  · rename_i hunting
    rw [hunting]
    dsimp only
    rw [← Option.some.inj h, State.huntByte]
    split
    · rfl
    · exact s.setReceiver_self.symm
  · rename_i start got receiving
    split at h
    · cases h
    · rename_i inTime
      obtain ⟨early, unfinished⟩ := not_or.1 inTime
      have unexpired : s.expired start = false := decide_eq_false early
      rw [receiving]
      dsimp only
      rw [unexpired, State.judgeBytes, not_not.1 unfinished, ← Option.some.inj h]
      rfl

/-- The receiver after bytes that do nothing else. -/
def Receiver.quietly (now : BitVec 32) : Receiver → List Byte → Option Receiver
  | r, [] => some r
  | r, b :: bytes => (r.quiet now b).bind fun q => q.quietly now bytes

/-- In HUNT no byte but a start marker does anything (R185). -/
theorem Receiver.quietly_hunt {bytes : List Byte} (h : 0xA5 ∉ bytes) (now : BitVec 32) : Receiver.hunt.quietly now bytes = some .hunt := by
  induction bytes with
  | nil => rfl
  | cons b bytes ih =>
    have other : b ≠ Config.startMarker := fun e => h (e ▸ List.mem_cons_self)
    rw [quietly, quiet]
    simp only [frame?, other, if_false, Option.bind_some]
    exact ih fun k => h (List.mem_cons_of_mem _ k)

theorem Receiver.frame?_collecting (start : BitVec 32) (bytes : List Byte) : (collecting start bytes).frame? = some (start, bytes) := by
  unfold collecting
  split <;> rfl

/-- Bytes of a frame that is not yet finished are collected (R185). -/
theorem Receiver.quietly_frame {r : Receiver} {now start : BitVec 32} {got : List Byte} (receiving : r.frame? = some (start, got))
    (inTime : (now - start).toNat ≤ 250) {bytes : List Byte} (some_ : bytes ≠ [])
    (unfinished : ∀ n, n ≤ bytes.length → judgeFrame (got ++ bytes.take n) = .unfinished) :
    r.quietly now bytes = some (collecting start (got ++ bytes)) := by
  induction bytes generalizing r got with
  | nil => exact absurd rfl some_
  | cons b bytes ih =>
    have early : ¬ Config.frameTimeout < (now - start).toNat := not_lt.2 inTime
    have one : r.quiet now b = some (collecting start (got ++ [b])) := by
      rw [quiet, receiving]
      exact if_neg (not_or.2 ⟨early, not_not.2 (unfinished 1 (by simp))⟩)
    rw [quietly, one, Option.bind_some]
    cases bytes with
    | nil => rfl
    | cons c bytes =>
      have rest := ih (r := collecting start (got ++ [b])) (got := got ++ [b]) (frame?_collecting _ _) (List.cons_ne_nil _ _)
        fun n hn => by
          have part := unfinished (n + 1) (Nat.succ_le_succ hn)
          rw [List.take_succ_cons] at part
          rwa [List.append_assoc, List.singleton_append]
      rw [rest, List.append_assoc, List.singleton_append]

theorem Receiver.quietly_append (now : BitVec 32) (r : Receiver) (xs ys : List Byte) :
    r.quietly now (xs ++ ys) = (r.quietly now xs).bind fun q => q.quietly now ys := by
  induction xs generalizing r with
  | nil => rfl
  | cons x xs ih =>
    rw [List.cons_append, quietly, quietly, Option.bind_assoc]
    exact congrArg _ (funext fun q => ih q)

/-! ### Bytes sent -/

/-- The byte sent next is not the last of the reply that a soft reset waits for (R194). -/
def State.sendsPlainly (s : State) : Prop :=
  s.link.paused = false ∨ s.link.sending ≠ .reply ∨ s.link.replies.head?.any Reply.isReset = false
    ∨ ∃ m, s.link.message = some m ∧ s.link.position + 1 < m.length

theorem Link.message_setReceiver (k : Link) (r : Receiver) : ({ k with receiver := r } : Link).message = k.message := rfl

section MessageSent
variable {s : State}

theorem State.messageSent_fill (sending : s.link.sending = .fill) : s.messageSent = s := by
  unfold State.messageSent
  rw [sending]

/-- A reply's last byte, where no soft reset waits for it (R190, R192). -/
theorem State.messageSent_reply {r : Reply} {rest : List Reply} (sending : s.link.sending = .reply) (replies : s.link.replies = r :: rest)
    (plain : ¬ (s.link.paused = true ∧ r.isReset = true)) :
    s.messageSent = { s with link := (Link.endMessage { s.link with replies := rest } r.frame).choose } := by
  unfold State.messageSent
  rw [sending, replies]
  exact congrArg (fun t : State => { t with link := t.link.choose }) (if_neg plain)

/-- The last byte of the reply that a soft reset waits for (R194). -/
theorem State.messageSent_reset {r : Reply} {rest : List Reply} (sending : s.link.sending = .reply) (replies : s.link.replies = r :: rest)
    (due : s.link.paused = true ∧ r.isReset = true) :
    s.messageSent = (fun t : State => { t with link := t.link.choose })
      (State.softReset { s with link := Link.endMessage { s.link with replies := rest } r.frame }) := by
  unfold State.messageSent
  rw [sending, replies]
  exact congrArg (fun t : State => { t with link := t.link.choose }) (if_pos due)

theorem State.messageSent_report {r : Report} {rest : List Report} (sending : s.link.sending = .report) (reports : s.link.reports = r :: rest) :
    s.messageSent = { s with link := (Link.endMessage { s.link with reports := rest } r.frame).choose } := by
  unfold State.messageSent
  rw [sending, reports]

/-- A queue that is being sent from and is empty sends nothing (R192). -/
theorem State.messageSent_none (none : s.link.message = none) : s.messageSent = s := by
  unfold Link.message at none
  cases sending : s.link.sending with
  | fill => exact State.messageSent_fill sending
  | reply =>
    rw [sending] at none
    unfold State.messageSent
    rw [sending, List.head?_eq_none_iff.1 (Option.map_eq_none_iff.1 none)]
  | report =>
    rw [sending] at none
    unfold State.messageSent
    rw [sending, List.head?_eq_none_iff.1 (Option.map_eq_none_iff.1 none)]

end MessageSent

/-- The end of a message, without the soft reset, leaves the receiver alone (R190 to R192). -/
theorem State.messageSent_setReceiver {s : State} (plain : s.link.paused = false ∨ s.link.sending ≠ .reply
      ∨ s.link.replies.head?.any Reply.isReset = false) (r : Receiver) :
    (s.setReceiver r).messageSent = s.messageSent.setReceiver r := by
  cases sending : s.link.sending with
  | fill => rw [State.messageSent_fill sending, State.messageSent_fill (s := s.setReceiver r) sending]
  | reply =>
    cases replies : s.link.replies with
    | nil =>
      have none : s.link.message = none := by rw [Link.message, sending, replies]; rfl
      rw [State.messageSent_none none, State.messageSent_none (s := s.setReceiver r) none]
    | cons x rest =>
      have none : ¬ (s.link.paused = true ∧ x.isReset = true) := by
        rintro ⟨paused, reset⟩
        simp [paused, reset, sending, replies] at plain
      rw [State.messageSent_reply sending replies none, State.messageSent_reply (s := s.setReceiver r) sending replies none]
      exact congrArg (fun k : Link => { s with link := k })
        (Link.choose_setReceiver (Link.endMessage { s.link with replies := rest } x.frame) r)
  | report =>
    cases reports : s.link.reports with
    | nil =>
      have none : s.link.message = none := by rw [Link.message, sending, reports]; rfl
      rw [State.messageSent_none none, State.messageSent_none (s := s.setReceiver r) none]
    | cons x rest =>
      rw [State.messageSent_report sending reports, State.messageSent_report (s := s.setReceiver r) sending reports]
      exact congrArg (fun k : Link => { s with link := k })
        (Link.choose_setReceiver (Link.endMessage { s.link with reports := rest } x.frame) r)

theorem State.sendByte_setReceiver {s : State} (plain : s.sendsPlainly) (r : Receiver) :
    (s.setReceiver r).sendByte = s.sendByte.setReceiver r := by
  unfold State.sendByte
  rw [show (s.setReceiver r).link.message = s.link.message from rfl, show (s.setReceiver r).link.position = s.link.position from rfl]
  split
  · rfl
  · rename_i m sent
    split
    · rfl
    · rename_i last
      refine State.messageSent_setReceiver ?_ r
      obtain h | h | h | ⟨m', e, short⟩ := plain
      · exact .inl h
      · exact .inr (.inl h)
      · exact .inr (.inr h)
      · rw [sent] at e
        exact absurd (Option.some.inj e ▸ short) last

/-- Bytes sent, one after the other. -/
def State.sendBytes : Nat → State → State
  | 0, s => s
  | n + 1, s => sendBytes n s.sendByte

/-- None of the next n bytes sent is the last of the reply that a soft reset waits for. -/
def State.SendPlainly : Nat → State → Prop
  | 0, _ => True
  | n + 1, s => s.sendsPlainly ∧ SendPlainly n s.sendByte

theorem State.sendsPlainly_setReceiver (s : State) (r : Receiver) : (s.setReceiver r).sendsPlainly ↔ s.sendsPlainly := Iff.rfl

theorem State.sendBytes_setReceiver {n : Nat} {s : State} (plain : s.SendPlainly n) (r : Receiver) :
    sendBytes n (s.setReceiver r) = (sendBytes n s).setReceiver r := by
  induction n generalizing s with
  | zero => rfl
  | succ n ih => rw [sendBytes, State.sendByte_setReceiver plain.1, ih plain.2, sendBytes]

theorem State.sendPlainly_setReceiver {n : Nat} {s : State} (plain : s.SendPlainly n) (r : Receiver) : (s.setReceiver r).SendPlainly n := by
  induction n generalizing s with
  | zero => trivial
  | succ n ih => exact ⟨plain.1, by rw [State.sendByte_setReceiver plain.1]; exact ih plain.2⟩

theorem State.sendBytes_succ (n : Nat) (s : State) : sendBytes (n + 1) s = (sendBytes n s).sendByte := by
  induction n generalizing s with
  | zero => rfl
  | succ n ih => exact ih s.sendByte

theorem State.sendPlainly_succ {n : Nat} {s : State} (h : s.SendPlainly n) (last : (sendBytes n s).sendsPlainly) : s.SendPlainly (n + 1) := by
  induction n generalizing s with
  | zero => exact ⟨last, trivial⟩
  | succ n ih => exact ⟨h.1, ih h.2 last⟩

theorem State.sendPlainly_of_succ {n : Nat} {s : State} (h : s.SendPlainly (n + 1)) : s.SendPlainly n ∧ (sendBytes n s).sendsPlainly := by
  induction n generalizing s with
  | zero => exact ⟨trivial, h.1⟩
  | succ n ih => exact ⟨⟨h.1, (ih h.2).1⟩, (ih h.2).2⟩

theorem State.messageSent_link {s : State} (plain : s.link.paused = false ∨ s.link.sending ≠ .reply
    ∨ s.link.replies.head?.any Reply.isReset = false) : ∃ k, s.messageSent = { s with link := k } := by
  cases sending : s.link.sending with
  | fill => exact ⟨s.link, State.messageSent_fill sending⟩
  | reply =>
    cases replies : s.link.replies with
    | nil => exact ⟨s.link, State.messageSent_none (by rw [Link.message, sending, replies]; rfl)⟩
    | cons x rest =>
      refine ⟨_, State.messageSent_reply sending replies ?_⟩
      rintro ⟨paused, reset⟩
      simp [paused, reset, sending, replies] at plain
  | report =>
    cases reports : s.link.reports with
    | nil => exact ⟨s.link, State.messageSent_none (by rw [Link.message, sending, reports]; rfl)⟩
    | cons x rest => exact ⟨_, State.messageSent_report sending reports⟩

/-- A byte sent short of a soft reset changes the link alone, and not its receiver (R182). -/
theorem State.sendByte_link {s : State} (plain : s.sendsPlainly) :
    (∃ k, s.sendByte = { s with link := k }) ∧ s.sendByte.link.receiver = s.link.receiver := by
  refine ⟨?_, ?_⟩
  · obtain ⟨_, e⟩ | ⟨_, _, _, e⟩ | ⟨m, sent, last, e⟩ := s.sendByte_cases <;> rw [e]
    · exact ⟨_, rfl⟩
    · exact ⟨_, rfl⟩
    · refine State.messageSent_link ?_
      obtain h | h | h | ⟨m', e', short⟩ := plain
      · exact .inl h
      · exact .inr (.inl h)
      · exact .inr (.inr h)
      · rw [sent] at e'
        have := Option.some.inj e' ▸ short
        omega
  · have own := State.sendByte_setReceiver plain s.link.receiver
    rw [State.setReceiver_self] at own
    rw [own]
    rfl

/-- Bytes of a message short of its last: its next bytes go out (R182). -/
theorem State.sendBytes_part {s : State} {m : List Byte} (message : s.link.message = some m) {n : Nat} (short : s.link.position + n < m.length) :
    s.SendPlainly n ∧ ∃ out, sendBytes n s = { s with link := { s.link with position := s.link.position + n, outByte := out } }
      ∧ (0 < n → out = m.getD (s.link.position + n - 1) 0) := by
  induction n with
  | zero => exact ⟨trivial, s.link.outByte, rfl, fun k => absurd k (lt_irrefl 0)⟩
  | succ n ih =>
    obtain ⟨plain, out, e, _⟩ := ih (by omega)
    have message' : (sendBytes n s).link.message = some m := by rw [e]; exact message
    have position : (sendBytes n s).link.position = s.link.position + n := by rw [e]
    refine ⟨State.sendPlainly_succ plain (.inr (.inr (.inr ⟨m, message', by rw [position]; omega⟩))), m.getD (s.link.position + n) 0, ?_,
      fun _ => by rw [← Nat.add_assoc, Nat.add_sub_cancel]⟩
    rw [State.sendBytes_succ, State.sendByte, message']
    dsimp only
    rw [position, if_pos (by omega), e]
    rfl

/-- While no message is sent idle fill goes out (R182). -/
theorem State.sendBytes_fill {s : State} (none : s.link.message = none) (n : Nat) :
    s.SendPlainly n ∧ (0 < n → sendBytes n s = { s with link := { s.link with outByte := 0xFF } }) := by
  have plain : ∀ t : State, t.link.message = Option.none → t.sendsPlainly := fun t h => by
    unfold Link.message at h
    cases sending : t.link.sending with
    | fill => exact .inr (.inl (by rw [sending]; nofun))
    | reply =>
      rw [sending] at h
      exact .inr (.inr (.inl (by rw [Option.map_eq_none_iff.1 h]; rfl)))
    | report => exact .inr (.inl (by rw [sending]; nofun))
  have one : ∀ t : State, t.link.message = Option.none → t.sendByte = { t with link := { t.link with outByte := 0xFF } } := fun t h => by
    unfold State.sendByte
    rw [h]
    rfl
  induction n generalizing s with
  | zero => exact ⟨trivial, fun k => absurd k (lt_irrefl 0)⟩
  | succ n ih =>
    have next : s.sendByte.link.message = Option.none := by rw [one s none]; exact none
    obtain ⟨rest, sent⟩ := ih next
    refine ⟨⟨plain s none, rest⟩, fun _ => ?_⟩
    rw [State.sendBytes]
    cases n with
    | zero => exact one s none
    | succ n => rw [sent (Nat.succ_pos n), one s none]

/-- The message being sent is the oldest reply or the oldest report (R192). -/
theorem Link.message_eq_some {k : Link} {m : List Byte}
    (h : (∃ r rest, k.sending = .reply ∧ k.replies = r :: rest ∧ m = r.frame) ∨ ∃ r rest, k.sending = .report ∧ k.reports = r :: rest ∧ m = r.frame) :
    k.message = some m := by
  unfold Link.message
  obtain ⟨r, rest, sending, queue, rfl⟩ | ⟨r, rest, sending, queue, rfl⟩ := h <;> rw [sending, queue] <;> rfl

theorem Link.message_of_fill {k : Link} (h : k.sending = .fill) : k.message = none := by
  unfold Link.message
  rw [h]

/-- Bytes up to the last of a message: the byte before the last leave the position there, and the last ends the message (R182, R192). -/
theorem State.sendBytes_whole {s : State} {m : List Byte} (message : s.link.message = some m) {n : Nat}
    (whole : s.link.position + (n + 1) = m.length) :
    s.SendPlainly n ∧ ∃ out, sendBytes n s = { s with link := { s.link with position := s.link.position + n, outByte := out } } ∧
      sendBytes (n + 1) s = (State.messageSent { s with link := { s.link with position := s.link.position + n, outByte := out } }) := by
  obtain ⟨plain, out, e, _⟩ := State.sendBytes_part message (n := n) (by omega)
  refine ⟨plain, out, e, ?_⟩
  rw [State.sendBytes_succ, e, State.sendByte]
  rw [show ({ s with link := { s.link with position := s.link.position + n, outByte := out } } : State).link.message = some m from message]
  exact if_neg (show ¬ s.link.position + n + 1 < m.length by omega)

/-- What the statements say of n bytes sent is what n bytes sent one after the other come to (R182, R190 to R192). -/
theorem sent_iff_sendBytes {s u : State} {n : Nat} (h : Sent s u n) : u = State.sendBytes n s ∧ s.SendPlainly n := by
  obtain ⟨some, ⟨sending, rfl⟩ | ⟨m, message, short, rfl⟩ | ⟨r, rest, sending, replies, whole, plain, rfl⟩
    | ⟨r, rest, sending, reports, whole, rfl⟩⟩ := h
  · obtain ⟨plain, e⟩ := State.sendBytes_fill (Link.message_of_fill sending) n
    exact ⟨(e some).symm, plain⟩
  · obtain ⟨plain, out, e, last⟩ := State.sendBytes_part (Link.message_eq_some message) short
    rw [last some] at e
    exact ⟨e.symm, plain⟩
  · obtain ⟨n, rfl⟩ := Nat.exists_eq_succ_of_ne_zero some.ne'
    have none : ¬ (s.link.paused = true ∧ r.isReset = true) := by
      rintro ⟨paused, reset⟩
      simp only [Reply.isReset, Bool.and_eq_true, decide_eq_true_eq] at reset
      obtain h | h | h := plain
      · exact nomatch paused.symm.trans h
      · exact h reset.1
      · exact h reset.2
    obtain ⟨plainly, out, part, e⟩ := State.sendBytes_whole (Link.message_eq_some (.inl ⟨r, rest, sending, replies, rfl⟩)) whole
    have last : (State.sendBytes n s).sendsPlainly := by
      rw [part]
      by_cases paused : s.link.paused = true
      · refine .inr (.inr (.inl ?_))
        show s.link.replies.head?.any Reply.isReset = false
        rw [replies]
        simpa [paused] using none
      · exact .inl (by simpa using paused)
    refine ⟨?_, State.sendPlainly_succ plainly last⟩
    exact (e.trans (State.messageSent_reply (r := r) (rest := rest) sending replies none)).symm
  · obtain ⟨n, rfl⟩ := Nat.exists_eq_succ_of_ne_zero some.ne'
    obtain ⟨plainly, out, part, e⟩ := State.sendBytes_whole (Link.message_eq_some (.inr ⟨r, rest, sending, reports, rfl⟩)) whole
    have last : (State.sendBytes n s).sendsPlainly := by
      rw [part]
      exact .inr (.inl fun k => nomatch sending.symm.trans k)
    refine ⟨?_, State.sendPlainly_succ plainly last⟩
    exact (e.trans (State.messageSent_report (r := r) (rest := rest) sending reports)).symm

/-! ### Both at once -/

/-- Bytes that do nothing but move the receiver are taken in while as many go out (R182). -/
theorem State.clock_quiet {bytes : List Byte} {s : State} {r : Receiver}
    (taken : s.link.receiver.quietly s.highway.period bytes = some r) (plain : s.SendPlainly bytes.length) :
    s.clock bytes = (sendBytes bytes.length s).setReceiver r := by
  induction bytes generalizing s with
  | nil =>
    obtain rfl := Option.some.inj taken
    rfl
  | cons b bytes ih =>
    obtain ⟨q, one, rest⟩ := Option.bind_eq_some_iff.1 taken
    obtain ⟨⟨k, e⟩, receiver⟩ := State.sendByte_link plain.1
    have period : s.sendByte.highway.period = s.highway.period := by rw [e]
    have byte : s.clockByte b = s.sendByte.setReceiver q :=
      State.takeByte_quiet (by rw [receiver, period]; exact one)
    rw [State.clock_cons, byte]
    refine (ih ?_ (State.sendPlainly_setReceiver plain.2 q)).trans ?_
    · show q.quietly s.sendByte.highway.period bytes = some r
      rw [period]
      exact rest
    · rw [State.sendBytes_setReceiver plain.2]
      rfl

/-- Bytes that do nothing but move the receiver, and one byte more (R182, R185). -/
theorem State.clock_concat {bytes : List Byte} {s : State} {r : Receiver}
    (taken : s.link.receiver.quietly s.highway.period bytes = some r) (plain : s.SendPlainly (bytes.length + 1)) (b : Byte) :
    s.clock (bytes ++ [b]) = ((sendBytes (bytes.length + 1) s).setReceiver r).takeByte b := by
  obtain ⟨before, last⟩ := State.sendPlainly_of_succ plain
  rw [State.clock_append, State.clock_quiet taken before]
  show (((sendBytes bytes.length s).setReceiver r).sendByte).takeByte b = _
  rw [State.sendByte_setReceiver last, ← State.sendBytes_succ]

theorem State.sendBytes_highway {n : Nat} {s : State} (plain : s.SendPlainly n) :
    (sendBytes n s).highway = s.highway ∧ (sendBytes n s).link.receiver = s.link.receiver := by
  induction n generalizing s with
  | zero => exact ⟨rfl, rfl⟩
  | succ n ih =>
    obtain ⟨⟨k, e⟩, receiver⟩ := State.sendByte_link plain.1
    obtain ⟨highway, kept⟩ := ih plain.2
    exact ⟨highway.trans (by rw [e]), kept.trans receiver⟩

/-- The commands that bring bytes clock them (R182). -/
theorem exec_of_brings {s : State} {i : Instr} {bytes : List Byte} (h : Brings s i bytes) : exec i s = .next (s.clock bytes) := by
  obtain ⟨rfl, rfl⟩ | rfl | rfl | ⟨r, rest, sending, replies, rfl, named⟩ | ⟨r, rest, sending, reports, rfl, rfl⟩ := h
  · rfl
  · rfl
  · rfl
  · have remaining : s.link.remaining = r.frame.length - s.link.position := by
      rw [Link.remaining, Link.message_eq_some (.inl ⟨r, rest, sending, replies, rfl⟩)]
      rfl
    have read : s.readMessage = s.clock (List.replicate (r.frame.length - s.link.position) 0xFF) := by
      rw [State.readMessage, remaining]
      rfl
    obtain rfl | ⟨rfl, paused, code, status⟩ := named
    · exact congrArg _ read
    · have due : s.link.resetDue = true := by
        simp [Link.resetDue, paused, sending, replies, Reply.isReset, code, status]
      show (.next (if s.link.resetDue = true then s.readMessage else s) : Result) = _
      rw [if_pos due, read]
  · have remaining : s.link.remaining = r.frame.length - s.link.position := by
      rw [Link.remaining, Link.message_eq_some (.inr ⟨r, rest, sending, reports, rfl⟩)]
      rfl
    show (.next s.readMessage : Result) = _
    rw [State.readMessage, remaining]
    rfl

end Sys2Proof.Machine
end

section
set_option Elab.async false
/-! ## Frames received, link errors counted, messages sent (O48, O49, O50) -/

namespace Sys2Proof.Machine

/-! ### What a frame's bytes are judged to be before and at its end -/

theorem judgeFrame_short {bytes : List Byte} (h : bytes.length < 5) : judgeFrame bytes = .unfinished := if_pos h

/-- Before its last byte a frame is not yet judged (R185). -/
theorem judgeFrame_take {payload : List Byte} (h : payload.length ≤ 1020) (kind code tag x y : Byte) {n : Nat} (short : n < 7 + payload.length) :
    judgeFrame ((frameBody kind code tag payload ++ [x, y]).take n) = .unfinished := by
  by_cases header : n < 5
  · exact judgeFrame_short ((List.length_take_le n _).trans_lt header)
  · obtain ⟨m, rfl⟩ := Nat.exists_eq_add_of_le' (not_lt.1 header)
    have bytes : (frameBody kind code tag payload ++ [x, y]).take (m + 5) =
        kind :: code :: tag :: BitVec.ofNat 8 payload.length :: BitVec.ofNat 8 (payload.length / 256) :: (payload ++ [x, y]).take m := rfl
    have length : ((frameBody kind code tag payload ++ [x, y]).take (m + 5)).length = m + 5 := by
      rw [List.length_take, List.length_append, frameBody_length, List.length_cons, List.length_singleton]
      omega
    have announced : announcedLength ((frameBody kind code tag payload ++ [x, y]).take (m + 5)) = payload.length := by
      rw [bytes]
      exact wordBytes_value (by omega)
    unfold judgeFrame
    dsimp only
    rw [announced, length, if_neg header, if_neg (show ¬ Config.maxPayload < payload.length from not_lt.2 h), if_pos (by omega)]

/-- The parts of a frame's bytes that end before its last byte are not yet judged. -/
theorem judgeFrame_parts {payload : List Byte} (h : payload.length ≤ 1020) {kind code tag x y : Byte} {got bytes : List Byte} {n : Nat}
    (part : got ++ bytes = (frameBody kind code tag payload ++ [x, y]).take n) {m : Nat} (short : got.length + m < 7 + payload.length) :
    judgeFrame (got ++ bytes.take m) = .unfinished := by
  have front : got ++ bytes.take m = (frameBody kind code tag payload ++ [x, y]).take (min (got.length + m) n) := by
    rw [← List.take_take, ← part, List.take_length_add_append]
  rw [front]
  exact judgeFrame_take h kind code tag x y ((Nat.min_le_left _ _).trans_lt short)

/-- Up to the last payload byte the receiver is in FRAME, from there on in CHECK (R185). -/
theorem collecting_take {payload : List Byte} (h : payload.length ≤ 1020) (start : BitVec 32) (kind code tag x y : Byte) {n : Nat}
    (short : n < 7 + payload.length) :
    collecting start ((frameBody kind code tag payload ++ [x, y]).take n) =
      if n < 5 + payload.length then .frame start ((frameBody kind code tag payload ++ [x, y]).take n)
      else .check start ((frameBody kind code tag payload ++ [x, y]).take n) := by
  have length : ((frameBody kind code tag payload ++ [x, y]).take n).length = n := by
    rw [List.length_take, List.length_append, frameBody_length, List.length_cons, List.length_singleton]
    omega
  unfold collecting
  rw [length]
  by_cases header : n < 5
  · rw [if_neg fun k => absurd k.1 (not_le.2 header), if_pos (by omega)]
  · obtain ⟨m, rfl⟩ := Nat.exists_eq_add_of_le' (not_lt.1 header)
    have announced : announcedLength ((frameBody kind code tag payload ++ [x, y]).take (m + 5)) = payload.length :=
      wordBytes_value (by omega)
    rw [announced]
    by_cases body : m + 5 < 5 + payload.length
    · rw [if_pos body, if_neg (by omega)]
    · rw [if_neg body, if_pos (by omega)]

theorem wordBytes_inj {a b : Nat} (ha : a < 65536) (hb : b < 65536) (h : wordBytes a = wordBytes b) : a = b := by
  rw [wordBytes_eq, wordBytes_eq] at h
  obtain ⟨low, high, _⟩ := List.cons.inj h |>.imp_right List.cons.inj
  rw [← wordBytes_value ha, ← wordBytes_value hb, low, high]

/-! ### Commands that bring bytes -/

section Receive
variable {s u : State} {i : Instr} {bytes : List Byte}

/-- Bytes that do nothing but move the receiver (R182). -/
theorem exec_receive (brings : Brings s i bytes) (sent : Sent s u bytes.length) {r : Receiver}
    (taken : s.link.receiver.quietly s.highway.period bytes = some r) : exec i s = .next (u.setReceiver r) := by
  obtain ⟨rfl, plain⟩ := sent_iff_sendBytes sent
  rw [exec_of_brings brings, State.clock_quiet taken plain]

/-- In HUNT, bytes other than the start marker leave what is sent (R185). -/
theorem exec_receive_hunt (brings : Brings s i bytes) (sent : Sent s u bytes.length) (hunt : s.link.receiver = .hunt)
    (noMarker : 0xA5 ∉ bytes) : exec i s = .next u := by
  have taken := Receiver.quietly_hunt noMarker s.highway.period
  rw [← hunt] at taken
  rw [exec_receive brings sent taken]
  obtain ⟨rfl, plain⟩ := sent_iff_sendBytes sent
  rw [← (State.sendBytes_highway plain).2, State.setReceiver_self]

/-- Bytes that do nothing but move the receiver, and one more (R182). -/
theorem exec_receive_last {b : Byte} (brings : Brings s i (bytes ++ [b])) (sent : Sent s u (bytes.length + 1)) {r : Receiver}
    (taken : s.link.receiver.quietly s.highway.period bytes = some r) : exec i s = .next ((u.setReceiver r).takeByte b) := by
  obtain ⟨rfl, plain⟩ := sent_iff_sendBytes sent
  rw [exec_of_brings brings, State.clock_concat taken plain]

theorem State.dispose_setReceiver (s : State) (r : Receiver) (q : RequestFrame) :
    (s.setReceiver r).dispose q = (s.dispose q).setReceiver r := by
  unfold State.dispose
  rw [show (s.setReceiver r).link.places = s.link.places from rfl, show (s.setReceiver r).link.buffer = s.link.buffer from rfl]
  split
  · exact s.linkError_setReceiver r _
  · split
    · rfl
    · exact s.reply_setReceiver r _

/-- A frame's bytes, in time, up to a byte that ends it or not (R185, R186). -/
theorem exec_receive_frame {start : BitVec 32} {got : List Byte} (receiving : s.link.receiver.frame? = some (start, got))
    (inTime : (s.highway.period - start).toNat ≤ 250) (brings : Brings s i bytes) (sent : Sent s u bytes.length)
    (unfinished : ∀ n, n < bytes.length → judgeFrame (got ++ bytes.take n) = .unfinished) :
    (judgeFrame (got ++ bytes) = .unfinished → exec i s = .next (u.setReceiver (collecting start (got ++ bytes)))) ∧
    (∀ cause, judgeFrame (got ++ bytes) = .error cause → exec i s = .next ((u.linkError cause).setReceiver .hunt)) ∧
    ∀ q, judgeFrame (got ++ bytes) = .request q → exec i s = .next ((u.dispose q).setReceiver .hunt) := by
  have some_ : bytes ≠ [] := List.ne_nil_of_length_pos sent.1
  obtain ⟨init, b, rfl⟩ := List.eq_nil_or_concat' bytes |>.resolve_left some_
  rw [List.length_append, List.length_singleton] at sent unfinished
  have before : ∀ n, n ≤ init.length → judgeFrame (got ++ init.take n) = .unfinished := fun n hn => by
    have part := unfinished n (Nat.lt_succ_of_le hn)
    rwa [List.take_append_of_le_length hn] at part
  obtain ⟨r, taken, frame⟩ : ∃ r, s.link.receiver.quietly s.highway.period init = some r ∧ r.frame? = some (start, got ++ init) := by
    by_cases none : init = []
    · subst none
      exact ⟨s.link.receiver, rfl, by rw [List.append_nil]; exact receiving⟩
    · exact ⟨_, Receiver.quietly_frame receiving inTime none before, Receiver.frame?_collecting _ _⟩
  have last : exec i s = .next ((u.setReceiver r).takeByte b) := exec_receive_last brings sent taken
  have judged : (u.setReceiver r).takeByte b = (u.setReceiver r).judgeBytes start (got ++ (init ++ [b])) := by
    obtain ⟨rfl, plain⟩ := sent_iff_sendBytes sent
    have period := congrArg Highway.period (State.sendBytes_highway plain).1
    have unexpired : ((State.sendBytes (init.length + 1) s).setReceiver r).expired start = false := by
      refine decide_eq_false (not_lt.2 ?_)
      show ((State.sendBytes (init.length + 1) s).highway.period - start).toNat ≤ 250
      rw [period]
      exact inTime
    unfold State.takeByte
    rw [State.setReceiver_receiver, frame]
    dsimp only
    rw [unexpired, List.append_assoc]
    rfl
  rw [last, judged]
  unfold State.judgeBytes
  refine ⟨fun h => ?_, fun cause h => ?_, fun q h => ?_⟩
  · rw [h]
    rfl
  · rw [h]
    dsimp only
    rw [State.linkError_setReceiver, State.setReceiver_setReceiver]
  · rw [h]
    dsimp only
    rw [State.dispose_setReceiver, State.setReceiver_setReceiver]

/-- A byte that comes too late: the frame is discarded, and the byte judged in HUNT (R185). -/
theorem exec_receive_late {start : BitVec 32} {got : List Byte} (receiving : s.link.receiver.frame? = some (start, got))
    (late : 250 < (s.highway.period - start).toNat) {b : Byte} (brings : Brings s i [b]) (sent : Sent s u 1) :
    exec i s = .next ((u.linkError .timeout).setReceiver (if b = 0xA5 then .frame s.highway.period [] else .hunt)) := by
  rw [exec_receive_last (bytes := []) brings sent rfl]
  obtain ⟨rfl, plain⟩ := sent_iff_sendBytes sent
  obtain ⟨highway, receiver⟩ := State.sendBytes_highway plain
  rw [← receiver, State.setReceiver_self]
  have expired : (State.sendBytes 1 s).expired start = true := by
    refine decide_eq_true ?_
    rw [highway]
    exact late
  have period : (State.sendBytes 1 s).highway.period = s.highway.period := congrArg _ highway
  unfold State.takeByte
  rw [receiver, receiving]
  dsimp only
  rw [expired, if_pos rfl]
  unfold State.huntByte
  rw [← period]
  by_cases marker : b = 0xA5
  · rw [if_pos marker, if_pos (show b = Config.startMarker from marker)]
    rfl
  · rw [if_neg marker, if_neg (show ¬ b = Config.startMarker from marker)]

end Receive

theorem State.timeoutFrame_hunt {s : State} (h : s.link.receiver = .hunt) : s.timeoutFrame = s := by
  unfold State.timeoutFrame
  rw [h]
  rfl

theorem State.timeoutFrame_frame {s : State} {start : BitVec 32} {got : List Byte} (receiving : s.link.receiver.frame? = some (start, got)) :
    (250 < (s.highway.period - start).toNat → s.timeoutFrame = (s.linkError .timeout).setReceiver .hunt) ∧
    ((s.highway.period - start).toNat ≤ 250 → s.timeoutFrame = s) := by
  unfold State.timeoutFrame
  rw [receiving]
  exact ⟨fun late => if_pos (decide_eq_true late), fun inTime => if_neg fun h => absurd (of_decide_eq_true h) (not_lt.2 inTime)⟩

theorem Receiver.frame?_of_receiving {r : Receiver} {start : BitVec 32} {got : List Byte} (h : r = .frame start got ∨ r = .check start got) :
    r.frame? = some (start, got) := by
  obtain rfl | rfl := h <;> rfl

theorem State.dispose_full {u : State} (h : 8 ≤ u.link.places) (q : RequestFrame) : u.dispose q = u.linkError .overrun := if_pos h

theorem State.dispose_room {u : State} (free : u.link.places < 8) (room : u.link.buffer.length < 4) (q : RequestFrame) :
    u.dispose q = { u with link := { u.link with buffer := u.link.buffer ++ [q] } } := (if_neg (not_le.2 free)).trans (if_pos room)

theorem State.dispose_overload {u : State} (free : u.link.places < 8) (full : 4 ≤ u.link.buffer.length) (q : RequestFrame) :
    u.dispose q = u.reply ⟨q.code, q.tag, .overload, .none⟩ := (if_neg (not_le.2 free)).trans (if_neg (not_lt.2 full))

theorem judgeFrame_checked {payload : List Byte} (h : payload.length ≤ 1020) (kind code tag : Byte) (n : Nat) :
    judgeFrame (frameBody kind code tag payload ++ wordBytes n) =
      if wordBytes (crc (frameBody kind code tag payload)).toNat ≠ wordBytes n then .error .check
      else if kind ≠ 0x01 then .error .kind else .request ⟨code, tag, payload⟩ := judgeFrame_frameBody h kind code tag _ _

/-- Settles O48: the bytes of one command after another's are the bytes of both (`State.clock_append`); what moves the receiver alone
commutes with what is sent (`State.clock_quiet`), and the frame's last byte is judged (`exec_receive_frame`). -/
theorem frameReception : Obligations.FrameReception := by
  refine ⟨fun s t bytes more i j k first e second both => ?append, fun s hunt => congrArg _ (State.timeoutFrame_hunt hunt),
    fun s u bytes i brings sent hunt => ⟨exec_receive_hunt brings sent hunt, fun ahead rest e noMarker short => ?begin⟩,
    fun s start got receiver => ?frame⟩
  case append =>
    rw [exec_of_brings first] at e
    rw [exec_of_brings both, exec_of_brings second, State.clock_append, Host.Outcome.next.inj e]
  case begin =>
    refine exec_receive brings sent ?_
    have front := Receiver.quietly_hunt noMarker s.highway.period
    have marker : Receiver.hunt.quietly s.highway.period (0xA5 :: rest) = (Receiver.frame s.highway.period []).quietly s.highway.period rest :=
      rfl
    rw [e, hunt, Receiver.quietly_append, front, Option.bind_some, marker]
    by_cases none : rest = []
    · subst none
      rfl
    · have unfinished : ∀ n, n ≤ rest.length → judgeFrame ([] ++ rest.take n) = .unfinished := fun n _ =>
        judgeFrame_short ((List.length_take_le' n rest).trans_lt short)
      rw [Receiver.quietly_frame (start := s.highway.period) (got := []) rfl (by simp) none unfinished]
      rw [List.nil_append]
      exact congrArg _ (if_neg fun k => absurd k.1 (not_le.2 short))
  case frame =>
    have receiving := Receiver.frame?_of_receiving receiver
    obtain ⟨tooLate, early⟩ := State.timeoutFrame_frame receiving
    refine ⟨fun late => ⟨congrArg _ (tooLate late), fun u b i brings sent => exec_receive_late receiving late brings sent⟩, fun inTime =>
      ⟨congrArg _ (early inTime), fun u bytes i kind code tag payload brings sent fits => ?_⟩⟩
    have frameEnd := fun unfinished => exec_receive_frame receiving inTime brings sent unfinished
    have part : ∀ (x y : Byte) n, n < 7 + payload.length → got ++ bytes = (frameBody kind code tag payload ++ [x, y]).take n →
        exec i s = .next (u.setReceiver (if n < 5 + payload.length then .frame start (got ++ bytes) else .check start (got ++ bytes))) := by
      intro x y n short front
      have size := congrArg List.length front
      rw [List.length_take, List.length_append] at size
      rw [(frameEnd fun m hm => judgeFrame_parts fits front (by omega)).1 (by rw [front]; exact judgeFrame_take fits kind code tag x y short),
        front, collecting_take fits start kind code tag x y short]
    have whole : ∀ x y : Byte, got ++ bytes = frameBody kind code tag payload ++ [x, y] → ∀ m, m < bytes.length →
        judgeFrame (got ++ bytes.take m) = .unfinished := by
      intro x y all m hm
      have size := congrArg List.length all
      rw [List.length_append, List.length_append, frameBody_length, List.length_cons, List.length_singleton] at size
      exact judgeFrame_parts fits (all.trans (List.take_length ..).symm) (by omega)
    refine ⟨fun n short front => ?_, fun front => ?_, fun x front => ?_, fun all => ?_, fun x wrong all => ?_, fun n long short front => ?_⟩
    · rw [part 0 0 n (by omega) (by rw [front, List.take_append_of_le_length (by rw [frameBody_length]; omega)]), if_pos short]
    · rw [part 0 0 (5 + payload.length) (by omega) (by rw [front, List.take_left' (frameBody_length ..)]), if_neg (lt_irrefl _)]
    · have split : frameBody kind code tag payload ++ [x, 0] = (frameBody kind code tag payload ++ [x]) ++ [0] := by
        rw [List.append_assoc]
        rfl
      rw [part x 0 (6 + payload.length) (by omega) (by
        rw [front, split, List.take_left' (by rw [List.length_append, frameBody_length, List.length_singleton]; omega)]), if_neg (by omega)]
    · obtain ⟨-, error, request⟩ := frameEnd (whole _ _ all)
      have judged := judgeFrame_checked fits kind code tag (crc (frameBody kind code tag payload)).toNat
      rw [if_neg (not_not.2 rfl), ← all] at judged
      refine ⟨fun good full => ?_, fun good free room => ?_, fun good free full => ?_, fun other => ?_⟩
      · rw [if_neg (not_not.2 good)] at judged
        rw [request _ judged, State.dispose_full full]
      · rw [if_neg (not_not.2 good)] at judged
        rw [request _ judged, State.dispose_room free room]
        rfl
      · rw [if_neg (not_not.2 good)] at judged
        rw [request _ judged, State.dispose_overload free full]
      · rw [if_pos other] at judged
        exact error _ judged
    · have judged := judgeFrame_checked fits kind code tag x.toNat
      rw [if_pos fun same => wrong (BitVec.eq_of_toNat_eq (wordBytes_inj x.isLt (BitVec.isLt _) same.symm)), ← all] at judged
      exact (frameEnd (whole _ _ all)).2.1 _ judged
    · have size := congrArg List.length front
      rw [List.length_append] at size
      have judged : judgeFrame ([kind, code, tag] ++ wordBytes n) = .error .length := by
        unfold judgeFrame
        rw [show announcedLength ([kind, code, tag] ++ wordBytes n) = n from wordBytes_value short]
        exact (if_neg (lt_irrefl _)).trans (if_pos long)
      refine (frameEnd fun m hm => judgeFrame_short ?_).2.1 _ (by rw [front, judged])
      rw [List.length_append, List.length_take]
      have five : got.length + bytes.length = 5 := size
      omega

end Sys2Proof.Machine
end

section
set_option Elab.async false
/-! ## Soft reset, link errors, messages sent (O4, O49, O50) -/

namespace Sys2Proof.Machine

/-! ### What is sent leaves the rest alone -/

/-- Bytes sent, short of the soft reset's reply, change the link alone, and neither its receiver nor its counts (R182, R190 to R192). -/
theorem Sent.frame {s u : State} {n : Nat} (h : Sent s u n) :
    u = { s with link := u.link } ∧ u.link.linkErrors = s.link.linkErrors ∧ u.link.lostReports = s.link.lostReports := by
  obtain ⟨-, ⟨-, rfl⟩ | ⟨m, -, -, rfl⟩ | ⟨r, rest, -, -, -, -, rfl⟩ | ⟨r, rest, -, -, -, rfl⟩⟩ := h <;> exact ⟨rfl, rfl, rfl⟩

/-- A link error counted and reported, the receiver set (R187, R191). -/
theorem State.linkError_outcome (u : State) (cause : LinkCause) (r : Receiver) :
    ((u.linkError cause).setReceiver r).link.linkErrors = min 65535 (u.link.linkErrors + 1) ∧
    (u.link.reports.length < 32 →
      ((u.linkError cause).setReceiver r).link.reports =
        u.link.reports ++ [⟨u.highway.period, .linkError cause (min 65535 (u.link.linkErrors + 1))⟩] ∧
      ((u.linkError cause).setReceiver r).link.lostReports = u.link.lostReports) ∧
    (32 ≤ u.link.reports.length →
      ((u.linkError cause).setReceiver r).link.reports = u.link.reports ∧
      ((u.linkError cause).setReceiver r).link.lostReports = min 65535 (u.link.lostReports + 1)) ∧
    (u.linkError cause).setReceiver r = { u with link := ((u.linkError cause).setReceiver r).link } := by
  have link : ((u.linkError cause).setReceiver r).link = { Link.placeReport { u.link with linkErrors := min 65535 (u.link.linkErrors + 1) }
      ⟨u.highway.period, .linkError cause (min 65535 (u.link.linkErrors + 1))⟩ with receiver := r } := rfl
  rw [link]
  refine ⟨Link.placeReport_linkErrors _ _, ?_, ?_, rfl⟩ <;> intro h <;>
    obtain ⟨full, e⟩ | ⟨room, e⟩ := Link.placeReport_cases { u.link with linkErrors := min 65535 (u.link.linkErrors + 1) }
      ⟨u.highway.period, .linkError cause (min 65535 (u.link.linkErrors + 1))⟩ <;> rw [e]
  · exact absurd h (not_lt.2 full)
  · exact ⟨Link.choose_reports _, Link.choose_lostReports _⟩
  · exact ⟨rfl, rfl⟩
  · exact absurd room (not_lt.2 h)

/-! ### Soft reset (R194) -/

/-- What the port's settling and a queued update change: the port's record, and the reports of the link. -/
def SettlesFrom (s t : State) : Prop :=
  ∃ m k, t = { s with memory := m, link := k } ∧ k.paused = s.link.paused ∧ k.linkErrors = s.link.linkErrors ∧ k.receiver = s.link.receiver

theorem SettlesFrom.settlePort {s t : State} (h : SettlesFrom s t) : SettlesFrom s t.settlePort := by
  obtain ⟨m, k, rfl, paused, errors, receiver⟩ := h
  obtain ⟨n, e, -⟩ | ⟨-, e⟩ := State.settlePort_cases { s with memory := m, link := k } <;> rw [e]
  · exact ⟨n, k, rfl, paused, errors, receiver⟩
  · exact ⟨_, _, rfl, (Link.placeReport_paused _ _).trans paused, (Link.placeReport_linkErrors _ _).trans errors,
      (Link.placeReport_receiver _ _).trans receiver⟩

theorem SettlesFrom.queueUpdate {s t : State} (h : SettlesFrom s t) (c : ClipId) : SettlesFrom s (t.queueUpdate c) := by
  unfold State.queueUpdate
  split
  · exact h
  · obtain ⟨m, k, rfl, kept⟩ := h
    exact SettlesFrom.settlePort ⟨_, k, rfl, kept⟩

/-- Soft reset resets the blocks; the updates that it queues change the port's record and the reports alone (R194). -/
theorem State.softReset_frame (s : State) : SettlesFrom s.softResetBlocks s.softReset := by
  have start : SettlesFrom s.softResetBlocks s.softResetBlocks.settlePort := SettlesFrom.settlePort ⟨_, _, rfl, rfl, rfl, rfl⟩
  unfold State.softReset
  generalize s.softResetBlocks.settlePort = t at start
  induction s.retiring generalizing t with
  | nil => exact start
  | cons c l ih => exact ih _ (start.queueUpdate c)

/-- With no fetch pending, and work left where the port is RELEASING, the port's record alone changes, and no fetch comes up. -/
def QuietFrom (s t : State) : Prop :=
  ∃ m, t = { s with memory := m } ∧ m.mode = s.memory.mode ∧ m.fetches = [] ∧ (m.mode = .releasing → m.op ≠ none)

theorem State.chooseOp_fetches {s : State} (h : s.memory.fetches = []) : s.chooseOp.memory.fetches = [] := by
  have next : s.nextFetch = none := by
    unfold State.nextFetch
    rw [h]
    rfl
  unfold State.chooseOp
  rw [next]
  dsimp only
  split
  · exact h
  · split
    · exact h
    · split
      · exact h
      · split <;> exact h

theorem State.suspendErase_of_noFetch {s : State} (h : s.memory.fetches = []) : s.suspendErase = s := by
  unfold State.suspendErase
  split
  · exact if_neg (not_not.2 h)
  · rfl

theorem QuietFrom.settlePort {s t : State} (h : QuietFrom s t) : QuietFrom s t.settlePort := by
  obtain ⟨m, rfl, mode, fetches, busy⟩ := h
  have same : QuietFrom s { s with memory := m } := ⟨m, rfl, mode, fetches, busy⟩
  unfold State.settlePort
  split
  · rename_i owned
    rw [State.suspendErase_of_noFetch (s := { s with memory := m }) fetches]
    dsimp only
    split
    · have none := State.chooseOp_fetches (s := { s with memory := m }) fetches
      obtain ⟨n, e, kept⟩ := State.chooseOp_memory { s with memory := m }
      rw [e] at none ⊢
      exact ⟨n, rfl, kept.trans mode, none, fun k => nomatch owned.symm.trans (kept.symm.trans k)⟩
    · exact same
  · rename_i releasing
    rw [if_neg (busy releasing)]
    exact same
  · exact same
  · exact same

theorem QuietFrom.queueUpdate {s t : State} (h : QuietFrom s t) (c : ClipId) : QuietFrom s (t.queueUpdate c) := by
  unfold State.queueUpdate
  split
  · exact h
  · obtain ⟨m, rfl, kept⟩ := h
    exact QuietFrom.settlePort ⟨_, rfl, kept⟩

theorem State.softReset_quiet {s : State} (busy : s.memory.mode = .releasing → s.memory.op ≠ none) :
    QuietFrom s.softResetBlocks s.softReset := by
  have start : QuietFrom s.softResetBlocks s.softResetBlocks.settlePort := QuietFrom.settlePort ⟨_, rfl, rfl, rfl, busy⟩
  unfold State.softReset
  generalize s.softResetBlocks.settlePort = t at start
  induction s.retiring generalizing t with
  | nil => exact start
  | cons c l ih => exact ih _ (start.queueUpdate c)

/-- The link as the reply that a soft reset waits for leaves it, its last byte sent (R192, R194). -/
def Link.resetSent (k : Link) (rest : List Reply) (m : List Byte) (r : Receiver) : Link :=
  Link.endMessage { k with replies := rest, receiver := r } m

/-- The bytes up to the last of the reply that a soft reset waits for: the last one sets the reset off, and is then taken in (R194). -/
theorem State.clock_reset {s : State} {r : Reply} {rest : List Reply} {bytes : List Byte} {after : Receiver} (sending : s.link.sending = .reply)
    (replies : s.link.replies = r :: rest) (paused : s.link.paused = true) (reset : r.isReset = true) (some_ : 0 < bytes.length)
    (whole : s.link.position + bytes.length = r.frame.length) (taken : s.link.receiver.quietly s.highway.period bytes = some after) :
    ∃ q, s.clock bytes = State.setReceiver
      ((fun t : State => { t with link := t.link.choose }) (State.softReset { s with link := s.link.resetSent rest r.frame q })) after := by
  obtain ⟨init, b, rfl⟩ := List.eq_nil_or_concat' bytes |>.resolve_left (List.ne_nil_of_length_pos some_)
  rw [List.length_append, List.length_singleton] at whole
  rw [Receiver.quietly_append] at taken
  obtain ⟨q, before, last⟩ := Option.bind_eq_some_iff.1 taken
  have last : q.quiet s.highway.period b = some after := by
    obtain ⟨x, e, same⟩ := Option.bind_eq_some_iff.1 last
    rw [e]
    exact same
  obtain ⟨plain, out, part, -⟩ := State.sendBytes_whole (Link.message_eq_some (.inl ⟨r, rest, sending, replies, rfl⟩)) whole
  refine ⟨q, ?_⟩
  have sent : ((State.sendBytes init.length s).setReceiver q).sendByte = (fun t : State => { t with link := t.link.choose })
      (State.softReset { s with link := s.link.resetSent rest r.frame q }) := by
    have whole' := State.sendBytes_whole (s := s.setReceiver q) (Link.message_eq_some (.inl ⟨r, rest, sending, replies, rfl⟩)) whole
    obtain ⟨-, out', part', e⟩ := whole'
    rw [← State.sendBytes_setReceiver plain, ← State.sendBytes_succ, e]
    exact State.messageSent_reset sending replies ⟨paused, reset⟩
  rw [State.clock_append, State.clock_quiet before plain]
  show (((State.sendBytes init.length s).setReceiver q).sendByte).takeByte b = _
  rw [sent]
  obtain ⟨m, k, e, -, -, receiver⟩ := State.softReset_frame { s with link := s.link.resetSent rest r.frame q }
  refine State.takeByte_quiet ?_
  rw [e]
  show k.choose.receiver.quiet s.highway.period b = some after
  rw [Link.choose_receiver, receiver]
  exact last

/-! ### The link's obligations -/

theorem Reply.isReset_of {r : Reply} (code : r.code = 0x71) (status : r.status = .ok) : r.isReset = true := by
  simp [Reply.isReset, code, status]

/-- Settles O49: each cause is `linkError` on the state that the bytes sent leave, which differs from the one before in the link alone. -/
theorem linkErrors : Obligations.LinkErrors := by
  refine ⟨fun s u start cause got bytes i receiver event => ?_, fun s => ⟨_, rfl, ?_⟩, fun s tag rest paused sending replies hunt short => ?_,
    fun s tag ready => ⟨s.deviceStatus, rfl, rfl, rfl, rfl, rfl, rfl, rfl, rfl, exec_deviceStatus_ready ready tag ()⟩⟩
  · have receiving := Receiver.frame?_of_receiving receiver
    obtain ⟨r, e, frame, errors, lost⟩ : ∃ r, exec i s = .next ((u.linkError cause).setReceiver r) ∧
        u = { s with link := u.link } ∧ u.link.linkErrors = s.link.linkErrors ∧ u.link.lostReports = s.link.lostReports := by
      obtain ⟨rfl, late, ⟨rfl, rfl⟩ | ⟨b, brings, sent⟩⟩ | ⟨inTime, brings, sent, unfinished, judged⟩ := event
      · exact ⟨_, congrArg _ ((State.timeoutFrame_frame receiving).1 late), rfl, rfl, rfl⟩
      · exact ⟨_, exec_receive_late receiving late brings sent, sent.frame⟩
      · obtain ⟨-, error, request⟩ := exec_receive_frame receiving inTime brings sent unfinished
        obtain judged | ⟨rfl, ⟨q, judged⟩, full⟩ := judged
        · exact ⟨_, error cause judged, sent.frame⟩
        · exact ⟨_, by rw [request q judged, State.dispose_full full], sent.frame⟩
    have period : u.highway.period = s.highway.period := by rw [frame]
    obtain ⟨count, room, full, only⟩ := u.linkError_outcome cause r
    rw [errors, lost, period] at room
    rw [lost] at full
    rw [errors] at count
    refine ⟨_, e, count, room, full, only.trans ?_⟩
    rw [frame]
  · show (Link.placeReport _ _).linkErrors = 0
    rw [Link.placeReport_linkErrors]
    rfl
  · obtain ⟨r, e⟩ : ∃ r : Reply, r = ⟨0x71, tag, .ok, .none⟩ := ⟨_, rfl⟩
    rw [← e] at replies short
    have reset : r.isReset = true := by
      rw [e]
      rfl
    have brings : Brings s .softReset (List.replicate (r.frame.length - s.link.position) 0xFF) :=
      .inr (.inr (.inr (.inl ⟨r, rest, sending, replies, rfl, .inr ⟨rfl, paused, by rw [e], by rw [e]⟩⟩)))
    have noMarker : (0xA5 : Byte) ∉ List.replicate (r.frame.length - s.link.position) (0xFF : Byte) := fun k =>
      absurd (List.eq_of_mem_replicate k) (by decide)
    have length := List.length_replicate (n := r.frame.length - s.link.position) (a := (0xFF : Byte))
    obtain ⟨q, clocked⟩ := State.clock_reset sending replies paused reset (by rw [length]; omega) (by rw [length]; omega)
      (by rw [hunt]; exact Receiver.quietly_hunt noMarker s.highway.period)
    obtain ⟨m, k, frame, pause, errors, -⟩ := State.softReset_frame { s with link := s.link.resetSent rest r.frame q }
    rw [exec_of_brings brings, clocked, frame]
    exact ⟨_, rfl, (Link.choose_paused k).trans pause, (Link.choose_linkErrors k).trans errors⟩

/-- Settles O50: the bytes of a frameless host fill move nothing but what is sent (`exec_receive_hunt`). -/
theorem messagesSent : Obligations.MessagesSent := by
  refine ⟨fun s sending => ?_, fun s none => ?_, fun s bytes i brings hunt noMarker some_ => ?_⟩
  · show (.next s.readMessage : Result) = _
    obtain ⟨-, e⟩ | ⟨m, message, -⟩ := s.readMessage_cases
    · rw [e]
    · exact nomatch (Link.message_of_fill sending).symm.trans message
  · have due : s.link.resetDue = false := by
      unfold Link.resetDue
      obtain paused | sending | ⟨r, rest, replies, other⟩ := none
      · rw [paused]
        rfl
      · rw [decide_eq_false sending, Bool.and_false]
        rfl
      · have plain : r.isReset = false := by
          unfold Reply.isReset
          obtain code | status := other
          · rw [decide_eq_false code]
            rfl
          · rw [decide_eq_false status, Bool.and_false]
        rw [replies, List.head?_cons, Option.any_some, plain, Bool.and_false]
    show (.next (if s.link.resetDue = true then s.readMessage else s) : Result) = _
    rw [due]
    rfl
  · have receive := fun {u : State} (sent : Sent s u bytes.length) => exec_receive_hunt brings sent hunt noMarker
    exact ⟨fun sending => receive ⟨some_, .inl ⟨sending, rfl⟩⟩, fun m message short => receive ⟨some_, .inr (.inl ⟨m, message, short, rfl⟩)⟩,
      fun r rest sending replies whole plain => receive ⟨some_, .inr (.inr (.inl ⟨r, rest, sending, replies, whole, plain, rfl⟩))⟩,
      fun r rest sending reports whole => receive ⟨some_, .inr (.inr (.inr ⟨r, rest, sending, reports, whole, rfl⟩))⟩⟩

/-- Settles O4: the reset's bytes are clocked (`State.clock_reset`), each block is reset by its record's function, and the updates that the
reset queues touch the port's record alone (`State.softReset_quiet`). -/
theorem deviceResetAndSoftReset : Obligations.DeviceResetAndSoftReset := by
  refine ⟨fun s tag ready => exec_deviceReset_ready ready tag (), fun s r rest bytes i after brings paused sending replies code status some_ whole
    moves busy => ?_⟩
  have taken : s.link.receiver.quietly s.highway.period bytes = some after := by
    obtain ⟨hunt, noMarker, rfl⟩ | ⟨start, got, receiver, inTime, short, rfl⟩ := moves
    · rw [hunt]
      exact Receiver.quietly_hunt noMarker s.highway.period
    · have unfinished : ∀ n, n ≤ bytes.length → judgeFrame (got ++ bytes.take n) = .unfinished := fun n hn =>
        judgeFrame_short (by rw [List.length_append, List.length_take]; omega)
      rw [Receiver.quietly_frame (by rw [receiver]; rfl) inTime (List.ne_nil_of_length_pos some_) unfinished]
      exact congrArg _ (if_neg fun k => absurd k.1 (by rw [List.length_append]; omega))
  obtain ⟨q, clocked⟩ := State.clock_reset sending replies paused (Reply.isReset_of code status) some_ whole taken
  obtain ⟨m, frame, mode, fetches, -⟩ := State.softReset_quiet (s := { s with link := s.link.resetSent rest r.frame q }) busy
  rw [exec_of_brings brings, clocked, frame]
  refine ⟨_, rfl, fun p => tget_tmap _ _ _, fun l idle => (tget_tmap _ _ _).trans (if_pos idle), fun l other => ?_, rfl,
    fun p => tget_replicate _ _, fun l => tget_replicate _ _, fun h => tget_tmap _ _ _, fun c => tget_tmap _ _ _, fun e => tget_replicate _ _,
    rfl, mode, fetches, Link.choose_replies _, Link.choose_buffer _, Link.choose_reports _, Link.choose_paused _, Link.choose_linkErrors _,
    Link.choose_lostReports _, rfl, rfl⟩
  have closed : (State.softResetBlocks { s with link := s.link.resetSent rest r.frame q }).leg l = { Leg.reset with ec := (s.leg l).ec.close } :=
    (tget_tmap _ _ _).trans (if_neg other)
  show (fun x : Leg => x.state = .idle ∧ x.attached = none ∧ x.origin = none ∧ x.session = none ∧ x.resume = none ∧ x.last = none ∧
    x.ec.state = .off .idle ∧ x.ec.segments = [] ∧ x.ec.stats = none ∧ x.ec.history = (s.leg l).ec.history ∧ x.ec.gap = (s.leg l).ec.gap ∧
    x.ec.nlpAttenuation = (s.leg l).ec.nlpAttenuation ∧ x.ec.nlpGain = (s.leg l).ec.nlpGain)
    ((State.softResetBlocks { s with link := s.link.resetSent rest r.frame q }).leg l)
  rw [closed]
  exact ⟨rfl, rfl, rfl, rfl, rfl, rfl, rfl, rfl, rfl, rfl, rfl, rfl, rfl⟩

end Sys2Proof.Machine
end

section
set_option Elab.async false
/-! ## One reply for each request, and refused requests (O52) -/

namespace Sys2Proof.Machine

/-! ### An owner that refuses changes nothing (R188) -/

/-- An owner's answer other than OK leaves the part as it was. -/
def Handled.Clean (s : State) (h : Handled) : Prop := h.status ≠ .ok → h.state = s

section Clean
variable {s : State}

theorem clean_accept (t : State) : Handled.Clean s (accept t) := fun k => absurd rfl k
theorem clean_refuse (status : Status) : Handled.Clean s (refuse s status) := fun _ => rfl
theorem clean_shown (t : State) (f : ReplyFields) : Handled.Clean s ⟨t, .ok, f⟩ := fun k => absurd rfl k

theorem clean_ite {c : Prop} [Decidable c] {a b : Handled} (ha : Handled.Clean s a) (hb : Handled.Clean s b) : Handled.Clean s (if c then a else b) := by
  split
  · exact ha
  · exact hb

theorem clean_withPosition {n : Nat} {f : PosId → Handled} (h : ∀ p, Handled.Clean s (f p)) : Handled.Clean s (withPosition n s f) := by
  unfold withPosition
  split
  · exact h _
  · exact clean_refuse _

theorem clean_withLeg {n : Nat} {f : LegId → Handled} (h : ∀ l, Handled.Clean s (f l)) : Handled.Clean s (withLeg n s f) := by
  unfold withLeg
  split
  · exact h _
  · exact clean_refuse _

theorem clean_withPlan {n : Nat} {f : PlanId → Handled} (h : ∀ i, Handled.Clean s (f i)) : Handled.Clean s (withPlan n s f) := by
  unfold withPlan
  split
  · exact h _
  · exact clean_refuse _

theorem clean_withClip {n : Nat} {f : ClipId → Handled} (h : ∀ c, Handled.Clean s (f c)) : Handled.Clean s (withClip n s f) := by
  unfold withClip
  split
  · exact clean_ite (clean_refuse _) (h _)
  · exact clean_refuse _

end Clean

section Owners
variable (s : State)

theorem ownPortEnable_clean (n : Nat) : (ownPortEnable n s).Clean s := clean_withPosition fun _ => clean_accept _
theorem ownPortDisable_clean (n : Nat) : (ownPortDisable n s).Clean s := clean_withPosition fun _ => clean_accept _

theorem ownPositionConfig_clean (f : ConfigFields) : (ownPositionConfig f s).Clean s := clean_withPosition fun _ => by
  split
  · exact clean_accept _
  · exact clean_refuse _

theorem ownPositionMute_clean (f : MuteFields) : (ownPositionMute f s).Clean s := clean_withPosition fun _ => by
  split
  · exact clean_accept _
  · exact clean_refuse _

theorem ownPositionStatus_clean (n : Nat) : (ownPositionStatus n s).Clean s := clean_withPosition fun _ => clean_shown _ _
theorem ownPositionStats_clean (n : Nat) : (ownPositionStats n s).Clean s := clean_withPosition fun _ => clean_shown _ _

theorem ownLegOpen_clean (f : OpenFields) : (ownLegOpen f s).Clean s := by
  unfold ownLegOpen
  split
  · exact clean_ite (clean_accept _) (clean_refuse _)
  · exact clean_refuse _

theorem ownLegHold_clean (f : HoldFields) : (ownLegHold f s).Clean s := clean_withLeg fun _ => by
  split
  · exact clean_refuse _
  · split
    · exact clean_refuse _
    · exact clean_refuse _
    · exact clean_accept _
    · exact clean_accept _
    · exact clean_accept _

theorem ownLegConnect_clean (f : ConnectFields) : (ownLegConnect f s).Clean s := by
  unfold ownLegConnect
  split
  · refine clean_ite ?_ (clean_refuse _)
    split
    · exact clean_accept _
    · exact clean_accept _
  · exact clean_refuse _

theorem ownLegCancelConnect_clean (n : Nat) : (ownLegCancelConnect n s).Clean s := clean_withLeg fun _ => clean_ite (clean_accept _) (clean_refuse _)
theorem ownLegClose_clean (n : Nat) : (ownLegClose n s).Clean s := clean_withLeg fun _ => clean_accept _
theorem ownLegStatus_clean (n : Nat) : (ownLegStatus n s).Clean s := clean_withLeg fun _ => clean_shown _ _

theorem ownEcConfig_clean (f : EcFields) : (ownEcConfig f s).Clean s := by
  have decided : ∀ l action delay, (ownEcConfig.decide' f s l action delay).Clean s := fun _ _ _ =>
    clean_ite (clean_refuse _) (clean_ite (clean_refuse _) (clean_accept _))
  unfold ownEcConfig
  split
  · split
    · exact clean_refuse _
    · exact decided _ _ _
    · exact decided _ _ _
  · exact clean_refuse _

theorem ownPlanSet_clean (f : PlanFields) : (ownPlanSet f s).Clean s := by
  unfold ownPlanSet
  split
  · exact clean_ite (clean_refuse _) (clean_accept _)
  · exact clean_refuse _

theorem ownPlanDelete_clean (n : Nat) : (ownPlanDelete n s).Clean s := clean_withPlan fun _ => clean_ite (clean_accept _) (clean_ite (clean_refuse _) (clean_accept _))
theorem ownPlanInfo_clean (n : Nat) : (ownPlanInfo n s).Clean s := clean_withPlan fun _ => clean_shown _ _

theorem ownClipCreate_clean (f : CreateFields) : (ownClipCreate f s).Clean s := clean_withClip fun _ =>
  clean_ite (clean_refuse _) (clean_ite (clean_refuse _) (clean_ite (clean_refuse _) (clean_ite (clean_refuse _) (clean_accept _))))

theorem ownClipData_clean (f : DataFields) : (ownClipData f s).Clean s := clean_withClip fun _ =>
  clean_ite (clean_refuse _) (clean_ite (clean_refuse _) (clean_ite (clean_refuse _) (clean_ite (clean_refuse _) (clean_ite (clean_refuse _) (clean_accept _)))))

theorem ownClipClose_clean (f : CloseFields) : (ownClipClose f s).Clean s := clean_withClip fun _ => clean_ite (clean_refuse _) (clean_ite (clean_refuse _) (clean_accept _))
theorem ownClipDelete_clean (n : Nat) : (ownClipDelete n s).Clean s := clean_withClip fun _ => clean_accept _

theorem ownClipInfo_clean (n : Nat) : (ownClipInfo n s).Clean s := by
  unfold ownClipInfo
  split
  · exact clean_ite (clean_refuse _) (clean_shown _ _)
  · exact clean_refuse _

theorem ownMemoryRelease_clean (u : Unit) : (ownMemoryRelease u s).Clean s := by
  unfold ownMemoryRelease
  split
  · exact clean_accept _
  · exact clean_accept _
  · exact clean_accept _
  · exact clean_refuse _

theorem ownMemoryReclaim_clean (u : Unit) : (ownMemoryReclaim u s).Clean s := by
  unfold ownMemoryReclaim
  split
  · exact clean_accept _
  · exact clean_refuse _
  · exact clean_refuse _
  · exact clean_refuse _

theorem ownWhisperPrompt_clean (f : PromptFields) : (ownWhisperPrompt f s).Clean s := by
  unfold ownWhisperPrompt
  split
  · exact clean_ite (clean_refuse _) (clean_ite (clean_refuse _) (clean_accept _))
  · exact clean_refuse _

theorem ownWhisperFlush_clean (n : Nat) : (ownWhisperFlush n s).Clean s := clean_withPosition fun _ => clean_accept _

theorem ownSupervise_clean (f : SuperviseFields) : (ownSupervise f s).Clean s := by
  unfold ownSupervise
  split
  · split
    · exact clean_ite (clean_ite (clean_accept _) (clean_accept _)) (clean_refuse _)
    · exact clean_ite (clean_accept _) (clean_refuse _)
  · exact clean_refuse _

theorem ownSuperviseEnd_clean (n : Nat) : (ownSuperviseEnd n s).Clean s := clean_withPosition fun _ => clean_accept _
theorem ownDeviceStatus_clean (u : Unit) : (ownDeviceStatus u s).Clean s := clean_shown _ _
theorem ownDeviceReset_clean (u : Unit) : (ownDeviceReset u s).Clean s := clean_accept _

end Owners

/-! ### A request command, whatever its request -/

/-- What every request command comes to: nothing while the handler is paused, OVERRUN without a reply place, and in a ready handler one
reply, the part being as it was where that reply refuses (R186, R188, R190). -/
def Answers (code : Byte) (s : State) (after : State) : Prop :=
  (s.link.paused = true → after = s) ∧
  (s.link.paused = false → s.link.buffer = [] → 8 ≤ s.link.replies.length → after = s.linkError .overrun) ∧
  (Ready s → ∃ r : Reply, after.link.replies = s.link.replies ++ [r] ∧ r.code = code ∧ (r.status ≠ .ok → after = s.reply r))

theorem serve_paused {α : Type} [DecidableEq α] {s : State} (h : s.link.paused = true) (code tag : Byte) (fields : Parser α) (q : Payload α)
    (owner : α → State → Handled) : serve code tag fields q owner s = s := if_pos h

theorem serve_full {α : Type} [DecidableEq α] {s : State} (running : s.link.paused = false) (noneWaiting : s.link.buffer = [])
    (full : 8 ≤ s.link.replies.length) (code tag : Byte) (fields : Parser α) (q : Payload α) (owner : α → State → Handled) :
    serve code tag fields q owner s = s.linkError .overrun := by
  have places : Config.replyPlaces ≤ s.link.places := by
    rw [Link.places, noneWaiting]
    exact full
  unfold serve
  rw [noneWaiting, if_neg (by rw [running]; exact Bool.false_ne_true)]
  exact if_pos places

theorem Answers.serve {α : Type} [DecidableEq α] {owner : α → State → Handled} (kept : ∀ f s, Keeps s (owner f s).state)
    (clean : ∀ s f, (owner f s).Clean s) (code tag : Byte) (fields : Parser α) (q : Payload α) (s : State) :
    Answers code s (Machine.serve code tag fields q owner s) := by
  refine ⟨fun paused => serve_paused paused .., fun running noneWaiting full => serve_full running noneWaiting full .., fun ready => ?_⟩
  cases q with
  | malformed =>
    exact ⟨⟨code, tag, .length, .none⟩, by rw [serve_malformed_of_ready ready]; exact Link.placeReply_replies _ _, rfl,
      fun _ => serve_malformed_of_ready ready ..⟩
  | fields f =>
    rw [serve_fields_of_ready ready]
    refine ⟨_, (Link.placeReply_replies _ _).trans (by rw [(kept f s).replies]), rfl, fun refused => ?_⟩
    rw [clean s f refused]

/-- The release of the lines after the reply adds no reply, and is not reached where nothing changed (R133). -/
theorem Answers.afterRelease {code : Byte} {s t : State} (h : Answers code s t) : Answers code s (t.afterRelease s) := by
  have same : ∀ u : State, u.memory = s.memory → u.afterRelease s = u := fun u e => by
    unfold State.afterRelease
    rw [e]
    exact if_neg fun k => nomatch k.1.symm.trans k.2
  obtain ⟨paused, full, reply⟩ := h
  refine ⟨fun k => ?_, fun running noneWaiting k => ?_, fun ready => ?_⟩
  · rw [paused k]
    exact same s rfl
  · rw [full running noneWaiting k]
    exact same _ rfl
  · obtain ⟨r, replies, code, refused⟩ := reply ready
    refine ⟨r, ?_, code, fun k => ?_⟩
    · have settled : (t.afterRelease s).link.replies = t.link.replies := by
        unfold State.afterRelease
        split
        · exact ((Keeps.refl t).settlePort).replies
        · rfl
      rw [settled, replies]
    · rw [refused k]
      exact same _ rfl

theorem Answers.unknown {s : State} {code : Byte} (none : code ∉ requestCodes) (tag : Byte) : Answers code s (s.unknownRequest tag code) := by
  refine ⟨fun paused => if_pos (.inl paused), fun running noneWaiting full => ?_, fun ready => ?_⟩
  · have places : Config.replyPlaces ≤ s.link.places := by
      rw [Link.places, noneWaiting]
      exact full
    unfold State.unknownRequest
    rw [noneWaiting, if_neg (by rw [running]; simp [none])]
    exact if_pos places
  · have e := Host.Outcome.next.inj (exec_unknown_ready ready tag none)
    exact ⟨⟨code, tag, .unknown, .none⟩, by rw [e]; exact Link.placeReply_replies _ _, rfl, fun _ => e⟩

/-- Every request command answers its request. -/
theorem exec_answers {i : Instr} {code : Byte} (h : i.requestCode = some code) (wf : i.wf = true) (s : State) :
    ∃ t, exec i s = .next t ∧ Answers code s t := by
  have served := fun {α : Type} [DecidableEq α] {owner : α → State → Handled} (kept : ∀ f s, Keeps s (owner f s).state)
    (clean : ∀ s f, (owner f s).Clean s) (code tag : Byte) (fields : Parser α) (q : Payload α) =>
      Answers.serve kept clean code tag fields q s
  cases i with
  | portEnable tag q => cases h; exact ⟨_, rfl, served ownPortEnable_keeps ownPortEnable_clean _ _ _ _⟩
  | portDisable tag q => cases h; exact ⟨_, rfl, served ownPortDisable_keeps ownPortDisable_clean _ _ _ _⟩
  | positionConfig tag q => cases h; exact ⟨_, rfl, served ownPositionConfig_keeps ownPositionConfig_clean _ _ _ _⟩
  | positionMute tag q => cases h; exact ⟨_, rfl, served ownPositionMute_keeps ownPositionMute_clean _ _ _ _⟩
  | positionStatus tag q => cases h; exact ⟨_, rfl, served ownPositionStatus_keeps ownPositionStatus_clean _ _ _ _⟩
  | positionStats tag q => cases h; exact ⟨_, rfl, served ownPositionStats_keeps ownPositionStats_clean _ _ _ _⟩
  | legOpen tag q => cases h; exact ⟨_, rfl, served ownLegOpen_keeps ownLegOpen_clean _ _ _ _⟩
  | legHold tag q => cases h; exact ⟨_, rfl, served ownLegHold_keeps ownLegHold_clean _ _ _ _⟩
  | legConnect tag q => cases h; exact ⟨_, rfl, served ownLegConnect_keeps ownLegConnect_clean _ _ _ _⟩
  | legCancelConnect tag q => cases h; exact ⟨_, rfl, served ownLegCancelConnect_keeps ownLegCancelConnect_clean _ _ _ _⟩
  | legClose tag q => cases h; exact ⟨_, rfl, served ownLegClose_keeps ownLegClose_clean _ _ _ _⟩
  | legStatus tag q => cases h; exact ⟨_, rfl, served ownLegStatus_keeps ownLegStatus_clean _ _ _ _⟩
  | ecConfig tag q => cases h; exact ⟨_, rfl, served ownEcConfig_keeps ownEcConfig_clean _ _ _ _⟩
  | planSet tag q => cases h; exact ⟨_, rfl, served ownPlanSet_keeps ownPlanSet_clean _ _ _ _⟩
  | planDelete tag q => cases h; exact ⟨_, rfl, served ownPlanDelete_keeps ownPlanDelete_clean _ _ _ _⟩
  | planInfo tag q => cases h; exact ⟨_, rfl, served ownPlanInfo_keeps ownPlanInfo_clean _ _ _ _⟩
  | clipCreate tag q => cases h; exact ⟨_, rfl, served ownClipCreate_keeps ownClipCreate_clean _ _ _ _⟩
  | clipData tag q => cases h; exact ⟨_, rfl, served ownClipData_keeps ownClipData_clean _ _ _ _⟩
  | clipClose tag q => cases h; exact ⟨_, rfl, served ownClipClose_keeps ownClipClose_clean _ _ _ _⟩
  | clipDelete tag q => cases h; exact ⟨_, rfl, served ownClipDelete_keeps ownClipDelete_clean _ _ _ _⟩
  | clipInfo tag q => cases h; exact ⟨_, rfl, served ownClipInfo_keeps ownClipInfo_clean _ _ _ _⟩
  | memoryRelease tag q => cases h; exact ⟨_, rfl, (served ownMemoryRelease_keeps ownMemoryRelease_clean _ _ _ _).afterRelease⟩
  | memoryReclaim tag q => cases h; exact ⟨_, rfl, served ownMemoryReclaim_keeps ownMemoryReclaim_clean _ _ _ _⟩
  | whisperPrompt tag q => cases h; exact ⟨_, rfl, served ownWhisperPrompt_keeps ownWhisperPrompt_clean _ _ _ _⟩
  | whisperFlush tag q => cases h; exact ⟨_, rfl, served ownWhisperFlush_keeps ownWhisperFlush_clean _ _ _ _⟩
  | supervise tag q => cases h; exact ⟨_, rfl, served ownSupervise_keeps ownSupervise_clean _ _ _ _⟩
  | superviseEnd tag q => cases h; exact ⟨_, rfl, served ownSuperviseEnd_keeps ownSuperviseEnd_clean _ _ _ _⟩
  | deviceStatus tag q => cases h; exact ⟨_, rfl, served ownDeviceStatus_keeps ownDeviceStatus_clean _ _ _ _⟩
  | deviceReset tag q => cases h; exact ⟨_, rfl, served ownDeviceReset_keeps ownDeviceReset_clean _ _ _ _⟩
  | unknown tag c => cases h; exact ⟨_, rfl, .unknown (by simpa [Instr.wf] using wf) tag⟩
  | _ => cases h

/-! ### A request that waits at the head of the buffer (R188) -/

section Buffered
variable {α : Type} [DecidableEq α] {s : State} {r : RequestFrame} {rest : List RequestFrame}

theorem serve_buffered (running : s.link.paused = false) (buffer : s.link.buffer = r :: rest) (code tag : Byte) (fields : Parser α)
    (q : Payload α) (owner : α → State → Handled) : serve code tag fields q owner s =
      if r.code = code ∧ r.tag = tag ∧ readPayload fields r.payload = q
      then respond code tag q owner { s with link := { s.link with buffer := rest } } else s := by
  have taken : s.takeBuffered = { s with link := { s.link with buffer := rest } } := by
    unfold State.takeBuffered
    rw [buffer]
    rfl
  unfold serve
  rw [buffer, if_neg (by rw [running]; exact Bool.false_ne_true), taken]

theorem readPayload_wordField {n : Nat} (h : n < 65536) : readPayload wordField (wordBytes n) = .fields n := by
  have read := wordField_wordBytes h []
  rw [List.append_nil] at read
  unfold readPayload
  rw [read]

end Buffered

/-- Settles O52: every owner keeps the replies (`own…_keeps`), and one that refuses keeps the part (`own…_clean`). -/
theorem oneReplyAndRefusalsChangeNothing : Obligations.OneReplyAndRefusalsChangeNothing := by
  refine ⟨fun i code s h wf => ?_, fun s l tag r rest running buffer => ⟨fun head => ?_, fun other => ?_, fun none => ?_⟩⟩
  · obtain ⟨t, e, paused, full, reply⟩ := exec_answers h wf s
    refine ⟨fun k => by rw [e, paused k], fun a b c => by rw [e, full a b c], fun ready => ?_⟩
    obtain ⟨r, answered⟩ := reply ready
    exact ⟨t, r, e, answered⟩
  · have read : r.code = 0x15 ∧ r.tag = tag ∧ readPayload wordField r.payload = .fields l.val := by
      rw [head]
      exact ⟨rfl, rfl, readPayload_wordField (l.isLt.trans (by norm_num))⟩
    refine ⟨State.legStatus { s with link := { s.link with buffer := rest } } l, rfl, ?_⟩
    show (.next (serve 0x15 tag wordField (.fields l.val) ownLegStatus s) : Result) = _
    rw [serve_buffered running buffer, if_pos read, respond_fields, ownLegStatus, withLeg_val]
  · show (.next (serve 0x15 tag wordField (.fields l.val) ownLegStatus s) : Result) = _
    rw [serve_buffered running buffer, if_neg fun k => other.elim (fun c => c k.1) fun c => c k.2.1]
  · show (.next (s.unknownRequest r.tag r.code) : Result) = _
    unfold State.unknownRequest State.takeBuffered
    rw [buffer, if_neg (by rw [running]; simp [none])]
    exact congrArg _ (if_pos ⟨rfl, rfl⟩)

end Sys2Proof.Machine
end

section
set_option Elab.async false
/-! ## Configuration and mute, frames outside LIVE, down-frames, insertion (O6, O8, O10, O12) -/

namespace Sys2Proof.Machine

/-! ### The end of an event that leaves the music sources alone -/

/-- The music source of a leg is read from the legs, the plans and the engines (R57). -/
theorem State.musicSource_congr {s t : State} (legs : t.legs = s.legs) (plans : t.plans = s.plans) (engines : t.engines = s.engines) (l : LegId) :
    t.musicSource l = s.musicSource l := by
  have read : t.musicSource l = State.musicSource { s with legs := t.legs, plans := t.plans, engines := t.engines } l := rfl
  rw [read, legs, plans, engines]

/-- With the music sources as they were, the end of an event re-derives the feed lists and does nothing else (R59, R153). -/
theorem State.finish_of_records {s before : State} (legs : s.legs = before.legs) (plans : s.plans = before.plans)
    (engines : s.engines = before.engines) : s.finish before = s.rederiveAll :=
  congrArg State.rederiveAll (s.noticeMusic_eq before (State.musicSource_congr legs plans engines))

theorem State.rederiveAll_frame (s : State) :
    s.rederiveAll = { s with ears := s.rederiveAll.ears, sends := s.rederiveAll.sends } := rfl

/-! ### POSITION_CONFIG and POSITION_MUTE -/

theorem flagOf_of_lt {n : Nat} (h : n < 2) : flagOf n = some (decide (n = 0)) := by
  obtain rfl | rfl : n = 0 ∨ n = 1 := by omega
  · rfl
  · rfl

theorem flagOf_beyond {n : Nat} (h : 2 ≤ n) : flagOf n = none := by
  unfold flagOf
  rw [if_neg (by omega), if_neg (by omega)]

theorem flagOf_eq_some {n : Nat} {b : Bool} (h : flagOf n = some b) : n < 2 := by
  by_contra k
  exact nomatch (flagOf_beyond (not_lt.1 k)).symm.trans h

theorem muteModeOf_eq_some {n : Nat} {m : MuteMode} (h : muteModeOf n = some m) : n < 3 ∧ m.place = n := by
  unfold muteModeOf at h
  split at h
  · cases h; exact ⟨by omega, Eq.symm ‹_›⟩
  · split at h
    · cases h; exact ⟨by omega, Eq.symm ‹_›⟩
    · split at h
      · cases h; exact ⟨by omega, Eq.symm ‹_›⟩
      · cases h

theorem volumeModeOf_eq_some {n : Nat} {m : VolumeMode} (h : volumeModeOf n = some m) : n < 2 ∧ m.place = n := by
  unfold volumeModeOf at h
  split at h
  · cases h; exact ⟨by omega, Eq.symm ‹_›⟩
  · split at h
    · cases h; exact ⟨by omega, Eq.symm ‹_›⟩
    · cases h

theorem optionalId_eq_some {k : Nat} {o : Option Nat} {i : Option (Fin k)} (h : optionalId k o = some i) :
    (∀ n, o = some n → n < k) ∧ i.map Fin.val = o := by
  cases o with
  | none => cases h; exact ⟨nofun, rfl⟩
  | some n =>
    by_cases small : n < k
    · simp only [optionalId, toId, small, dif_pos, Option.map_some, Option.some.injEq] at h
      rw [← h]
      exact ⟨fun m e => Option.some.inj e ▸ small, rfl⟩
    · simp [optionalId, toId, small] at h

/-- The enumerated fields and the fallback plan of a record all name something (R24). -/
def NamedRecord (r : RecordFields) : Prop :=
  r.nsEnable < 2 ∧ r.muteMode < 3 ∧ r.volumeMode < 2 ∧ r.pushToTalk < 2 ∧ ∀ n, r.fallback = some n → n < 16

theorem storedRecord_of_named {r : RecordFields} (h : NamedRecord r) : ∃ c, storedRecord r = some c := by
  obtain ⟨nsEnable, muteMode, volumeMode, pushToTalk, fallback⟩ := h
  obtain ⟨m, mute⟩ : ∃ m, muteModeOf r.muteMode = some m := by
    obtain e | e | e : r.muteMode = 0 ∨ r.muteMode = 1 ∨ r.muteMode = 2 := by omega
    all_goals rw [e]; exact ⟨_, rfl⟩
  obtain ⟨v, volume⟩ : ∃ v, volumeModeOf r.volumeMode = some v := by
    obtain e | e : r.volumeMode = 0 ∨ r.volumeMode = 1 := by omega
    all_goals rw [e]; exact ⟨_, rfl⟩
  obtain ⟨f, id⟩ : ∃ f, optionalId 16 r.fallback = some f := by
    cases e : r.fallback with
    | none => exact ⟨_, rfl⟩
    | some n => exact ⟨some ⟨n, fallback n e⟩, by simp [optionalId, toId, fallback n e]⟩
  unfold storedRecord
  rw [flagOf_of_lt nsEnable, flagOf_of_lt pushToTalk, mute, volume, id]
  exact ⟨_, rfl⟩

/-- The record as stored: every field, and each enumerated field's byte read back (R24, Table 1-4). -/
theorem storedRecord_fields {r : RecordFields} {c : PositionConfig} (h : storedRecord r = some c) : NamedRecord r ∧
    ∃ f m v, f.map Fin.val = r.fallback ∧ m.place = r.muteMode ∧ v.place = r.volumeMode ∧ c = {
      earVolume := clamp 1024 32767 r.earVolume, sidetone := clamp 0 8192 r.sidetone, limiterLevel := clamp 1024 32767 r.limiterLevel
      limiterRelease := clamp 1 64 r.limiterRelease, nsEnable := decide (r.nsEnable = 0), nsRatio := clamp 2 64 r.nsRatio
      nsHangover := clamp 0 500 r.nsHangover, nsAttenuation := clamp 0 16384 r.nsAttenuation, nsAttack := clamp 1 4096 r.nsAttack
      nsRelease := clamp 1 4096 r.nsRelease, whisperGap := clamp 0 500 r.whisperGap, whisperDuck := clamp 0 16384 r.whisperDuck
      whisperDeadline := clamp 25 2500 r.whisperDeadline, fallback := f, muteMode := m, volumeMode := v
      pushToTalk := decide (r.pushToTalk = 0), qualification := clamp 0 250 r.qualification, recovery := clamp 25 2500 r.recovery
      parityThreshold := clamp 1 65535 r.parityThreshold, hysteresis := clamp 1 100 r.hysteresis } := by
  simp only [storedRecord, Option.bind_eq_bind, Option.bind_eq_some_iff] at h
  obtain ⟨ns, hns, f, hf, m, hm, v, hv, talk, htalk, rest⟩ := h
  obtain ⟨mute, place⟩ := muteModeOf_eq_some hm
  obtain ⟨volume, place'⟩ := volumeModeOf_eq_some hv
  obtain ⟨small, id⟩ := optionalId_eq_some hf
  have nsByte := flagOf_eq_some hns
  have talkByte := flagOf_eq_some htalk
  rw [flagOf_of_lt nsByte] at hns
  rw [flagOf_of_lt talkByte] at htalk
  cases hns
  cases htalk
  exact ⟨⟨nsByte, mute, volume, talkByte, small⟩, f, m, v, id, place, place', (Option.some.inj rest).symm⟩

/-- Settles O6: the record read back field by field (`storedRecord_fields`), the feeds re-derived at the event's end. -/
theorem positionConfigAndMute : Obligations.PositionConfigAndMute := by
  refine ⟨fun s p tag r ready => ⟨fun named => ?_, fun unnamed => ?_⟩, fun s p tag b ready => ?_⟩
  · obtain ⟨c, stored⟩ := storedRecord_of_named named
    obtain ⟨-, f, m, v, fallback, mute, volume, e⟩ := storedRecord_fields stored
    have run : exec (.positionConfig tag (.fields ⟨p.val, r⟩)) s = .next ((s.configure p c).ok 0x03 tag) := by
      rw [exec_positionConfig_ready ready]
      simp only [ownPositionConfig, withPosition_val, stored, replied_accept]
    refine ⟨_, c, run, tget_tset_same _ _ _, fun q other => tget_tset_ne _ _ _ _ (Ne.symm other), ?_⟩
    have settled : s.configure p c = (s.modPos p fun x => { x with config := c, earVolume := c.earVolume }).rederiveAll :=
      State.finish_of_records rfl rfl rfl
    refine ⟨by rw [e], by rw [e], by rw [e], by rw [e], by rw [e], by rw [e], by rw [e], by rw [e], by rw [e], by rw [e], by rw [e], by rw [e],
      by rw [e], by rw [e]; exact fallback, by rw [e]; exact mute, by rw [e]; exact volume, by rw [e], by rw [e], by rw [e], by rw [e], by rw [e],
      (s.modPos p fun x => { x with config := c, earVolume := c.earVolume }).finish_rederived s, rfl, ?_⟩
    rw [settled]
    rfl
  · rw [exec_positionConfig_ready ready]
    have none : storedRecord r = Option.none := by
      cases stored : storedRecord r with
      | none => rfl
      | some c => exact absurd (storedRecord_fields stored).1 unnamed
    simp only [ownPositionConfig, withPosition_val, none, replied_refuse]
  · rw [exec_positionMute_ready ready]
    refine ⟨fun named same => ?_, fun named other => ?_, fun beyond => ?_⟩ <;> simp only [ownPositionMute, withPosition_val]
    · rw [flagOf_of_lt named]
      exact congrArg (fun t : State => Host.Outcome.next (t.ok 0x04 tag)) (if_pos same)
    · rw [flagOf_of_lt named]
      exact congrArg (fun t : State => Host.Outcome.next (t.ok 0x04 tag)) (if_neg other)
    · rw [flagOf_beyond beyond, replied_refuse]

/-! ### Up-frames outside LIVE (R1, R6, R7, R9, R10) -/

section UpFrame
variable {s : State} {p : PosId} (f : UpFrame) {time : Nat}

theorem exec_upFrame_acquiring (state : (s.pos p).port.state = .acquiring) : exec (.upFrame p f time) s = .next (s.countFrame p time) := by
  show (.next (s.upFrame p f time) : Result) = _
  unfold State.upFrame
  rw [state]

theorem State.countFrame_first (interval : (s.pos p).port.interval = none) :
    s.countFrame p time = s.modPort p fun x => { x with noFrames := false, frameSeen := true, interval := some ⟨time, 0⟩ } := by
  unfold State.countFrame
  rw [interval]
  exact State.modPort_modPort s p _ _

theorem State.countFrame_within {i : Interval} (interval : (s.pos p).port.interval = some i) (short : i.frames < 255) :
    s.countFrame p time =
      s.modPort p fun x => { x with noFrames := false, frameSeen := true, interval := some ⟨i.openedAt, i.frames + 1⟩ } := by
  unfold State.countFrame
  rw [interval]
  dsimp only
  rw [if_pos (show i.frames + 1 < Config.measureFrames from Nat.succ_lt_succ short), State.modPort_modPort]

theorem State.countFrame_last {i : Interval} (interval : (s.pos p).port.interval = some i) (last : i.frames = 255) :
    s.countFrame p time =
      (s.modPort p fun x => { x with noFrames := false, frameSeen := true }).closeMeasurement p time (time - i.openedAt) := by
  unfold State.countFrame
  rw [interval]
  dsimp only
  rw [if_neg (show ¬ i.frames + 1 < Config.measureFrames from last ▸ lt_irrefl _)]

theorem measureOffset_eq (n : Nat) : measureOffset n = sat16Int (((256000000 - (n : Int)) * 1000000).tdiv (n : Int)) := rfl

theorem inRange_iff (m : Int) : inRange m = true ↔ -300 ≤ m ∧ m ≤ 300 := by
  simp only [inRange, Bool.and_eq_true, decide_eq_true_eq]
  exact Iff.rfl

theorem qualifies_iff (h : Nat) (m b : Int) :
    qualifies h m b = true ↔ (m - b).natAbs ≤ h ∧ (-300 ≤ m ∧ m ≤ 300) ∧ -300 ≤ b ∧ b ≤ 300 := by
  simp only [qualifies, Bool.and_eq_true, decide_eq_true_eq, inRange_iff, and_assoc]

theorem inRange_of_qualifies {h : Nat} {m b : Int} (k : qualifies h m b = true) : inRange m = true :=
  (inRange_iff m).2 ((qualifies_iff h m b).1 k).2.1

/-- A measurement that forms a qualifying pair with the one before (R6, R9). -/
theorem State.closeMeasurement_pair {n : Nat} {b : Int} (previous : (s.pos p).port.previous = some b)
    (pair : qualifies (s.pos p).config.hysteresis (measureOffset n) b = true) :
    s.closeMeasurement p time n = (s.modPort p fun x => { x with
      lastOffset := measureOffset n, measured := true, previous := some (measureOffset n), interval := some ⟨time, 0⟩ }).enterQualifying p time := by
  have good := inRange_of_qualifies pair
  unfold State.closeMeasurement
  dsimp only
  rw [previous, good]
  exact if_pos pair

/-- A measurement in range that forms no qualifying pair (R6). -/
theorem State.closeMeasurement_alone {n : Nat} (good : inRange (measureOffset n) = true)
    (alone : ∀ b, (s.pos p).port.previous = some b → qualifies (s.pos p).config.hysteresis (measureOffset n) b = false) :
    s.closeMeasurement p time n = s.modPort p fun x => { x with
      lastOffset := measureOffset n, measured := true, previous := some (measureOffset n), interval := some ⟨time, 0⟩ } := by
  unfold State.closeMeasurement
  dsimp only
  rw [good]
  cases previous : (s.pos p).port.previous with
  | none => rfl
  | some b =>
    dsimp only
    rw [alone b previous]
    rfl

/-- A measurement out of range is reported once in an acquisition, and forms no pair (R6, R7). -/
theorem State.closeMeasurement_fault {n : Nat} (bad : inRange (measureOffset n) = false) :
    s.closeMeasurement p time n = (fun t : State => if (s.pos p).port.rateFault = false
        then (t.modPort p fun x => { x with rateFault := true }).report (.rateFault p (measureOffset n)) else t)
      (s.modPort p fun x => { x with
        lastOffset := measureOffset n, measured := true, previous := some (measureOffset n), interval := some ⟨time, 0⟩ }) := by
  have alone : ∀ b, qualifies (s.pos p).config.hysteresis (measureOffset n) b = false := fun b => by
    cases pair : qualifies (s.pos p).config.hysteresis (measureOffset n) b with
    | false => rfl
    | true => exact nomatch bad.symm.trans (inRange_of_qualifies pair)
  unfold State.closeMeasurement
  dsimp only
  rw [bad]
  cases previous : (s.pos p).port.previous with
  | none => simp only [true_and]
  | some b => simp only [true_and, alone b, Bool.false_eq_true, if_false]

end UpFrame

/-- Settles O8: the frame is counted (`State.countFrame`) and the measurement that it closes is judged (`State.closeMeasurement`). -/
theorem upFrameOutsideLive : Obligations.UpFrameOutsideLive := by
  intro s p f time
  have counted := fun state : (s.pos p).port.state = .acquiring => exec_upFrame_acquiring (s := s) (p := p) f (time := time) state
  have closed : ∀ i, (s.pos p).port.state = .acquiring → (s.pos p).port.interval = some i → i.frames = 255 → exec (.upFrame p f time) s = .next
      ((s.modPort p fun x => { x with noFrames := false, frameSeen := true }).closeMeasurement p time (time - i.openedAt)) :=
    fun i state interval last => (counted state).trans (congrArg _ (State.countFrame_last interval last))
  refine ⟨fun state => ?_, fun state => ?_, fun state => ?_, fun state interval => ?_, fun i state interval short => ?_,
    fun i m state interval last _ offset out => ?_, fun i m b state interval last _ offset low high zero previous near low' high' => ?_,
    fun i m state interval last _ offset low high some_ => ?_⟩
  · show (.next (s.upFrame p f time) : Result) = _
    unfold State.upFrame
    obtain state | state | state := state <;> rw [state]
  · show (.next (s.upFrame p f time) : Result) = _
    unfold State.upFrame
    rw [state]
    rfl
  · show (.next (s.upFrame p f time) : Result) = _
    unfold State.upFrame
    rw [state]
    rfl
  · exact ⟨_, (counted state).trans (congrArg _ (State.countFrame_first interval)), OnlyPos.modPort _ _ _, State.pos_modPort_same _ _ _⟩
  · exact ⟨_, (counted state).trans (congrArg _ (State.countFrame_within interval short)), OnlyPos.modPort _ _ _, State.pos_modPort_same _ _ _⟩
  · have offset : measureOffset (time - i.openedAt) = m := offset.symm
    have bad : inRange (measureOffset (time - i.openedAt)) = false := by
      rw [offset, Bool.eq_false_iff, ne_eq, inRange_iff]
      omega
    refine ⟨_, (closed i state interval last).trans (congrArg _ (State.closeMeasurement_fault bad)), ?_⟩
    rw [offset, State.pos_modPort_same, State.modPort_modPort]
    dsimp only
    cases fault : (s.pos p).port.rateFault with
    | false =>
      rw [if_pos rfl, if_neg Bool.false_ne_true, State.modPort_modPort]
      simp only [State.report_pos, State.pos_modPort_same]
      exact ⟨fun q other => State.pos_modPort_ne _ _ _ _ (Ne.symm other), trivial, rfl, rfl⟩
    | true =>
      rw [if_neg (nofun), if_pos rfl]
      refine ⟨fun q other => State.pos_modPort_ne _ _ _ _ (Ne.symm other), ?_, rfl, rfl⟩
      rw [State.pos_modPort_same, ← fault]
  · have offset : measureOffset (time - i.openedAt) = m := offset.symm
    have pair : qualifies (s.pos p).config.hysteresis (measureOffset (time - i.openedAt)) b = true := by
      rw [offset, qualifies_iff]
      exact ⟨near, ⟨low, high⟩, low', high'⟩
    have qualified := State.closeMeasurement_pair (s := s.modPort p fun x => { x with noFrames := false, frameSeen := true }) (p := p) (time := time)
      (by rw [State.pos_modPort_same]; exact previous) (by rw [State.pos_modPort_same]; exact pair)
    refine ⟨_, (closed i state interval last).trans (congrArg _ qualified), ?_⟩
    unfold State.enterQualifying
    dsimp only
    rw [State.modPort_modPort, State.pos_modPort_same, if_pos zero, State.modPort_modPort, offset]
    refine ⟨fun q other => ?_, ?_⟩
    · show ((State.modPos _ p Position.enterLive).pos q) = _
      rw [State.pos_modPos_ne _ _ _ _ (Ne.symm other), State.pos_modPort_ne _ _ _ _ (Ne.symm other)]
    · unfold State.enterLive
      rw [State.report_pos, State.pos_modPos_same, State.pos_modPort_same]
      exact ⟨rfl, rfl, rfl, rfl, rfl, rfl, rfl, rfl, rfl, rfl, rfl, rfl⟩
  · have offset : measureOffset (time - i.openedAt) = m := offset.symm
    have good : inRange (measureOffset (time - i.openedAt)) = true := by
      rw [offset, inRange_iff]
      exact ⟨low, high⟩
    by_cases pair : ∃ b, (s.pos p).port.previous = some b ∧ (m - b).natAbs ≤ (s.pos p).config.hysteresis ∧ -300 ≤ b ∧ b ≤ 300
    · obtain ⟨b, previous, near, low', high'⟩ := pair
      have pair : qualifies (s.pos p).config.hysteresis (measureOffset (time - i.openedAt)) b = true := by
        rw [offset, qualifies_iff]
        exact ⟨near, ⟨low, high⟩, low', high'⟩
      have qualified := State.closeMeasurement_pair (s := s.modPort p fun x => { x with noFrames := false, frameSeen := true }) (p := p) (time := time)
        (by rw [State.pos_modPort_same]; exact previous) (by rw [State.pos_modPort_same]; exact pair)
      refine ⟨_, (closed i state interval last).trans (congrArg _ qualified), ?_⟩
      unfold State.enterQualifying
      dsimp only
      rw [State.modPort_modPort, State.pos_modPort_same, if_neg some_.ne', State.modPort_modPort, offset, State.pos_modPort_same]
      exact ⟨OnlyPos.modPort _ _ _, rfl, rfl, rfl, rfl, fun _ => ⟨rfl, rfl, rfl⟩, fun k => absurd ⟨b, previous, near, low', high'⟩ k⟩
    · have alone := State.closeMeasurement_alone (s := s.modPort p fun x => { x with noFrames := false, frameSeen := true }) (p := p) (time := time)
        good fun b previous => by
          rw [State.pos_modPort_same] at previous ⊢
          rw [offset, Bool.eq_false_iff, ne_eq, qualifies_iff]
          exact fun k => pair ⟨b, previous, k.1, k.2.2⟩
      refine ⟨_, (closed i state interval last).trans (congrArg _ alone), ?_⟩
      rw [State.modPort_modPort, offset, State.pos_modPort_same]
      exact ⟨OnlyPos.modPort _ _ _, rfl, rfl, rfl, rfl, fun k => absurd k pair, fun _ => state⟩

/-! ### Down-frames (R2, R15) -/

theorem evenParity_complement (samples : List Sample) (flags : List Bool) : evenParity samples flags (!evenParity samples flags false) = true := by
  unfold evenParity
  generalize samples.foldl (fun acc x => acc + onesOf x) 0 + flags.foldl (fun acc b => acc + b.toNat) 0 = n
  obtain even | odd := Nat.mod_two_eq_zero_or_one n
  · simp [even]
  · simp [odd, Nat.add_mod]

/-- A frame taken from a buffer that holds fewer is completed by its last sample, or by zeros (R15). -/
theorem takeFrame_short_getElem? {samples : List Sample} (short : samples.length < 16) {i : Nat} (h : i < 16) :
    (samples ++ List.replicate (16 - samples.length) (samples.getLast?.getD 0))[i]? = some (samples[i]?.getD (samples.getLast?.getD 0)) := by
  by_cases within : i < samples.length
  · rw [List.getElem?_append_left within, List.getElem?_eq_getElem within]
    rfl
  · rw [List.getElem?_append_right (not_lt.1 within), List.getElem?_replicate, if_pos (by omega), List.getElem?_eq_none (not_lt.1 within)]
    rfl

/-- Settles O10. -/
theorem downFrameSent : Obligations.DownFrameSent := by
  intro s p
  refine ⟨fun notQualifying notLive => ?_, fun sends => ?_⟩
  · show (.next (s.downFrame p) : Result) = _
    unfold State.downFrame
    cases state : (s.pos p).port.state with
    | qualifying => exact absurd state notQualifying
    | live => exact absurd state notLive
    | _ => rfl
  · have made : ∀ samples : List Sample, ∃ d, d = s.makeDownFrame p samples ∧ d.samples = samples ∧ d.muteLamp = (s.pos p).mute ∧
        d.busyLamp = (s.pos p).leg.isSome ∧ evenParity d.samples [d.muteLamp, d.busyLamp] d.parity = true :=
      fun samples => ⟨_, rfl, rfl, rfl, rfl, evenParity_complement _ _⟩
    obtain state | state := sends
    · obtain ⟨d, e, samples, mute, busy, parity⟩ := made (List.replicate 16 0)
      have sent : exec (.downFrame p) s = .next (s.modPort p fun x => { x with downFrame := some d }) := by
        show (.next (s.downFrame p) : Result) = _
        unfold State.downFrame
        rw [state, e]
        rfl
      refine ⟨_, d, sent, OnlyPos.modPort _ _ _, ?_⟩
      rw [State.pos_modPort_same]
      exact ⟨rfl, by rw [samples, List.length_replicate], mute, busy, parity, rfl, fun _ => ⟨samples, rfl⟩, fun k => (nomatch state.symm.trans k),
        fun k => (nomatch state.symm.trans k)⟩
    · obtain ⟨d, e, samples, mute, busy, parity⟩ := made (s.pos p).port.downlink.takeFrame.2
      have sent : exec (.downFrame p) s = .next
          (s.modPort p fun x => { x with downlink := (s.pos p).port.downlink.takeFrame.1, downFrame := some d }) := by
        show (.next (s.downFrame p) : Result) = _
        unfold State.downFrame
        rw [state, e]
        rfl
      refine ⟨_, d, sent, OnlyPos.modPort _ _ _, ?_⟩
      rw [State.pos_modPort_same]
      by_cases short : (s.pos p).port.downlink.samples.length < 16
      · have taken : (s.pos p).port.downlink.takeFrame = ({ (s.pos p).port.downlink with
            samples := [], underruns := sat16Count (s.pos p).port.downlink.underruns 1 },
            (s.pos p).port.downlink.samples ++ List.replicate (16 - (s.pos p).port.downlink.samples.length)
              ((s.pos p).port.downlink.samples.getLast?.getD 0)) := if_neg (not_le.2 short)
        rw [taken] at samples ⊢
        refine ⟨rfl, ?_, mute, busy, parity, rfl, fun k => (nomatch state.symm.trans k), fun _ k => absurd short (not_lt.2 k),
          fun _ _ => ⟨fun i h => by rw [samples]; exact takeFrame_short_getElem? short h, rfl⟩⟩
        rw [samples, List.length_append, List.length_replicate]
        omega
      · have taken : (s.pos p).port.downlink.takeFrame = ({ (s.pos p).port.downlink with
            samples := (s.pos p).port.downlink.samples.drop 16 }, (s.pos p).port.downlink.samples.take 16) := if_pos (not_lt.1 short)
        rw [taken] at samples ⊢
        refine ⟨rfl, ?_, mute, busy, parity, rfl, fun k => (nomatch state.symm.trans k), fun _ _ => ⟨samples, rfl⟩, fun _ k => absurd k short⟩
        rw [samples, List.length_take]
        omega

/-! ### The block event up to an acquisition (R3, R4, R5, R13) -/

/-- Settles O12: the block event's branches for DISABLED, ABSENT and DETECTED. -/
theorem headsetInsertion : Obligations.HeadsetInsertion := by
  intro s p line
  have sampled : ∀ line, ((s.modPort p fun x => { x with
      presence := line, insertCount := if line then x.insertCount + 1 else 0 }).putMic p zeroBlock).pos p = { s.pos p with port :=
        { (s.pos p).port with presence := line, insertCount := if line then (s.pos p).port.insertCount + 1 else 0 } } := fun line => by
    rw [State.putMic_pos, State.pos_modPort_same]
  have others : ∀ line q, q ≠ p → ((s.modPort p fun x => { x with
      presence := line, insertCount := if line then x.insertCount + 1 else 0 }).putMic p zeroBlock).pos q = s.pos q := fun line q other => by
    rw [State.putMic_pos, State.pos_modPort_ne _ _ _ _ (Ne.symm other)]
  have few : ∀ line, (s.pos p).port.state = .absent → ¬ 12 ≤ (if line then (s.pos p).port.insertCount + 1 else 0) →
      s.portBlock .unplugFirst p line = (s.modPort p fun x => { x with
        presence := line, insertCount := if line then x.insertCount + 1 else 0 }).putMic p zeroBlock := fun line state short => by
    unfold State.portBlock
    rw [state]
    exact if_neg (by rw [sampled]; exact short)
  have twelve : (s.pos p).port.state = .absent → 12 ≤ (s.pos p).port.insertCount + 1 → s.portBlock .unplugFirst p true =
      (((s.modPort p fun x => { x with presence := true, insertCount := if true then x.insertCount + 1 else 0 }).putMic p zeroBlock).modPort p
        fun x => { x with state := .detected }).report (.headsetInserted p) := fun state count => by
    unfold State.portBlock
    rw [state]
    exact if_pos (by rw [sampled]; exact count)
  refine ⟨fun state => ?_, fun state short => ?_, fun state twelfth => ?_, fun state stays => ?_⟩
  · show (.next (s.portBlock .unplugFirst p line) : Result) = _
    unfold State.portBlock
    rw [state]
    rfl
  · have below : ¬ 12 ≤ (if line then (s.pos p).port.insertCount + 1 else 0) := by
      cases line with
      | false => exact Nat.not_succ_le_zero _
      | true => exact not_le.2 (short.resolve_left nofun)
    exact ⟨_, congrArg Host.Outcome.next (few line state below), others line, sampled line, rfl⟩
  · refine ⟨_, congrArg Host.Outcome.next (if_pos ⟨state, twelfth⟩), rfl, ?_⟩
    rw [twelve state twelfth]
    refine ⟨fun q other => ?_, ?_, rfl, rfl⟩
    · rw [State.report_pos, State.pos_modPort_ne _ _ _ _ (Ne.symm other), others true q other]
    · rw [State.report_pos, State.pos_modPort_same, sampled]
      rfl
  · have entered : s.portBlock .unplugFirst p line =
        ((s.modPort p fun x => { (x.sampleUnplug line) with frameSeen := false }).putMic p zeroBlock).modPort p Port.acquire := by
      have none : ((s.modPort p fun x => { (x.sampleUnplug line) with frameSeen := false }).putMic p zeroBlock).unplugDue p = false := by
        have count : (((s.modPort p fun x => { (x.sampleUnplug line) with frameSeen := false }).putMic p zeroBlock).pos p).port.unplugCount
            = if line then 0 else (s.pos p).port.unplugCount + 1 := by
          rw [State.putMic_pos, State.pos_modPort_same]
          rfl
        unfold State.unplugDue
        rw [count, decide_eq_false]
        · rfl
        · show ¬ 2 ≤ _
          split
          · omega
          · rename_i k
            exact not_le.2 (stays.resolve_left k)
      unfold State.portBlock
      rw [state]
      dsimp only
      rw [none]
      rfl
    refine ⟨_, congrArg Host.Outcome.next (if_pos state), rfl, ?_⟩
    rw [entered]
    refine ⟨fun q other => ?_, ?_, rfl⟩
    · rw [State.pos_modPort_ne _ _ _ _ (Ne.symm other), State.putMic_pos, State.pos_modPort_ne _ _ _ _ (Ne.symm other)]
    · rw [State.pos_modPort_same, State.putMic_pos, State.pos_modPort_same]
      rfl

end Sys2Proof.Machine
end

section
set_option Elab.async false
/-! ## Buttons, frames in LIVE, lock loss (O9, O11) -/

namespace Sys2Proof.Machine

/-! ### A position's record changed and reports made -/

/-- A position's record changed, and reports made in the present period. -/
def State.reporting (s : State) (p : PosId) (f : Position → Position) (made : List ReportBody) : State :=
  { s.modPos p f with link := s.link.placeReports s.highway.period made }

section Reporting
variable {s : State} {p : PosId}

theorem Link.placeReports_append (k : Link) (now : BitVec 32) (a b : List ReportBody) :
    k.placeReports now (a ++ b) = (k.placeReports now a).placeReports now b := List.foldl_append

@[simp] theorem State.reporting_pos_same (s : State) (p : PosId) (f : Position → Position) (made : List ReportBody) :
    (s.reporting p f made).pos p = f (s.pos p) := State.pos_modPos_same s p f

theorem State.reporting_pos_ne (s : State) {p q : PosId} (f : Position → Position) (made : List ReportBody) (h : q ≠ p) :
    (s.reporting p f made).pos q = s.pos q := State.pos_modPos_ne s p q f (Ne.symm h)

theorem State.reporting_reporting (s : State) (p : PosId) (f g : Position → Position) (a b : List ReportBody) :
    (s.reporting p f a).reporting p g b = s.reporting p (fun x => g (f x)) (a ++ b) := by
  show { (s.modPos p f).modPos p g with link := (s.link.placeReports s.highway.period a).placeReports s.highway.period b } = _
  rw [State.modPos_modPos, ← Link.placeReports_append]
  rfl

theorem State.modPos_eq_reporting (s : State) (p : PosId) (f : Position → Position) : s.modPos p f = s.reporting p f [] := rfl

theorem State.modPort_eq_reporting (s : State) (p : PosId) (f : Port → Port) :
    s.modPort p f = s.reporting p (fun x => { x with port := f x.port }) [] := rfl

theorem State.report_eq_reporting (s : State) (p : PosId) (b : ReportBody) : s.report b = s.reporting p id [b] := by
  have same : s.modPos p id = s := by
    show { s with positions := tset s.positions p (tget s.positions p) } = s
    rw [tset_tget]
  unfold State.reporting
  rw [same]
  rfl

theorem State.reporting_self (s : State) (p : PosId) : s.reporting p id [] = s := by
  have same : s.modPos p id = s := by
    show { s with positions := tset s.positions p (tget s.positions p) } = s
    rw [tset_tget]
  exact same

/-- Changes that agree on the record as it stands are the same change. -/
theorem State.reporting_congr {f g : Position → Position} (h : f (s.pos p) = g (s.pos p)) (made : List ReportBody) :
    s.reporting p f made = s.reporting p g made := by
  unfold State.reporting State.modPos
  rw [h]

end Reporting

/-! ### The buttons (R18 to R21) -/

/-- The mute flag after a press or a release of the MUTE button (R19). -/
def Position.muteAfter (x : Position) (pressed : Bool) : Bool :=
  match x.config.muteMode with
  | .toggle => if pressed then !x.mute else x.mute
  | .push => pressed
  | .off => x.mute

/-- The volume after a press of a volume button (R20). -/
def Position.volumeAfter (x : Position) (up : Bool) : Nat :=
  match x.config.volumeMode with
  | .localVolume => if up then volumeUp x.earVolume else volumeDown x.earVolume
  | .reportOnly => x.earVolume

/-- A position after a press or a release of a button (R18 to R21). -/
def Position.acted (x : Position) (b : Button) (pressed : Bool) : Position :=
  match b with
  | .mute => { x with mute := x.muteAfter pressed }
  | .volUp => if pressed then { x with earVolume := x.volumeAfter true } else x
  | .volDown => if pressed then { x with earVolume := x.volumeAfter false } else x
  | .talk => x

/-- The reports of a press or a release of a button (R19 to R21). -/
def Position.actReports (x : Position) (p : PosId) (b : Button) (pressed : Bool) : List ReportBody :=
  match b with
  | .mute => if x.muteAfter pressed = x.mute then [] else [.muteChanged p .button (x.muteAfter pressed)]
  | .volUp => if pressed then [.volumeButton p true (x.volumeAfter true)] else []
  | .volDown => if pressed then [.volumeButton p false (x.volumeAfter false)] else []
  | .talk => [.talkButton p pressed]

theorem State.setMute_eq_reporting (s : State) (p : PosId) (value : Bool) (cause : MuteCause) :
    s.setMute p value cause = s.reporting p (fun x => { x with mute := value })
      (if value = (s.pos p).mute then [] else [.muteChanged p cause value]) := by
  obtain ⟨same, e⟩ | ⟨other, e⟩ := s.setMute_cases p value cause <;> rw [e]
  · rw [if_pos same.symm]
    refine (s.reporting_self p).symm.trans (State.reporting_congr ?_ [])
    show s.pos p = { s.pos p with mute := value }
    rw [← same]
  · rw [if_neg (Ne.symm other)]
    rfl

/-- The MUTE button sets the mute flag, in each of its modes (R19). -/
theorem State.muteButton_eq_setMute (s : State) (p : PosId) (pressed : Bool) :
    s.muteButton p pressed = s.setMute p ((s.pos p).muteAfter pressed) .button := by
  have same : s.setMute p (s.pos p).mute .button = s := if_pos rfl
  unfold State.muteButton Position.muteAfter
  cases (s.pos p).config.muteMode with
  | toggle =>
    cases pressed with
    | false => exact same.symm
    | true => rfl
  | push => rfl
  | off => exact same.symm

theorem State.volumePress_eq_reporting (s : State) (p : PosId) (up : Bool) : s.volumePress p up =
    s.reporting p (fun x => { x with earVolume := x.volumeAfter up }) [.volumeButton p up ((s.pos p).volumeAfter up)] := by
  have press : s.volumePress p up = (s.modPos p fun x => { x with earVolume := (s.pos p).volumeAfter up }).report
      (.volumeButton p up ((s.pos p).volumeAfter up)) := by
    unfold State.volumePress Position.volumeAfter
    cases (s.pos p).config.volumeMode <;> rfl
  rw [press]
  exact State.reporting_congr (s := s) (p := p) (f := fun x => { x with earVolume := (s.pos p).volumeAfter up })
    (g := fun x => { x with earVolume := x.volumeAfter up }) rfl [.volumeButton p up ((s.pos p).volumeAfter up)]

theorem State.buttonAct_eq_reporting (s : State) (p : PosId) (b : Button) (pressed : Bool) :
    s.buttonAct p b pressed = s.reporting p (fun x => x.acted b pressed) ((s.pos p).actReports p b pressed) := by
  cases b with
  | mute => exact (s.muteButton_eq_setMute p pressed).trans (s.setMute_eq_reporting p _ .button |>.trans (State.reporting_congr rfl _))
  | talk => exact s.report_eq_reporting p _
  | volUp =>
    cases pressed with
    | false => exact (s.reporting_self p).symm
    | true => exact s.volumePress_eq_reporting p _
  | volDown =>
    cases pressed with
    | false => exact (s.reporting_self p).symm
    | true => exact s.volumePress_eq_reporting p _

/-! ### A good frame's control slot (R18) -/

/-- A button's debounce after a good frame that shows it so. -/
def Debounce.next (d : Debounce) (shown : Bool) : Debounce :=
  if shown = d.pressed then ⟨d.pressed, 0⟩ else if d.run + 1 < 4 then ⟨d.pressed, d.run + 1⟩ else ⟨!d.pressed, 0⟩

/-- The button acts at a good frame that shows it so. -/
def Debounce.acts (d : Debounce) (shown : Bool) : Bool := decide (shown ≠ d.pressed ∧ 4 ≤ d.run + 1)

theorem acts_iff (x : Port) (shown : Buttons Bool) (b : Button) :
    Acts x shown b ↔ (buttonOf x.buttons b).acts (buttonOf shown b) = true := by
  simp only [Acts, Debounce.acts, decide_eq_true_eq]

/-- A button changes exactly when it acts. -/
theorem Debounce.next_pressed (d : Debounce) (shown : Bool) : (d.next shown).pressed = if d.acts shown then shown else d.pressed := by
  unfold Debounce.next Debounce.acts
  by_cases same : shown = d.pressed
  · simp [same]
  · by_cases early : d.run + 1 < 4
    · simp [same, early, Nat.not_le.2 early]
    · have other : shown = !d.pressed := by revert same; cases shown <;> cases d.pressed <;> simp
      simp [other, early, Nat.not_lt.1 early]

theorem buttonOf_setButton {α : Type} (b : Buttons α) (x : α) (i j : Button) :
    buttonOf (setButton b x i) j = if j = i then x else buttonOf b j := by
  cases i <;> cases j <;> rfl

/-- A position's record after one button: its debounce moves, and it does what a press or a release does where it acts. -/
def Position.passed (x : Position) (acts : Debounce → Bool) (next : Debounce → Debounce) (b : Button) (shown : Bool) : Position :=
  (fun y : Position => if acts (buttonOf x.port.buttons b) then y.acted b shown else y)
    { x with port := { x.port with buttons := setButton x.port.buttons (next (buttonOf x.port.buttons b)) b } }

/-- The reports of one button. -/
def Position.passReports (x : Position) (p : PosId) (acts : Debounce → Bool) (b : Button) (shown : Bool) : List ReportBody :=
  if acts (buttonOf x.port.buttons b) then x.actReports p b shown else []

/-- A button that acts, its debounce moved first. -/
theorem State.buttonAct_after (s : State) (p : PosId) (d : Debounce) (b : Button) (pressed : Bool) :
    (s.modPort p fun y => { y with buttons := setButton y.buttons d b }).buttonAct p b pressed = s.reporting p
      (fun x => ({ x with port := { x.port with buttons := setButton x.port.buttons d b } } : Position).acted b pressed)
      ((s.pos p).actReports p b pressed) := by
  rw [State.buttonAct_eq_reporting, State.modPort_eq_reporting, State.reporting_reporting, State.reporting_pos_same, List.nil_append]
  have reports : ∀ y, ({ s.pos p with port := y } : Position).actReports p b pressed = (s.pos p).actReports p b pressed := fun y => by
    cases b <;> rfl
  rw [reports]

theorem State.debounce_eq_reporting (s : State) (p : PosId) (b : Button) (shown : Bool) :
    s.debounce p b shown = s.reporting p (fun x => x.passed (·.acts shown) (·.next shown) b shown)
      ((s.pos p).passReports p (·.acts shown) b shown) := by
  unfold State.debounce Position.passReports
  extract_lets d put
  have place : ∀ x, put x = s.reporting p (fun y => { y with port := { y.port with buttons := setButton y.port.buttons x b } }) [] := fun _ => rfl
  have own : buttonOf (s.pos p).port.buttons b = d := rfl
  by_cases acts : d.acts shown = true
  · obtain ⟨other, late⟩ := of_decide_eq_true acts
    have flip : (!d.pressed) = shown := by revert other; cases shown <;> cases d.pressed <;> simp
    have next : d.next shown = ⟨shown, 0⟩ := (if_neg other).trans ((if_neg (not_lt.2 late)).trans (by rw [flip]))
    rw [if_neg other, if_neg (show ¬ d.run + 1 < Config.debounceFrames from not_lt.2 late), if_pos acts]
    refine (s.buttonAct_after p ⟨shown, 0⟩ b shown).trans (State.reporting_congr ?_ _)
    unfold Position.passed
    dsimp only
    rw [own, next, if_pos acts]
  · have moved : (if shown = d.pressed then put { d with run := 0 } else if d.run + 1 < Config.debounceFrames then put { d with run := d.run + 1 }
        else (put ⟨shown, 0⟩).buttonAct p b shown) = put (d.next shown) := by
      unfold Debounce.next
      by_cases same : shown = d.pressed
      · rw [if_pos same, if_pos same]
      · have early : d.run + 1 < 4 := not_le.1 fun k => acts (decide_eq_true ⟨same, k⟩)
        rw [if_neg same, if_neg same, if_pos early, if_pos (show d.run + 1 < Config.debounceFrames from early)]
    rw [moved, place, if_neg acts]
    refine State.reporting_congr ?_ []
    unfold Position.passed
    dsimp only
    rw [own, if_neg acts]

/-- What the buttons that act do to the position, in the order MUTE, VOL_UP, VOL_DOWN, TALK (log 29). -/
def Position.effect (x : Position) (acts : Button → Bool) (shown : Buttons Bool) : Position :=
  [Button.mute, .volUp, .volDown, .talk].foldl (fun y b => if acts b then y.acted b (buttonOf shown b) else y) x

/-- The reports of the buttons that act, in the same order. -/
def Position.effectReports (x : Position) (p : PosId) (acts : Button → Bool) (shown : Buttons Bool) : List ReportBody :=
  ([Button.mute, .volUp, .volDown, .talk].foldl (fun (r : Position × List ReportBody) b =>
    if acts b then (r.1.acted b (buttonOf shown b), r.2 ++ r.1.actReports p b (buttonOf shown b)) else r) (x, [])).2

/-- The buttons that act at a good frame. -/
def Port.actsOn (x : Port) (shown : Buttons Bool) (b : Button) : Bool := (buttonOf x.buttons b).acts (buttonOf shown b)

/-- The four debounces after a good frame. -/
def nextButtons (b : Buttons Debounce) (shown : Buttons Bool) : Buttons Debounce :=
  ⟨b.mute.next shown.mute, b.volUp.next shown.volUp, b.volDown.next shown.volDown, b.talk.next shown.talk⟩

theorem buttonOf_nextButtons (b : Buttons Debounce) (shown : Buttons Bool) (i : Button) :
    buttonOf (nextButtons b shown) i = (buttonOf b i).next (buttonOf shown i) := by cases i <;> rfl

/-- One button, seen from a record whose other buttons have been through theirs. -/
theorem Position.passed_step (y : Position) (q : Port) (bs : Buttons Debounce) (acts : Debounce → Bool) (next : Debounce → Debounce) (b : Button)
    (shown : Bool) : ({ y with port := { q with buttons := bs } } : Position).passed acts next b shown =
      { (if acts (buttonOf bs b) then y.acted b shown else y) with
        port := { q with buttons := setButton bs (next (buttonOf bs b)) b } } := by
  unfold Position.passed
  dsimp only
  split
  · cases b <;> cases shown <;> rfl
  · rfl

theorem Position.passReports_step (y : Position) (q : Port) (bs : Buttons Debounce) (p : PosId) (acts : Debounce → Bool) (b : Button)
    (shown : Bool) : ({ y with port := { q with buttons := bs } } : Position).passReports p acts b shown =
      if acts (buttonOf bs b) then y.actReports p b shown else [] := by
  unfold Position.passReports
  cases b <;> rfl

/-- The four buttons, one after the other: their debounces, and what those that act do and report. -/
theorem State.pass_eq_reporting (s : State) (p : PosId) (acts : Button → Debounce → Bool) (next : Button → Debounce → Debounce)
    (shown : Buttons Bool) (one : State → Button → State)
    (each : ∀ t b, one t b = t.reporting p (fun x => x.passed (acts b) (next b) b (buttonOf shown b))
      ((t.pos p).passReports p (acts b) b (buttonOf shown b))) :
    [Button.mute, .volUp, .volDown, .talk].foldl one s = s.reporting p
      (fun x => { x.effect (fun b => acts b (buttonOf x.port.buttons b)) shown with
        port := { x.port with buttons := ⟨next .mute x.port.buttons.mute, next .volUp x.port.buttons.volUp,
          next .volDown x.port.buttons.volDown, next .talk x.port.buttons.talk⟩ } })
      ((s.pos p).effectReports p (fun b => acts b (buttonOf (s.pos p).port.buttons b)) shown) := by
  have own : ∀ x : Position, x = { x with port := { x.port with buttons := x.port.buttons } } := fun _ => rfl
  simp only [List.foldl_cons, List.foldl_nil, each, State.reporting_reporting, State.reporting_pos_same]
  generalize s.pos p = x
  refine congrArg₂ (s.reporting p) (funext fun x => ?_) ?_
  · rw [own x]
    simp only [Position.passed_step]
    rfl
  · rw [own x]
    simp only [Position.passed_step, Position.passReports_step]
    unfold Position.effectReports
    simp only [List.foldl_cons, List.foldl_nil, buttonOf, setButton]
    obtain mute | mute := Bool.eq_false_or_eq_true (acts .mute x.port.buttons.mute) <;>
    obtain up | up := Bool.eq_false_or_eq_true (acts .volUp x.port.buttons.volUp) <;>
    obtain down | down := Bool.eq_false_or_eq_true (acts .volDown x.port.buttons.volDown) <;>
    obtain talk | talk := Bool.eq_false_or_eq_true (acts .talk x.port.buttons.talk) <;> simp [mute, up, down, talk]

/-- A good frame's control slot: the four debounces, and what the buttons that act do and report (R18). -/
theorem State.controlSlot_eq_reporting (s : State) (p : PosId) (shown : Buttons Bool) :
    s.controlSlot p shown = s.reporting p
      (fun x => { x.effect (x.port.actsOn shown) shown with port := { x.port with buttons := nextButtons x.port.buttons shown } })
      ((s.pos p).effectReports p ((s.pos p).port.actsOn shown) shown) :=
  s.pass_eq_reporting p (fun b d => d.acts (buttonOf shown b)) (fun b d => d.next (buttonOf shown b)) shown _ fun t b =>
    t.debounce_eq_reporting p b (buttonOf shown b)

/-- No button shown pressed, and every button released. -/
def nonePressed : Buttons Bool := ⟨false, false, false, false⟩
def allReleased : Buttons Debounce := ⟨.released, .released, .released, .released⟩

/-- Each pressed button taken as released as the port leaves LIVE, and what their releases do and report (R18). -/
theorem State.releaseButtons_eq_reporting (s : State) (p : PosId) :
    s.releaseButtons p = s.reporting p
      (fun x => { x.effect (fun b => (buttonOf x.port.buttons b).pressed) nonePressed with port := { x.port with buttons := allReleased } })
      ((s.pos p).effectReports p (fun b => (buttonOf (s.pos p).port.buttons b).pressed) nonePressed) := by
  refine s.pass_eq_reporting p (fun _ d => d.pressed) (fun _ _ => .released) nonePressed _ fun t b => ?_
  have shown : buttonOf nonePressed b = false := by cases b <;> rfl
  unfold State.releaseButton Position.passReports
  rw [shown]
  by_cases pressed : (buttonOf (t.pos p).port.buttons b).pressed = true
  · rw [if_pos pressed, if_pos pressed]
    refine (t.buttonAct_after p .released b false).trans (State.reporting_congr ?_ _)
    unfold Position.passed
    dsimp only
    rw [if_pos pressed]
  · rw [if_neg pressed, if_neg pressed, State.modPort_eq_reporting]
    refine State.reporting_congr ?_ []
    unfold Position.passed
    dsimp only
    rw [if_neg pressed]

section Effect
variable (x : Position) (acts : Button → Bool) (shown : Buttons Bool)

/-- A button's action changes the mute flag and the ear volume alone. -/
theorem Position.acted_frame (b : Button) (pressed : Bool) :
    x.acted b pressed = { x with mute := (x.acted b pressed).mute, earVolume := (x.acted b pressed).earVolume } := by
  cases b <;> cases pressed <;> rfl

theorem Position.effect_frame : x.effect acts shown = { x with
    mute := (x.effect acts shown).mute, earVolume := (x.effect acts shown).earVolume } := by
  unfold Position.effect
  generalize [Button.mute, .volUp, .volDown, .talk] = bs
  induction bs generalizing x with
  | nil => rfl
  | cons b bs ih =>
    rw [List.foldl_cons]
    split
    · rw [ih, Position.acted_frame]
    · exact ih x

@[simp] theorem Position.effect_config : (x.effect acts shown).config = x.config := by rw [Position.effect_frame]
@[simp] theorem Position.effect_ns : (x.effect acts shown).ns = x.ns := by rw [Position.effect_frame]
@[simp] theorem Position.effect_limiter : (x.effect acts shown).limiter = x.limiter := by rw [Position.effect_frame]
@[simp] theorem Position.effect_leg : (x.effect acts shown).leg = x.leg := by rw [Position.effect_frame]
@[simp] theorem Position.effect_supervision : (x.effect acts shown).supervision = x.supervision := by
  rw [Position.effect_frame]
@[simp] theorem Position.effect_whisper : (x.effect acts shown).whisper = x.whisper := by rw [Position.effect_frame]

/-- Where no button acts nothing is done and nothing reported. -/
theorem Position.effect_none (p : PosId) (none : ∀ b, acts b = false) : x.effect acts shown = x ∧ x.effectReports p acts shown = [] := by
  unfold Position.effect Position.effectReports
  simp [none]

/-- Where one button acts it does and reports what it does alone. -/
theorem Position.effect_only (p : PosId) {b : Button} (own : acts b = true) (none : ∀ b', b' ≠ b → acts b' = false) :
    x.effect acts shown = x.acted b (buttonOf shown b) ∧ x.effectReports p acts shown = x.actReports p b (buttonOf shown b) := by
  unfold Position.effect Position.effectReports
  cases b with
  | mute => simp [own, none .volUp nofun, none .volDown nofun, none .talk nofun]
  | volUp => simp [own, none .mute nofun, none .volDown nofun, none .talk nofun]
  | volDown => simp [own, none .mute nofun, none .volUp nofun, none .talk nofun]
  | talk => simp [own, none .mute nofun, none .volUp nofun, none .volDown nofun]

/-- The mute flag is the MUTE button's (R19). -/
theorem Position.effect_mute : (x.effect acts shown).mute = if acts .mute then x.muteAfter shown.mute else x.mute := by
  have volume : ∀ (y : Position) up pressed, up = Button.volUp ∨ up = .volDown ∨ up = .talk → (y.acted up pressed).mute = y.mute := fun y up pressed h => by
    obtain rfl | rfl | rfl := h <;> cases pressed <;> rfl
  unfold Position.effect
  simp only [List.foldl_cons, List.foldl_nil]
  rw [apply_ite Position.mute, volume _ .talk _ (.inr (.inr rfl)), ite_self, apply_ite Position.mute, volume _ .volDown _ (.inr (.inl rfl)), ite_self,
    apply_ite Position.mute, volume _ .volUp _ (.inl rfl), ite_self, apply_ite Position.mute]
  rfl

/-- A press of VOL_UP, with VOL_DOWN at rest, moves the volume up (R20). -/
theorem Position.effect_volUp (own : acts .volUp = true) (rest : acts .volDown = false) (pressed : shown.volUp = true) :
    (x.effect acts shown).earVolume = x.volumeAfter true := by
  unfold Position.effect
  simp only [List.foldl_cons, List.foldl_nil, own, rest, if_true, Bool.false_eq_true, if_false, buttonOf, pressed]
  split <;> split <;> rfl

/-- The port's record plays no part in what the buttons that act do. -/
theorem Position.effect_port (p : PosId) (y : Port) :
    ({ x with port := y } : Position).effect acts shown = { x.effect acts shown with port := y } ∧
    ({ x with port := y } : Position).effectReports p acts shown = x.effectReports p acts shown := by
  have acted : ∀ (x : Position) b pressed, ({ x with port := y } : Position).acted b pressed = { x.acted b pressed with port := y } ∧
      ({ x with port := y } : Position).actReports p b pressed = x.actReports p b pressed := fun x b pressed => by
    cases b <;> cases pressed <;> exact ⟨rfl, rfl⟩
  unfold Position.effect Position.effectReports
  generalize [Button.mute, .volUp, .volDown, .talk] = bs
  generalize ([] : List ReportBody) = r
  induction bs generalizing x r with
  | nil => exact ⟨rfl, rfl⟩
  | cons b bs ih =>
    simp only [List.foldl_cons]
    obtain ⟨position, reports⟩ := acted x b (buttonOf shown b)
    split
    · rw [position, reports]
      exact ih _ _
    · exact ih _ _

end Effect

/-- The control slot after a change of the port that leaves its buttons. -/
theorem State.controlSlot_modPort (s : State) (p : PosId) {g : Port → Port} (kept : ∀ y, (g y).buttons = y.buttons) (shown : Buttons Bool) :
    (s.modPort p g).controlSlot p shown = s.reporting p
      (fun x => { x.effect (x.port.actsOn shown) shown with port := { g x.port with buttons := nextButtons x.port.buttons shown } })
      ((s.pos p).effectReports p ((s.pos p).port.actsOn shown) shown) := by
  have acts : ∀ y, (g y).actsOn shown = y.actsOn shown := fun y => by
    unfold Port.actsOn
    rw [kept]
  rw [State.controlSlot_eq_reporting, State.modPort_eq_reporting, State.reporting_reporting, State.reporting_pos_same, List.nil_append]
  rw [(Position.effect_port _ _ _ p _).2, acts]
  refine State.reporting_congr ?_ _
  dsimp only
  rw [(Position.effect_port _ _ _ p _).1, acts, kept]

/-! ### A frame in LIVE -/

/-- Samples that join an elastic buffer, as far as its places allow (R12). -/
theorem Elastic.join_eq (b : Elastic) (xs : List Sample) (h : xs.length = 16) :
    (if xs.length ≤ Config.elasticPlaces - b.samples.length then { b with samples := b.samples ++ xs }
      else { b with samples := b.samples ++ xs.take (Config.elasticPlaces - b.samples.length), overruns := sat16Count b.overruns 1 }) =
    if b.samples.length ≤ 176 then { b with samples := b.samples ++ xs }
      else { b with samples := b.samples ++ xs.take (192 - b.samples.length), overruns := min 65535 (b.overruns + 1) } := by
  have places : Config.elasticPlaces = 192 := rfl
  rw [h, places]
  by_cases room : b.samples.length ≤ 176
  · rw [if_pos room, if_pos (by omega)]
  · rw [if_neg room, if_neg (by omega)]
    rfl

/-- A good frame's samples in the uplink buffer, the run of bad frames ended (R12, R16). -/
def Port.takeGood (x : Port) (f : UpFrame) (time : Nat) : Port :=
  { x with
    timing := some time, missing := 0, frameSeen := true, badRun := 0, lastGood := some f.samples
    uplink := if x.uplink.samples.length ≤ 176 then { x.uplink with samples := x.uplink.samples ++ f.samples }
      else { x.uplink with
        samples := x.uplink.samples ++ f.samples.take (192 - x.uplink.samples.length), overruns := min 65535 (x.uplink.overruns + 1) } }

section Live
variable {s : State} {p : PosId} {f : UpFrame} {time : Nat}

/-- A position's record after a good frame. -/
def Position.takeGood (x : Position) (f : UpFrame) (time : Nat) : Position :=
  { x.effect (x.port.actsOn f.buttons) f.buttons with
    port := { x.port.takeGood f time with buttons := nextButtons x.port.buttons f.buttons } }

/-- The state after a good frame, before its feeds are re-derived. -/
def State.takenGood (s : State) (p : PosId) (f : UpFrame) (time : Nat) : State :=
  s.reporting p (fun x => x.takeGood f time) ((s.pos p).effectReports p ((s.pos p).port.actsOn f.buttons) f.buttons)

theorem exec_upFrame_good (state : (s.pos p).port.state = .live) (size : f.samples.length = 16)
    (good : evenParity f.samples [f.buttons.mute, f.buttons.volUp, f.buttons.volDown, f.buttons.talk] f.parity = true) :
    exec (.upFrame p f time) s = .next
      (if (s.pos p).port.actsOn f.buttons .talk then (s.takenGood p f time).rederiveAll else s.takenGood p f time) := by
  have realigned : s.upFrame p f time = (s.modPort p fun x => x.realign time).goodFrame p f := by
    unfold State.upFrame
    rw [state]
    exact if_pos good
  have taken : ((s.modPort p fun x => x.realign time).modPort p fun x => { x with
      uplink := (let free := Config.elasticPlaces - x.uplink.samples.length
        if f.samples.length ≤ free then { x.uplink with samples := x.uplink.samples ++ f.samples }
        else { x.uplink with samples := x.uplink.samples ++ f.samples.take free, overruns := sat16Count x.uplink.overruns 1 })
      badRun := 0, lastGood := some f.samples }).controlSlot p f.buttons = s.takenGood p f time := by
    rw [State.modPort_modPort]
    refine (State.controlSlot_modPort s p (by exact fun _ => rfl) f.buttons).trans (State.reporting_congr ?_ _)
    dsimp only [Port.realign]
    rw [Elastic.join_eq _ _ size]
    rfl
  have buttons : ((s.takenGood p f time).pos p).port.buttons = nextButtons (s.pos p).port.buttons f.buttons := by
    rw [State.takenGood, State.reporting_pos_same]
    rfl
  have before : ((s.modPort p fun x => x.realign time).pos p).port.buttons = (s.pos p).port.buttons := by
    rw [State.pos_modPort_same]
    rfl
  have frame : (s.takenGood p f time).finish (s.modPort p fun x => x.realign time) = (s.takenGood p f time).rederiveAll :=
    State.finish_of_records rfl rfl rfl
  show (.next (s.upFrame p f time) : Result) = _
  rw [realigned]
  unfold State.goodFrame
  dsimp only
  rw [taken, buttons, before, frame]
  have change : (nextButtons (s.pos p).port.buttons f.buttons).talk.pressed = (s.pos p).port.buttons.talk.pressed ↔
      (s.pos p).port.actsOn f.buttons .talk = false := by
    show ((s.pos p).port.buttons.talk.next f.buttons.talk).pressed = _ ↔ (s.pos p).port.buttons.talk.acts f.buttons.talk = false
    rw [Debounce.next_pressed]
    by_cases acts : (s.pos p).port.buttons.talk.acts f.buttons.talk = true
    · rw [if_pos acts, acts]
      exact ⟨fun k => absurd k (of_decide_eq_true acts).1, nofun⟩
    · rw [if_neg acts]
      exact ⟨fun _ => by simpa using acts, fun _ => rfl⟩
  by_cases acts : (s.pos p).port.actsOn f.buttons .talk = true
  · rw [if_pos acts, if_neg fun k => nomatch acts.symm.trans (change.1 k)]
  · rw [if_neg acts, if_pos (change.2 (by simpa using acts))]

/-- A bad frame's record: concealed, and counted (R16, R17). -/
def Port.takeBad (x : Port) (time : Nat) (c : List Sample) : Port :=
  { x with
    timing := some time, missing := 0, frameSeen := true, badRun := x.badRun + 1
    uplink := if x.uplink.samples.length ≤ 176 then { x.uplink with samples := x.uplink.samples ++ c }
      else { x.uplink with
        samples := x.uplink.samples ++ c.take (192 - x.uplink.samples.length), overruns := min 65535 (x.uplink.overruns + 1) }
    parityCount := sat16Count x.parityCount 1 }

theorem exec_upFrame_bad (state : (s.pos p).port.state = .live) (size : (s.pos p).port.concealed.length = 16)
    (bad : evenParity f.samples [f.buttons.mute, f.buttons.volUp, f.buttons.volDown, f.buttons.talk] f.parity = false) :
    exec (.upFrame p f time) s = .next (if (s.pos p).config.parityThreshold ≤ sat16Count (s.pos p).port.parityCount 1
        ∧ (s.pos p).port.parityAlert = false
      then (s.modPort p fun x => { x.takeBad time (s.pos p).port.concealed with parityAlert := true }).report
        (.parityAlert p (sat16Count (s.pos p).port.parityCount 1))
      else s.modPort p fun x => x.takeBad time (s.pos p).port.concealed) := by
  have realigned : s.upFrame p f time = (s.modPort p fun x => x.realign time).badFrame p := by
    unfold State.upFrame
    rw [state]
    exact if_neg (by rw [goodParity, bad]; exact Bool.false_ne_true)
  have taken : ((s.modPort p fun x => x.realign time).modPort p fun x => { x with
      uplink := (let free := Config.elasticPlaces - x.uplink.samples.length
        if x.concealed.length ≤ free then { x.uplink with samples := x.uplink.samples ++ x.concealed }
        else { x.uplink with
          samples := x.uplink.samples ++ x.concealed.take free, overruns := sat16Count x.uplink.overruns 1 })
      badRun := x.badRun + 1
      parityCount := sat16Count (s.pos p).port.parityCount 1 }) = s.modPort p fun x => x.takeBad time (s.pos p).port.concealed := by
    rw [State.modPort_modPort, State.modPort_eq_reporting, State.modPort_eq_reporting]
    refine State.reporting_congr ?_ _
    exact congrArg (fun u : Elastic => ({ s.pos p with port := { (s.pos p).port with
      timing := some time, missing := 0, frameSeen := true, badRun := (s.pos p).port.badRun + 1, uplink := u
      parityCount := sat16Count (s.pos p).port.parityCount 1 } } : Position)) (Elastic.join_eq (s.pos p).port.uplink _ size)
  show (.next (s.upFrame p f time) : Result) = _
  rw [realigned]
  unfold State.badFrame
  rw [State.pos_modPort_same]
  dsimp only [Port.realign] at taken ⊢
  rw [taken, State.modPort_modPort]
  rfl

end Live

/-- Settles O9: a good frame is the control slot's effects and the samples taken (`exec_upFrame_good`), a bad one is concealed and counted
(`exec_upFrame_bad`). -/
theorem upFrameInLive : Obligations.UpFrameInLive := by
  intro s p f time state size
  refine ⟨fun good => ?_, fun bad c sizes e => ?_⟩
  · have run := exec_upFrame_good (time := time) state size good
    generalize e : (if (s.pos p).port.actsOn f.buttons .talk then (s.takenGood p f time).rederiveAll else s.takenGood p f time) = t at run
    have pos : ∀ q, t.pos q = (s.takenGood p f time).pos q := fun q => by rw [← e]; split <;> rfl
    have link : t.link = s.link.placeReports s.highway.period ((s.pos p).effectReports p ((s.pos p).port.actsOn f.buttons) f.buttons) := by
      rw [← e]; split <;> rfl
    have own : t.pos p = (s.pos p).takeGood f time := (pos p).trans (State.reporting_pos_same ..)
    have flag : (t.pos p).mute = ((s.pos p).effect ((s.pos p).port.actsOn f.buttons) f.buttons).mute := by rw [own]; rfl
    have volume : (t.pos p).earVolume = ((s.pos p).effect ((s.pos p).port.actsOn f.buttons) f.buttons).earVolume := by rw [own]; rfl
    have acts := fun b => (acts_iff (s.pos p).port f.buttons b)
    have quiet : ∀ b, ¬ Acts (s.pos p).port f.buttons b → (s.pos p).port.actsOn f.buttons b = false := fun b k => by
      rw [acts] at k
      exact eq_false_of_ne_true k
    have only : ∀ b, OnlyActs (s.pos p).port f.buttons b → (t.pos p).mute = ((s.pos p).acted b (buttonOf f.buttons b)).mute ∧
        (t.pos p).earVolume = ((s.pos p).acted b (buttonOf f.buttons b)).earVolume ∧
        t.link = s.link.placeReports s.highway.period ((s.pos p).actReports p b (buttonOf f.buttons b)) := fun b k => by
      obtain ⟨position, reports⟩ := (s.pos p).effect_only ((s.pos p).port.actsOn f.buttons) f.buttons p ((acts b).1 k.1) fun b' other =>
        quiet b' (k.2 b' other)
      rw [link, reports, flag, volume, position]
      exact ⟨rfl, rfl, rfl⟩
    have still : (∀ b, (s.pos p).port.actsOn f.buttons b = false) ∨ (∃ b, OnlyActs (s.pos p).port f.buttons b ∧
        (s.pos p).acted b (buttonOf f.buttons b) = s.pos p ∧ (s.pos p).actReports p b (buttonOf f.buttons b) = [] ∧ b ≠ .talk) →
        OnlyPos s t p ∧ (t.pos p).mute = (s.pos p).mute ∧ (t.pos p).earVolume = (s.pos p).earVolume := fun h => by
      have none : (s.pos p).effect ((s.pos p).port.actsOn f.buttons) f.buttons = s.pos p ∧
          (s.pos p).effectReports p ((s.pos p).port.actsOn f.buttons) f.buttons = [] ∧ (s.pos p).port.actsOn f.buttons .talk = false := by
        obtain none | ⟨b, k, same, silent, other⟩ := h
        · obtain ⟨position, reports⟩ := (s.pos p).effect_none ((s.pos p).port.actsOn f.buttons) f.buttons p none
          exact ⟨position, reports, none .talk⟩
        · obtain ⟨position, reports⟩ := (s.pos p).effect_only ((s.pos p).port.actsOn f.buttons) f.buttons p ((acts b).1 k.1) fun b' other =>
            quiet b' (k.2 b' other)
          exact ⟨position.trans same, reports.trans silent, quiet .talk (k.2 .talk (Ne.symm other))⟩
      obtain ⟨position, reports, talk⟩ := none
      rw [flag, volume, position]
      refine ⟨?_, rfl, rfl⟩
      rw [← e, if_neg (by rw [talk]; exact Bool.false_ne_true), State.takenGood, reports]
      exact ⟨fun q other => State.reporting_pos_ne _ _ _ other, rfl⟩
    refine ⟨t, run, fun q other => (pos q).trans (State.reporting_pos_ne _ _ _ other), fun room => ?_, fun full => ?_,
      by rw [own]; exact state, by rw [own]; rfl, by rw [own]; rfl, by rw [own]; rfl, by rw [own]; rfl, by rw [own]; rfl, by rw [own]; rfl,
      fun b => ?_, fun none => still (.inl fun b => quiet b (none b)), fun pressed run' mode => ?_, fun pressed run' mode => ?_, fun k => ?_,
      fun pressed run' down mode => ?_, fun k pressed => ?_, fun k pressed => ?_, fun k => ?_, fun k => ?_, ?_⟩
    · rw [own]
      exact if_pos room
    · rw [own]
      exact if_neg (not_le.2 full)
    · rw [own]
      exact buttonOf_nextButtons _ _ b
    · have on : (s.pos p).port.actsOn f.buttons .mute = true := by
        show (s.pos p).port.buttons.mute.acts f.buttons.mute = true
        rw [run', pressed]
        rfl
      rw [flag, Position.effect_mute, if_pos on, Position.muteAfter, mode, pressed]
      rfl
    · have on : (s.pos p).port.actsOn f.buttons .mute = true := by
        show (s.pos p).port.buttons.mute.acts f.buttons.mute = true
        rw [run', pressed]
        rfl
      rw [flag, Position.effect_mute, if_pos on, Position.muteAfter, mode, pressed]
    · obtain ⟨m, v, reports⟩ := only .mute k
      have after : ((s.pos p).acted .mute f.buttons.mute).mute = (s.pos p).muteAfter f.buttons.mute := rfl
      refine ⟨v.trans rfl, ?_, ?_⟩
      · refine m.trans (after.trans ?_)
        unfold Position.muteAfter
        cases (s.pos p).config.muteMode <;> rfl
      · rw [m, reports]
        show s.link.placeReports s.highway.period (if (s.pos p).muteAfter f.buttons.mute = (s.pos p).mute then []
          else [.muteChanged p .button ((s.pos p).muteAfter f.buttons.mute)]) = if (s.pos p).muteAfter f.buttons.mute = (s.pos p).mute then _ else _
        split <;> rfl
    · have on : (s.pos p).port.actsOn f.buttons .volUp = true := by
        show (s.pos p).port.buttons.volUp.acts f.buttons.volUp = true
        rw [run', pressed]
        rfl
      have rest : (s.pos p).port.actsOn f.buttons .volDown = false := decide_eq_false fun k => k.1 down
      rw [volume, Position.effect_volUp _ _ _ on rest pressed, Position.volumeAfter, mode]
      rfl
    · obtain ⟨m, v, reports⟩ := only .volUp k
      rw [m, v, reports]
      simp only [buttonOf, pressed, Position.acted, Position.actReports, if_true]
      refine ⟨trivial, ?_, rfl⟩
      unfold Position.volumeAfter
      cases (s.pos p).config.volumeMode <;> rfl
    · obtain ⟨m, v, reports⟩ := only .volDown k
      rw [m, v, reports]
      simp only [buttonOf, pressed, Position.acted, Position.actReports, if_true]
      refine ⟨trivial, ?_, rfl⟩
      unfold Position.volumeAfter
      cases (s.pos p).config.volumeMode <;> rfl
    · obtain ⟨k, up⟩ | ⟨k, up⟩ := k
      · refine still (.inr ⟨.volUp, k, ?_, ?_, nofun⟩) <;> simp only [buttonOf, up, Position.acted, Position.actReports, Bool.false_eq_true, if_false]
      · refine still (.inr ⟨.volDown, k, ?_, ?_, nofun⟩) <;> simp only [buttonOf, up, Position.acted, Position.actReports, Bool.false_eq_true, if_false]
    · obtain ⟨m, v, reports⟩ := only .talk k
      refine ⟨m, v, ?_, reports⟩
      rw [← e, if_pos (show (s.pos p).port.actsOn f.buttons .talk = true from (acts .talk).1 k.1)]
      exact ⟨fun q => tget_tmap _ _ _, fun l => tget_tmap _ _ _⟩
    · rw [← e]
      split <;> rfl
  · have concealed : (s.pos p).port.concealed = c := e.symm
    have size' : (s.pos p).port.concealed.length = 16 := by
      rw [concealed, e]
      split
      · cases last : (s.pos p).port.lastGood with
        | none => exact List.length_replicate
        | some x => exact sizes x last
      · exact List.length_replicate
    have run := exec_upFrame_bad (time := time) state size' bad
    rw [concealed] at run
    refine ⟨_, run, ?_⟩
    by_cases alert : (s.pos p).config.parityThreshold ≤ sat16Count (s.pos p).port.parityCount 1 ∧ (s.pos p).port.parityAlert = false
    · rw [if_pos alert, if_pos alert.symm, State.report_pos, State.pos_modPort_same, alert.2, decide_eq_true alert.1]
      exact ⟨fun q other => by rw [State.report_pos, State.pos_modPort_ne _ _ _ _ (Ne.symm other)], rfl, rfl, rfl⟩
    · have flag : ((s.pos p).port.parityAlert || decide ((s.pos p).config.parityThreshold ≤ sat16Count (s.pos p).port.parityCount 1))
          = (s.pos p).port.parityAlert := by
        cases stands : (s.pos p).port.parityAlert with
        | true => rfl
        | false => exact decide_eq_false fun k => alert ⟨k, stands⟩
      rw [if_neg alert, if_neg (show ¬ ((s.pos p).port.parityAlert = false ∧ (s.pos p).config.parityThreshold ≤ _) from fun k => alert k.symm),
        State.pos_modPort_same, flag]
      exact ⟨fun q other => State.pos_modPort_ne _ _ _ _ (Ne.symm other), rfl, rfl, rfl⟩

end Sys2Proof.Machine
end

section
set_option Elab.async false
/-! ## Lock loss, entry to LIVE, the draws of a LIVE port (O11, O14, O16) -/

namespace Sys2Proof.Machine

section Port
variable {s : State} {p : PosId}

/-! ### Leaving LIVE (R12, R15, R18, R84) -/

/-- A position's record as its port leaves LIVE. -/
def Position.leaveLive (x : Position) : Position :=
  (fun y : Position => { y with port := { x.port.leaveLive with buttons := allReleased }, ns := y.ns.leave })
    (x.effect (fun b => (buttonOf x.port.buttons b).pressed) nonePressed)

/-- The reports of the buttons released as the port leaves LIVE. -/
def Position.leaveReports (x : Position) (p : PosId) : List ReportBody :=
  x.effectReports p (fun b => (buttonOf x.port.buttons b).pressed) nonePressed

theorem State.isLive_iff (s : State) (p : PosId) : s.isLive p = true ↔ (s.pos p).port.state = .live := decide_eq_true_iff

theorem State.leaveLive_of_live (live : (s.pos p).port.state = .live) :
    s.leaveLive p = s.reporting p Position.leaveLive ((s.pos p).leaveReports p) := by
  unfold State.leaveLive
  rw [if_pos ((s.isLive_iff p).2 live), State.releaseButtons_eq_reporting, State.modPos_eq_reporting, State.reporting_reporting, List.append_nil]
  rfl

theorem State.leaveLive_of_not_live (other : (s.pos p).port.state ≠ .live) : s.leaveLive p = s := by
  unfold State.leaveLive
  rw [if_neg fun k => other ((s.isLive_iff p).1 k)]

theorem buttonOf_allReleased (b : Button) : buttonOf allReleased b = ⟨false, 0⟩ := by cases b <;> rfl

/-! ### Missed frames and lock loss (R9) -/

/-- Lock loss: the buttons released, PORT_LOST, and the feeds re-derived (R9). -/
theorem State.takeLockLoss_of_live (live : (s.pos p).port.state = .live) : s.takeLockLoss p = State.rederiveAll
    (s.reporting p (fun x => { x.leaveLive with port := { x.leaveLive.port with
        state := .lost, missing := 0, parityCount := 0, parityAlert := false, window := some 0 } })
      ((s.pos p).leaveReports p ++ [.portLost p])) := by
  unfold State.takeLockLoss
  dsimp only
  rw [State.leaveLive_of_live live, State.modPort_eq_reporting, State.reporting_reporting, State.report_eq_reporting _ p, State.reporting_reporting,
    List.append_nil]
  exact State.finish_of_records rfl rfl rfl

theorem Position.leaveReports_of_none (x : Position) (p : PosId) (none : ∀ b, (buttonOf x.port.buttons b).pressed = false) :
    x.leaveReports p = [] := (x.effect_none _ nonePressed p none).2

end Port

/-- Settles O11: the count reaches 4 or not; at 4 a LIVE port leaves LIVE (`State.leaveLive_of_live`) and is LOST. -/
theorem missedFramesAndLockLoss : Obligations.MissedFramesAndLockLoss := by
  intro s p
  have missed : exec (.expectedFrameMissed p) s = .next (s.frameMissed p) := rfl
  have short : (s.pos p).port.missing + 1 < 4 → ¬ Config.missingLimit ≤ (s.pos p).port.missing + 1 := fun k => not_le.2 k
  refine ⟨fun notQualifying notLive => ?_, fun counts few => ⟨?_, congrArg Host.Outcome.next (if_neg (short few))⟩, fun state four => ?_,
    fun state four => ?_⟩
  · rw [missed]
    unfold State.frameMissed
    cases state : (s.pos p).port.state with
    | qualifying => exact absurd state notQualifying
    | live => exact absurd state notLive
    | _ => rfl
  · rw [missed]
    unfold State.frameMissed
    obtain state | state := counts <;> rw [state] <;> exact congrArg _ (if_neg (short few))
  · rw [missed]
    unfold State.frameMissed
    rw [state]
    exact congrArg _ (if_pos four)
  · have lost : s.frameMissed p = s.takeLockLoss p := by
      unfold State.frameMissed
      rw [state]
      exact if_pos four
    rw [State.takeLockLoss_of_live state] at lost
    refine ⟨_, (congrArg Host.Outcome.next (if_pos four)).trans (congrArg _ lost), missed.trans (congrArg _ lost), fun q other =>
      (State.rederiveAll_pos _ q).trans (State.reporting_pos_ne _ _ _ other), ?_⟩
    rw [State.rederiveAll_pos, State.reporting_pos_same]
    refine ⟨rfl, rfl, rfl, rfl, rfl, rfl, rfl, fun b => congrArg Debounce.pressed (buttonOf_allReleased b),
      congrArg Suppressor.leave (Position.effect_ns _ _ _), Position.effect_leg _ _ _, Position.effect_supervision _ _ _,
      Position.effect_whisper _ _ _, fun none => ?_, rfl⟩
    · rw [Position.leaveReports_of_none _ _ none]
      rfl

/-! ### The block event's transitions (R5, R8, R11) -/

section Block
variable {s : State} {p : PosId}

/-- A headset sampled present is not taken as unplugged (R5). -/
theorem State.unplugIfDue_of_present (h : (s.pos p).port.unplugCount = 0) : s.unplugIfDue p = s := by
  have none : s.unplugDue p = false := by
    unfold State.unplugDue
    rw [h]
    rfl
  unfold State.unplugIfDue
  rw [none]
  rfl

/-- With no window running there is no expiry (R10). -/
theorem State.expiryIfDue_of_none (h : (s.pos p).port.window = none) : s.expiryIfDue p = s := by
  have none : s.expiryDue p = false := by
    unfold State.expiryDue
    rw [h]
  unfold State.expiryIfDue
  rw [none]
  rfl

/-- A port that is not QUALIFYING does not enter LIVE (R8). -/
theorem State.liveIfDue_of_other (h : (s.pos p).port.state ≠ .qualifying) : s.liveIfDue p = s := by
  have none : s.liveDue p = false := by
    unfold State.liveDue
    rw [decide_eq_false h, Bool.false_and]
  unfold State.liveIfDue
  rw [none]
  rfl

theorem State.liveIfDue_of_due (state : (s.pos p).port.state = .qualifying)
    (due : (s.pos p).config.qualification ≤ (s.pos p).port.qualCount) : s.liveIfDue p = s.enterLive p := by
  unfold State.liveIfDue
  refine if_pos ?_
  unfold State.liveDue
  rw [decide_eq_true state, decide_eq_true due]
  rfl

/-- Outside ACQUIRING a block event only forgets that a frame was seen (R7). -/
theorem Port.judgeFrames_of_other {x : Port} (h : x.state ≠ .acquiring) : x.judgeFrames = { x with frameSeen := false } := by
  unfold Port.judgeFrames
  rw [if_neg fun k => h k.1]

theorem Port.countBlock_of_qualifying {x : Port} (h : x.state = .qualifying) :
    x.countBlock = { x with window := x.window.map (· + 1), qualCount := x.qualCount + 1 } := by
  unfold Port.countBlock
  rw [if_pos h]

theorem Port.countBlock_of_other {x : Port} (h : x.state ≠ .qualifying) : x.countBlock = { x with window := x.window.map (· + 1) } := by
  unfold Port.countBlock
  rw [if_neg h]

end Block

/-- Settles O14: with the headset present no unplug is due, and LIVE is taken before any expiry. -/
theorem portLive : Obligations.PortLive := by
  intro s p state due
  have sampled : ((s.modPort p fun x => ((x.sampleUnplug true).countBlock).judgeFrames).putMic p zeroBlock).pos p = { s.pos p with port :=
      { (s.pos p).port with presence := true, unplugCount := 0, window := (s.pos p).port.window.map (· + 1)
                            qualCount := (s.pos p).port.qualCount + 1, frameSeen := false } } := by
    rw [State.putMic_pos, State.pos_modPort_same, Port.countBlock_of_qualifying (by exact state), Port.judgeFrames_of_other (by
      show (s.pos p).port.state ≠ .acquiring
      rw [state]
      nofun)]
    rfl
  generalize e : (s.modPort p fun x => ((x.sampleUnplug true).countBlock).judgeFrames).putMic p zeroBlock = u at sampled
  have block : ∀ order, s.portBlock order p true = u.transitions p order := fun order => by
    unfold State.portBlock
    rw [state]
    exact congrArg (fun u : State => u.transitions p order) e
  have entered : (u.enterLive p).pos p = (u.pos p).enterLive := by
    unfold State.enterLive
    rw [State.report_pos, State.pos_modPos_same]
  have goes : u.liveIfDue p = u.enterLive p := State.liveIfDue_of_due (by rw [sampled]; exact state) (by rw [sampled]; exact due)
  have first : s.portBlock .liveFirst p true = u.enterLive p := by
    rw [block]
    show ((u.liveIfDue p).unplugIfDue p).expiryIfDue p = _
    rw [goes, State.unplugIfDue_of_present (by rw [entered, sampled]; rfl), State.expiryIfDue_of_none (by rw [entered]; rfl)]
  refine ⟨u.enterLive p, (congrArg Host.Outcome.next (if_pos ⟨state, due⟩)).trans (congrArg _ first), fun none => ?_, fun q other => ?_, ?_⟩
  · show (.next (s.portBlock .unplugFirst p true) : Result) = _
    rw [block]
    show (.next (((u.unplugIfDue p).expiryIfDue p).liveIfDue p) : Result) = _
    rw [State.unplugIfDue_of_present (by rw [sampled]), State.expiryIfDue_of_none (by rw [sampled, none]; rfl), goes]
  · show (u.modPos p Position.enterLive).pos q = _
    rw [State.pos_modPos_ne _ _ _ _ (Ne.symm other), ← e, State.putMic_pos, State.pos_modPort_ne _ _ _ _ (Ne.symm other)]
  · rw [entered, sampled]
    refine ⟨rfl, rfl, rfl, rfl, rfl, rfl, fun b => by cases b <;> rfl, rfl, rfl, rfl, rfl, rfl, rfl, ?_, ?_⟩ <;> rw [← e] <;> rfl

/-! ### The draws (R12, R13, R76 to R81) -/

section Draw
variable {b : Elastic}

/-- The two slip thresholds and the block, as fills of the buffer (R13). -/
theorem Elastic.slipHigh_iff : (Config.slipHigh : Int) ≤ (b.samples.length : Int) - 32 ↔ 192 ≤ b.samples.length := by
  show ((160 : Nat) : Int) ≤ _ ↔ _
  omega

theorem Elastic.slipLow_iff : (b.samples.length : Int) - 32 ≤ (Config.slipLow : Int) ↔ b.samples.length ≤ 64 := by
  show _ ≤ ((32 : Nat) : Int) ↔ _
  omega

theorem Elastic.draw_full (low : 65 ≤ b.samples.length) (high : b.samples.length ≤ 191) :
    b.draw = ({ b with samples := b.samples.drop 64 }, b.samples.take 64, true) := by
  unfold Elastic.draw
  dsimp only
  rw [if_neg (Elastic.slipHigh_iff.not.2 (by omega)), if_neg (Elastic.slipLow_iff.not.2 (by omega)),
    if_neg (show ¬ b.samples.length < Config.blockSamples from not_lt.2 ((Nat.le_succ 64).trans low))]

theorem Elastic.draw_high (high : 192 ≤ b.samples.length) :
    b.draw = ({ b with samples := b.samples.drop 65, slips := min 65535 (b.slips + 1) }, (b.samples.drop 1).take 64, true) := by
  unfold Elastic.draw
  dsimp only
  rw [if_pos (Elastic.slipHigh_iff.2 high)]
  rfl

theorem Elastic.draw_low (low : b.samples.length = 63 ∨ b.samples.length = 64) :
    b.draw = ({ b with samples := b.samples.drop 63, slips := min 65535 (b.slips + 1) }, b.samples.take 63 ++ [b.samples.getD 62 0], true) := by
  have last : ((b.samples.take 63).getLast?).toList = [b.samples.getD 62 0] := by
    have length : (b.samples.take 63).length = 63 := by rw [List.length_take]; omega
    have within : 62 < b.samples.length := by omega
    rw [List.getLast?_eq_getElem?, length, List.getElem?_take_of_lt (by norm_num), List.getElem?_eq_getElem within, List.getD_eq_getElem _ _ within]
    rfl
  unfold Elastic.draw
  dsimp only
  rw [if_neg (Elastic.slipHigh_iff.not.2 (by omega)), if_pos (Elastic.slipLow_iff.2 (by omega)),
    if_neg (show ¬ b.samples.length < 63 by omega), last]
  rfl

theorem Elastic.draw_short (short : b.samples.length ≤ 62) :
    b.draw = ({ b with samples := [], underruns := min 65535 (b.underruns + 1) },
      b.samples ++ List.replicate (64 - b.samples.length) (b.samples.getLastD 0), decide (0 < b.samples.length)) := by
  unfold Elastic.draw
  dsimp only
  rw [if_neg (Elastic.slipHigh_iff.not.2 (by omega)), if_pos (Elastic.slipLow_iff.2 (by omega)),
    if_pos (show b.samples.length < 63 by omega), List.getLastD_eq_getLast?]
  rfl

end Draw

section LiveBlock
variable {s : State} {p : PosId}

/-- The state at a LIVE port's block event, the presence line sampled asserted. -/
def State.sampledLive (s : State) (p : PosId) : State :=
  s.modPort p fun x => { x with presence := true, unplugCount := 0, frameSeen := false }

theorem State.sampledLive_pos (s : State) (p : PosId) : (s.sampledLive p).pos p =
    { s.pos p with port := { (s.pos p).port with presence := true, unplugCount := 0, frameSeen := false } } := State.pos_modPort_same s p _

/-- The block event of a LIVE port whose headset is present is the draw (R13). -/
theorem State.portBlock_live (state : (s.pos p).port.state = .live) (order : EventOrder) :
    s.portBlock order p true = (s.sampledLive p).drawMic p := by
  have sampled : (s.modPort p fun x => (x.sampleUnplug true).judgeFrames) = s.sampledLive p := by
    rw [State.modPort_eq_reporting, State.sampledLive, State.modPort_eq_reporting]
    refine State.reporting_congr ?_ []
    rw [Port.judgeFrames_of_other (by
      show (s.pos p).port.state ≠ .acquiring
      rw [state]
      nofun)]
    rfl
  have none : (s.sampledLive p).unplugDue p = false := by
    unfold State.unplugDue
    rw [State.sampledLive_pos]
    rfl
  unfold State.portBlock
  rw [state]
  dsimp only
  rw [sampled, none]
  rfl

/-- While a port primes and its buffer holds fewer than 128 samples nothing is drawn (R12). -/
theorem State.drawMic_priming (priming : (s.pos p).port.priming = true) (few : (s.pos p).port.uplink.samples.length < 128) :
    s.drawMic p = s.putMic p zeroBlock := if_pos ⟨priming, few⟩

/-- An empty buffer gives a zero block, which the suppressor does not see (R13). -/
theorem State.drawMic_empty (ready : (s.pos p).port.priming = false ∨ 128 ≤ (s.pos p).port.uplink.samples.length) {after : Elastic} {raw : Block}
    (draw : (s.pos p).port.uplink.draw = (after, raw, false)) :
    s.drawMic p = (s.modPort p fun y => { y with uplink := after, priming := false }).putMic p zeroBlock := by
  have goes : ¬ ((s.pos p).port.priming = true ∧ (s.pos p).port.uplink.samples.length < Config.primingFill) := by
    rintro ⟨k, few⟩
    obtain off | many := ready
    · exact nomatch k.symm.trans off
    · exact not_lt.2 many few
  unfold State.drawMic
  dsimp only
  rw [if_neg goes, draw]
  rfl

/-- The state with a raw block drawn and put through the suppressor, before what an onset sets off (R76). -/
def State.drawn (s : State) (p : PosId) (after : Elastic) (raw : Block) : State :=
  (s.modPos p fun y => { y with
    port := { y.port with uplink := after, priming := false }, ns := ((s.pos p).ns.analyse (s.pos p).config raw).1 }).putMic p
      ((s.pos p).ns.analyse (s.pos p).config raw).2.1

theorem State.drawMic_drawn (ready : (s.pos p).port.priming = false ∨ 128 ≤ (s.pos p).port.uplink.samples.length) {after : Elastic} {raw : Block}
    (draw : (s.pos p).port.uplink.draw = (after, raw, true)) :
    s.drawMic p = if ((s.pos p).ns.analyse (s.pos p).config raw).2.2 then (s.drawn p after raw).speechOnset p else s.drawn p after raw := by
  have goes : ¬ ((s.pos p).port.priming = true ∧ (s.pos p).port.uplink.samples.length < Config.primingFill) := by
    rintro ⟨k, few⟩
    obtain off | many := ready
    · exact nomatch k.symm.trans off
    · exact not_lt.2 many few
  have once : ((s.modPort p fun y => { y with uplink := after, priming := false }).modPos p fun y => { y with
      ns := ((s.pos p).ns.analyse (s.pos p).config raw).1 }).putMic p ((s.pos p).ns.analyse (s.pos p).config raw).2.1 = s.drawn p after raw := by
    unfold State.modPort State.drawn
    rw [State.modPos_modPos]
  unfold State.drawMic
  dsimp only
  rw [if_neg goes, draw, if_pos rfl]
  dsimp only
  rw [once]

/-- What an onset sets off: at most the stop of an engine, which reaches nothing but that engine and its fetch request (R87, R141, R172). -/
theorem State.run_stop_playing {e : EngId} (playing : (s.eng e).state = .playing) (o : EngineOutcome) :
    s.run [.stop e o] = if (s.eng e).closing = 0
      then (s.withdrawFetch e).modEng e fun x => { x with state := .stopping, stopOutcome := o } else s := by
  by_cases running : (s.eng e).closing = 0
  · rw [if_pos running]
    refine State.run_single ?_
    simp only [runTask, playing, running, if_true]
  · rw [if_neg running]
    refine State.run_single ?_
    simp only [runTask, playing, running, if_false]

/-- An onset changes nothing where no head PROMPT that stops on speech is PLAYING. -/
theorem State.speechOnset_nothing {s : State} {p : PosId} (h : (∀ e, (s.pos p).whisper.head ≠ .granted e)
    ∨ (∀ w ∈ (s.pos p).whisper.entries, ∀ n, w.kind ≠ .prompt true n)
    ∨ (∃ e, (s.pos p).whisper.head = .granted e ∧ (s.eng e).state ≠ .playing)) : s.speechOnset p = s := by
  unfold State.speechOnset
  split
  · rename_i w rest e entries head
    split
    · rename_i n kind
      refine if_neg fun playing => ?_
      obtain none | none | ⟨d, granted, other⟩ := h
      · exact none e head
      · exact none w (by rw [entries]; exact List.mem_cons_self) n kind
      · cases head.symm.trans granted
        exact other playing
    · rfl
    · rfl
  · rfl

/-- An onset on a head PROMPT that stops on speech stops its engine (R172). -/
theorem State.speechOnset_stops {s : State} {p : PosId} {w : WhisperEntry} {rest : List WhisperEntry} {e : EngId} {n : Nat}
    (entries : (s.pos p).whisper.entries = w :: rest) (head : (s.pos p).whisper.head = .granted e) (kind : w.kind = .prompt true n)
    (playing : (s.eng e).state = .playing) : s.speechOnset p = (s.run [.stop e .stopped]).finish s := by
  unfold State.speechOnset
  rw [entries, head]
  dsimp only
  rw [kind]
  exact if_pos playing

/-- Whatever an onset sets off, the positions, the sources and the link stay. -/
theorem State.speechOnset_frame (s : State) (p : PosId) :
    (s.speechOnset p).positions = s.positions ∧ (s.speechOnset p).sources = s.sources ∧ (s.speechOnset p).link = s.link := by
  have stopped : ∀ e, (s.eng e).state = .playing → ((s.run [.stop e .stopped]).finish s).positions = s.positions ∧
      ((s.run [.stop e .stopped]).finish s).sources = s.sources ∧ ((s.run [.stop e .stopped]).finish s).link = s.link := fun e playing => by
    rw [State.run_stop_playing playing]
    split <;> exact ⟨rfl, rfl, rfl⟩
  unfold State.speechOnset
  split
  · split
    · split
      · exact stopped _ ‹_›
      · exact ⟨rfl, rfl, rfl⟩
    · exact ⟨rfl, rfl, rfl⟩
    · exact ⟨rfl, rfl, rfl⟩
  · exact ⟨rfl, rfl, rfl⟩

end LiveBlock

theorem Suppressor.analyse_onset (n : Suppressor) (cfg : PositionConfig) (raw : Block) :
    (n.analyse cfg raw).2.2 = (decide (n.floor * cfg.nsRatio ≤ energy raw) && decide (n.vad ≠ .speech)) := by
  unfold Suppressor.analyse
  dsimp only
  split <;> rfl

theorem Suppressor.analyse_vad (n : Suppressor) (cfg : PositionConfig) (raw : Block) :
    ((n.analyse cfg raw).1.vad, (n.analyse cfg raw).1.hangover) =
      nextVad n.vad n.hangover cfg.nsHangover (decide (n.floor * cfg.nsRatio ≤ energy raw)) := by
  unfold Suppressor.analyse
  dsimp only
  split <;> rfl

/-- A LIVE port's sampled state with the raw block drawn: its position, and what else it reaches. -/
theorem State.sampledLive_drawn_pos (s : State) (p : PosId) (after : Elastic) (raw : Block) : ((s.sampledLive p).drawn p after raw).pos p =
    { s.pos p with
      port := { (s.pos p).port with presence := true, unplugCount := 0, frameSeen := false, uplink := after, priming := false }
      ns := ((s.pos p).ns.analyse (s.pos p).config raw).1 } := by
  unfold State.drawn
  rw [State.putMic_pos, State.pos_modPos_same, State.sampledLive_pos]

theorem State.sampledLive_drawn_frame (s : State) (p : PosId) (after : Elastic) (raw : Block) : (s.sampledLive p).drawn p after raw = { s with
    positions := ((s.sampledLive p).drawn p after raw).positions
    sources := { s.sources with mic := tset s.sources.mic p ((s.pos p).ns.analyse (s.pos p).config raw).2.1 } } := by
  unfold State.drawn
  rw [State.sampledLive_pos]
  rfl

theorem State.sampledLive_drawn_ne {s : State} {p q : PosId} (other : q ≠ p) (after : Elastic) (raw : Block) :
    ((s.sampledLive p).drawn p after raw).pos q = s.pos q := by
  unfold State.drawn
  rw [State.putMic_pos, State.pos_modPos_ne _ _ _ _ (Ne.symm other)]
  exact State.pos_modPort_ne s p q _ (Ne.symm other)

/-- An onset stops the PLAYING engine of the head PROMPT: that engine is STOPPING, its fetch request is gone, and the other engines stay. -/
theorem State.speechOnset_engines {s : State} {p : PosId} {w : WhisperEntry} {rest : List WhisperEntry} {e : EngId} {n : Nat}
    (entries : (s.pos p).whisper.entries = w :: rest) (head : (s.pos p).whisper.head = .granted e) (kind : w.kind = .prompt true n)
    (playing : (s.eng e).state = .playing) (running : (s.eng e).closing = 0) :
    (s.speechOnset p).eng e = { s.eng e with state := .stopping, stopOutcome := .stopped } ∧ e ∉ (s.speechOnset p).memory.fetches ∧
      ∀ d, d ≠ e → (s.speechOnset p).eng d = s.eng d := by
  rw [State.speechOnset_stops entries head kind playing, State.run_stop_playing playing, if_pos running]
  have engine : ∀ (u : State) d, (u.finish s).eng d = u.eng d := fun _ _ => rfl
  refine ⟨(engine _ e).trans (State.eng_modEng_same _ e _), fun mem => ?_, fun d other => (engine _ d).trans (State.eng_modEng_ne _ e d _ (Ne.symm other))⟩
  have kept : e ∈ s.memory.fetches.filter (· ≠ e) := mem
  exact of_decide_eq_true (List.mem_filter.1 kept).2 rfl

/-- The suppressor leaves SPEECH or HANGOVER for QUIET at a block below the threshold. -/
theorem nextVad_quiet {vad : Vad} {count hangover : Nat} (ends : (vad = .hangover ∧ count ≤ 1) ∨ (vad = .speech ∧ hangover = 0)) :
    nextVad vad count hangover false = (.quiet, 0) := by
  obtain ⟨rfl, last⟩ | ⟨rfl, rfl⟩ := ends
  · exact if_pos last
  · rfl

/-- The part after the event changed nothing but positions and the blocks of the microphones. -/
def OnlyDrawn (s t : State) : Prop := t = { s with positions := t.positions, sources := { s.sources with mic := t.sources.mic } }

/-- What the draw of a raw block leads to: the position and MIC(p) as the suppressor gives them, and, where nothing is stopped by an onset,
nothing else. -/
theorem State.portBlock_draws {s : State} {p : PosId} (state : (s.pos p).port.state = .live)
    (ready : (s.pos p).port.priming = false ∨ 128 ≤ (s.pos p).port.uplink.samples.length) {after : Elastic} {raw : Block}
    (draw : (s.pos p).port.uplink.draw = (after, raw, true)) : ∃ u t, s.portBlock .unplugFirst p true = t ∧ OnlyDrawn s u ∧
      u.pos p = { s.pos p with
        port := { (s.pos p).port with presence := true, unplugCount := 0, frameSeen := false, uplink := after, priming := false }
        ns := ((s.pos p).ns.analyse (s.pos p).config raw).1 } ∧ (∀ q, q ≠ p → u.pos q = s.pos q) ∧
      u.sources.mic = tset s.sources.mic p ((s.pos p).ns.analyse (s.pos p).config raw).2.1 ∧
      t.positions = u.positions ∧ t.sources = u.sources ∧ t.link = s.link ∧
      t = if ((s.pos p).ns.analyse (s.pos p).config raw).2.2 then u.speechOnset p else u := by
  have drawn := State.drawMic_drawn (s := s.sampledLive p) (p := p) (by rw [State.sampledLive_pos]; exact ready)
    (by rw [State.sampledLive_pos]; exact draw)
  rw [State.sampledLive_pos] at drawn
  dsimp only at drawn
  have pos := State.sampledLive_drawn_pos s p after raw
  have frame := State.sampledLive_drawn_frame s p after raw
  have ne := fun q other => State.sampledLive_drawn_ne (s := s) (p := p) (q := q) other after raw
  generalize (s.sampledLive p).drawn p after raw = u at drawn pos frame ne
  have mic : u.sources.mic = tset s.sources.mic p ((s.pos p).ns.analyse (s.pos p).config raw).2.1 := by rw [frame]
  have link : u.link = s.link := by rw [frame]
  obtain ⟨positions, sources, onsetLink⟩ := u.speechOnset_frame p
  refine ⟨u, _, (State.portBlock_live state _).trans drawn, ?_, pos, ne, mic, ?_, ?_, ?_, rfl⟩
  · unfold OnlyDrawn
    rw [mic]
    exact frame
  · split
    · exact positions
    · rfl
  · split
    · exact sources
    · rfl
  · split
    · exact onsetLink.trans link
    · exact link

/-- The draw clause of O16, for whichever fill gives the raw block. -/
theorem State.portBlock_hears {s : State} {p : PosId} (state : (s.pos p).port.state = .live)
    (ready : (s.pos p).port.priming = false ∨ 128 ≤ (s.pos p).port.uplink.samples.length) {after : Elastic} {raw : Block}
    (draw : (s.pos p).port.uplink.draw = (after, raw, true)) :
    ∃ t, exec (.portBlockEvent p true) s = .next t ∧ (t.pos p).port.uplink = after ∧ (t.pos p).port.priming = false ∧
      (t.pos p).ns = ((s.pos p).ns.analyse (s.pos p).config raw).1 ∧
      tget t.sources.mic p = ((s.pos p).ns.analyse (s.pos p).config raw).2.1 ∧
      (t.pos p).port.state = .live ∧ (t.pos p).mute = (s.pos p).mute ∧ (t.pos p).whisper = (s.pos p).whisper ∧
      (∀ q, q ≠ p → t.pos q = s.pos q) ∧ t.link = s.link ∧
      (∀ w rest e n, ((s.pos p).ns.floor * (s.pos p).config.nsRatio ≤ energy raw ∧ (s.pos p).ns.vad ≠ .speech) →
        (s.pos p).whisper.entries = w :: rest → (s.pos p).whisper.head = .granted e → w.kind = .prompt true n →
        (s.eng e).state = .playing → (s.eng e).closing = 0 →
        t.eng e = { s.eng e with state := .stopping, stopOutcome := .stopped } ∧ e ∉ t.memory.fetches ∧
        ∀ d, d ≠ e → t.eng d = s.eng d) ∧
      ((energy raw < (s.pos p).ns.floor * (s.pos p).config.nsRatio ∨ (s.pos p).ns.vad = .speech
          ∨ (∀ e, (s.pos p).whisper.head ≠ .granted e) ∨ (∀ w ∈ (s.pos p).whisper.entries, ∀ n, w.kind ≠ .prompt true n)
          ∨ (∃ e, (s.pos p).whisper.head = .granted e ∧ (s.eng e).state ≠ .playing)) → OnlyDrawn s t) ∧
      (energy raw < (s.pos p).ns.floor * (s.pos p).config.nsRatio →
        (((s.pos p).ns.vad = .hangover ∧ (s.pos p).ns.hangover ≤ 1)
          ∨ ((s.pos p).ns.vad = .speech ∧ (s.pos p).config.nsHangover = 0)) →
        exec (.hangoverEnd p true) s = .next t ∧ (t.pos p).ns.vad = .quiet ∧ (t.pos p).ns.hangover = 0 ∧ OnlyDrawn s t) := by
  obtain ⟨u, t, goes, frame, pos, ne, mic, positions, sources, link, heard⟩ := State.portBlock_draws state ready draw
  have vad := Suppressor.analyse_vad (s.pos p).ns (s.pos p).config raw
  have onset := Suppressor.analyse_onset (s.pos p).ns (s.pos p).config raw
  generalize (s.pos p).ns.analyse (s.pos p).config raw = analysed at *
  have quietBelow : energy raw < (s.pos p).ns.floor * (s.pos p).config.nsRatio → analysed.2.2 = false :=
    fun below => by rw [onset, decide_eq_false (not_le.2 below), Bool.false_and]
  have same : ∀ q, t.pos q = u.pos q := fun q => congrArg (fun x => tget x q) positions
  have engines : u.eng = s.eng := by rw [frame]; rfl
  have whisper : (u.pos p).whisper = (s.pos p).whisper := by rw [pos]
  refine ⟨t, congrArg _ goes, by rw [same, pos], by rw [same, pos], by rw [same, pos],
    by rw [sources, mic, tget_tset_same], by rw [same, pos]; exact state, by rw [same, pos], by rw [same, pos],
    fun q other => (same q).trans (ne q other), link, fun w rest eng n speaks entries head kind playing running => ?_,
    fun nothing => ?_, fun below ends => ?_⟩
  · have stirred : analysed.2.2 = true := by
      rw [onset, decide_eq_true speaks.1, decide_eq_true speaks.2]
      rfl
    rw [if_pos stirred] at heard
    rw [heard, ← engines]
    rw [← whisper] at entries head
    rw [← engines] at playing running
    exact State.speechOnset_engines entries head kind playing running
  · have unstirred : t = u := by
      rw [heard]
      obtain below | spoken | none := nothing
      · rw [quietBelow below]
        rfl
      · rw [onset, decide_eq_false (not_not.2 spoken), Bool.and_false]
        rfl
      · rw [State.speechOnset_nothing (by rw [whisper, engines]; exact none), ite_self]
    exact unstirred ▸ frame
  · have unstirred : t = u := by
      rw [heard, quietBelow below]
      rfl
    rw [decide_eq_false (not_le.2 below), nextVad_quiet ends] at vad
    obtain ⟨vad, hangover⟩ := Prod.mk.inj vad
    have spoke : (s.pos p).ns.vad ≠ .quiet := by
      obtain ⟨e, _⟩ | ⟨e, _⟩ := ends <;> rw [e] <;> nofun
    have quiet : (t.pos p).ns.vad = .quiet := by rw [same, pos]; exact vad
    refine ⟨?_, quiet, by rw [same, pos]; exact hangover, unstirred ▸ frame⟩
    show Host.Outcome.next (if (s.pos p).ns.vad ≠ .quiet ∧ ((s.portBlock .unplugFirst p true).pos p).ns.vad = .quiet
      ∧ (s.portBlock .unplugFirst p true).isLive p then s.portBlock .unplugFirst p true else s) = _
    rw [goes]
    exact congrArg _ (if_pos ⟨spoke, quiet, by unfold State.isLive; rw [same, pos]; exact decide_eq_true state⟩)

/-- A port in ACQUIRING, with no window, after a block event with the headset present (R7). -/
def Port.sampledAcquiring (x : Port) : Port := { x with
  presence := true, unplugCount := 0, frameSeen := false
  noFrames := x.noFrames || !x.frameSeen
  interval := if x.frameSeen then x.interval else none
  previous := if x.frameSeen then x.previous else none }

theorem Port.sampleUnplug_judgeFrames {x : Port} (state : x.state = .acquiring) (none : x.window = none) :
    (x.sampleUnplug true).countBlock.judgeFrames = x.sampledAcquiring := by
  rw [Port.countBlock_of_other (by
    show x.state ≠ .qualifying
    rw [state]
    nofun)]
  unfold Port.sampleUnplug Port.judgeFrames Port.sampledAcquiring
  dsimp only
  have window : x.window.map (· + 1) = x.window := by
    rw [none]
    rfl
  rw [window]
  obtain seen | seen := Bool.eq_false_or_eq_true x.frameSeen
  · rw [if_neg (by rw [seen]; nofun), seen]
    simp only [Bool.not_true, Bool.or_false, if_true]
  · rw [if_pos ⟨state, seen⟩, seen]
    simp only [Bool.not_false, Bool.or_true, Bool.false_eq_true, if_false, if_true]

/-- The block event of an acquisition with no window looks for a frame since the event before (R7). -/
theorem State.portBlock_acquiring {s : State} {p : PosId} (state : (s.pos p).port.state = .acquiring) (none : (s.pos p).port.window = none) :
    s.portBlock .unplugFirst p true = (s.modPort p Port.sampledAcquiring).putMic p zeroBlock := by
  have sampled : (s.modPort p fun x => ((x.sampleUnplug true).countBlock).judgeFrames) = s.modPort p Port.sampledAcquiring := by
    rw [State.modPort_eq_reporting, State.modPort_eq_reporting]
    refine State.reporting_congr ?_ []
    rw [Port.sampleUnplug_judgeFrames state none]
  have pos : ((s.modPort p Port.sampledAcquiring).putMic p zeroBlock).pos p = { s.pos p with port := (s.pos p).port.sampledAcquiring } :=
    (State.putMic_pos _ _ _ _).trans (State.pos_modPort_same s p _)
  unfold State.portBlock
  rw [state]
  dsimp only
  rw [sampled]
  unfold State.transitions
  dsimp only
  rw [State.unplugIfDue_of_present (by rw [pos]; rfl), State.expiryIfDue_of_none (by rw [pos]; exact none),
    State.liveIfDue_of_other (by rw [pos]; show (s.pos p).port.state ≠ _; rw [state]; nofun)]

/-- Settles O16: each fill of the buffer has its draw (`Elastic.draw_full` to `Elastic.draw_short`), and what an onset sets off is one stop. -/
theorem drawAndHangoverEnd : Obligations.DrawAndHangoverEnd := by
  have block : ∀ (s : State) (p : PosId), (s.pos p).port.state = .live → exec (.portBlockEvent p true) s = .next ((s.sampledLive p).drawMic p) :=
    fun s p state => congrArg _ (State.portBlock_live state .unplugFirst)
  have others : ∀ (s : State) (p q : PosId), q ≠ p → (s.sampledLive p).pos q = s.pos q := fun s p q other =>
    State.pos_modPort_ne s p q _ (Ne.symm other)
  refine ⟨fun s p state priming few => ?_, fun s p state ready up after raw e cases => ?_, fun s p state off empty => ?_, fun s p state none => ?_⟩
  · have drawn := State.drawMic_priming (s := s.sampledLive p) (p := p) (by rw [State.sampledLive_pos]; exact priming)
      (by rw [State.sampledLive_pos]; exact few)
    exact ⟨_, (block s p state).trans (congrArg _ drawn), others s p, State.sampledLive_pos s p, rfl⟩
  · have draw : up.draw = (after, raw, true) := by
      obtain ⟨low, high, rfl, rfl⟩ | ⟨high, rfl, rfl⟩ | ⟨low, rfl, rfl⟩ | ⟨some_, short, rfl, rfl⟩ := cases
      · exact Elastic.draw_full low high
      · exact Elastic.draw_high high
      · exact Elastic.draw_low low
      · rw [Elastic.draw_short short, decide_eq_true (show 0 < up.samples.length from some_)]
    exact State.portBlock_hears state ready (e ▸ draw)
  · have drawn := State.drawMic_empty (s := s.sampledLive p) (p := p) (.inl (by rw [State.sampledLive_pos]; exact off))
      (after := { (s.pos p).port.uplink with underruns := min 65535 ((s.pos p).port.uplink.underruns + 1) }) (raw := List.replicate 64 0) (by
        rw [State.sampledLive_pos]
        dsimp only
        rw [Elastic.draw_short (by rw [empty]; exact Nat.zero_le _), empty]
        rfl)
    refine ⟨_, (block s p state).trans (congrArg _ drawn), fun q other => ?_, ?_, rfl⟩
    · rw [State.putMic_pos, State.pos_modPort_ne _ _ _ _ (Ne.symm other)]
      exact others s p q other
    · rw [State.putMic_pos, State.pos_modPort_same, State.sampledLive_pos, ← off]
  · refine ⟨_, congrArg Host.Outcome.next (State.portBlock_acquiring state none), fun q other => ?_, ?_, rfl⟩
    · rw [State.putMic_pos, State.pos_modPort_ne _ _ _ _ (Ne.symm other)]
    · rw [State.putMic_pos, State.pos_modPort_same]
      rfl

end Sys2Proof.Machine
end

section
set_option Elab.async false
/-! ## Ramps, the suppressor's bounds, the send mix and the ear (chapters 3 and 4) -/

namespace Sys2Proof.Machine

/-! ### Ramps (R67, R112) -/

/-- A gain n samples into its ramp. -/
def rampTo (gain target step n : Nat) : Nat := (fun x => stepToward x target step)^[n] gain

@[simp] theorem rampTo_zero (gain target step : Nat) : rampTo gain target step 0 = gain := rfl

theorem rampTo_succ (gain target step n : Nat) : rampTo gain target step (n + 1) = rampTo (stepToward gain target step) target step n :=
  Function.iterate_succ_apply _ _ _

/-- A ramp in closed form: it rises, or falls, by its steps and stops on the target. -/
theorem rampTo_eq (gain target step n : Nat) :
    rampTo gain target step n = if gain ≤ target then min (gain + n * step) target else max (gain - n * step) target := by
  induction n generalizing gain with
  | zero =>
    rw [rampTo_zero, Nat.zero_mul]
    split <;> omega
  | succ n ih =>
    rw [rampTo_succ, ih, Nat.succ_mul]
    generalize n * step = done
    obtain low | rfl | high := lt_trichotomy gain target
    · have one : stepToward gain target step = min (gain + step) target := if_pos low
      rw [one, if_pos (min_le_right _ _), if_pos low.le]
      omega
    · have one : stepToward gain gain step = gain := (if_neg (lt_irrefl _)).trans (if_neg (lt_irrefl _))
      rw [one, if_pos le_rfl, if_pos le_rfl]
      omega
    · have one : stepToward gain target step = max (gain - step) target := (if_neg high.not_gt).trans (if_pos high)
      rw [one, if_neg (not_le.2 high)]
      split <;> omega

/-- A ramp that has come to 0 on its way to 0 stays there. -/
theorem rampTo_rest (step n : Nat) : rampTo 0 0 step n = 0 := by
  rw [rampTo_eq, if_pos le_rfl]
  omega

/-! ### Samples and gains -/

theorem sat16_toInt (x : Int) : (sat16 x).toInt = sat16Int x := by
  unfold sat16 sat16Int
  rw [BitVec.toInt_ofInt]
  exact Int.bmod_eq_of_le (by omega) (by omega)

/-- Saturating brings a value no further from 0. -/
theorem sat16_natAbs_le (x : Int) : (sat16 x).toInt.natAbs ≤ x.natAbs := by
  rw [sat16_toInt]
  unfold sat16Int
  omega

/-- Rounding a value that a gain and a bound multiply to at most keeps the bound. -/
theorem round14_natAbs_le {x : Int} {bound : Nat} (h : x.natAbs ≤ bound * 16384) : (round14 x).natAbs ≤ bound := by
  unfold round14
  omega

/-- A gain of at most 1 makes no sample larger (R82). -/
theorem scale_natAbs_le (x : Sample) {gain : Nat} (h : gain ≤ 16384) : (scale x gain).toInt.natAbs ≤ x.toInt.natAbs := by
  refine (sat16_natAbs_le _).trans (round14_natAbs_le ?_)
  rw [Int.natAbs_mul, Int.natAbs_natCast]
  exact Nat.mul_le_mul_left _ h

/-! ### The suppressor (R77 to R83) -/

theorem nextGain_le {g target bound : Nat} (attack release : Nat) (h : g ≤ bound) (k : target ≤ bound) : nextGain g target attack release ≤ bound := by
  unfold nextGain
  split
  · exact (min_le_right _ _).trans k
  · split
    · exact max_le ((Nat.sub_le _ _).trans h) k
    · exact h

/-- The suppressor scales each sample of the block by a gain within its bound (R82). -/
theorem suppress_bounds {target : Nat} (attack release : Nat) {g : Nat} (raw : List Sample) (h : g ≤ 16384) (k : target ≤ 16384) :
    (suppress target attack release g raw).2 ≤ 16384 ∧ (suppress target attack release g raw).1.length = raw.length ∧
      ∀ (i : Nat) (x y : Sample), raw[i]? = some x → (suppress target attack release g raw).1[i]? = some y → y.toInt.natAbs ≤ x.toInt.natAbs := by
  induction raw generalizing g with
  | nil => exact ⟨h, rfl, fun i x y e => nomatch e⟩
  | cons x xs ih =>
    obtain ⟨last, length, quieter⟩ := ih (nextGain_le attack release h k)
    refine ⟨last, congrArg (· + 1) length, fun i a b ea eb => ?_⟩
    cases i with
    | zero =>
      cases ea
      cases eb
      exact scale_natAbs_le x h
    | succ i => exact quieter i a b ea eb

theorem nextFloor_bounds {floor : Nat} (e : Nat) (speech : Bool) (low : 16 ≤ floor) (high : floor ≤ 67108864) :
    16 ≤ nextFloor floor e speech ∧ nextFloor floor e speech ≤ 67108864 := by
  unfold nextFloor
  split
  · omega
  · split <;> omega

theorem Suppressor.analyse_floor (n : Suppressor) (cfg : PositionConfig) (raw : Block) :
    (n.analyse cfg raw).1.floor = nextFloor n.floor (energy raw) (n.isSpeech cfg (energy raw)) := by
  unfold Suppressor.analyse
  dsimp only
  split <;> rfl

/-- With NS off MIC(p) is the raw block and the gain 1. -/
theorem Suppressor.analyse_off (n : Suppressor) {cfg : PositionConfig} (raw : Block) (off : cfg.nsEnable = false) :
    (n.analyse cfg raw).2.1 = raw ∧ (n.analyse cfg raw).1.gain = 16384 := by
  unfold Suppressor.analyse
  dsimp only
  rw [if_neg (by rw [off]; nofun)]
  exact ⟨rfl, rfl⟩

/-- With NS on the block is scaled toward the attenuation in QUIET and toward 1 otherwise (R82). -/
theorem Suppressor.analyse_on (n : Suppressor) {cfg : PositionConfig} (raw : Block) (on : cfg.nsEnable = true) :
    ((n.analyse cfg raw).2.1, (n.analyse cfg raw).1.gain) =
      suppress (if (n.analyse cfg raw).1.vad = .quiet then cfg.nsAttenuation else Config.unity) cfg.nsAttack cfg.nsRelease n.gain raw := by
  unfold Suppressor.analyse
  dsimp only
  rw [if_pos on]

theorem nextVad_speech {vad : Vad} {count hangover : Nat} {speech : Bool} : (nextVad vad count hangover speech).1 = .speech ↔ speech = true := by
  unfold nextVad
  split
  · exact iff_of_true rfl ‹_›
  · refine iff_of_false ?_ ‹_›
    split
    · nofun
    · split <;> nofun
    · split <;> nofun

/-- Settles O26: the ramp's closed form (`rampTo_eq`), and the suppressor's parts one by one. -/
theorem rampsAndSuppressorBounds : Obligations.RampsAndSuppressorBounds := by
  refine ⟨fun gain target step n => ?_, fun n cfg raw low high gain attenuation => ?_⟩
  · show min gain target ≤ rampTo gain target step n ∧ rampTo gain target step n ≤ max gain target ∧
      (_ → _ → rampTo gain target step n = target) ∧ (_ → rampTo gain target step n = _) ∧ (_ → rampTo gain target step n = _)
    rw [rampTo_eq]
    generalize n * step = moved
    split
    · refine ⟨?_, ?_, ?_, ?_, ?_⟩ <;> omega
    · refine ⟨?_, ?_, ?_, ?_, ?_⟩ <;> omega
  · obtain ⟨floorLow, floorHigh⟩ := nextFloor_bounds (energy raw) (n.isSpeech cfg (energy raw)) low high
    have vad := congrArg Prod.fst (n.analyse_vad cfg raw)
    have onset := n.analyse_onset cfg raw
    have bounds : (n.analyse cfg raw).1.gain ≤ 16384 ∧ (n.analyse cfg raw).2.1.length = raw.length ∧
        ∀ (i : Nat) (x y : Sample), raw[i]? = some x → (n.analyse cfg raw).2.1[i]? = some y → y.toInt.natAbs ≤ x.toInt.natAbs := by
      obtain on | off := Bool.eq_false_or_eq_true cfg.nsEnable
      · have run := n.analyse_on raw on
        obtain ⟨last, length, quieter⟩ := suppress_bounds cfg.nsAttack cfg.nsRelease raw gain
          (show (if (n.analyse cfg raw).1.vad = .quiet then cfg.nsAttenuation else Config.unity) ≤ 16384 by split <;> [assumption; exact le_rfl])
        rw [← run] at last length quieter
        exact ⟨last, length, quieter⟩
      · obtain ⟨same, unity⟩ := n.analyse_off raw off
        rw [same, unity]
        exact ⟨le_rfl, rfl, fun i x y ex ey => (Option.some.inj (ex.symm.trans ey)) ▸ le_rfl⟩
    obtain ⟨gainBound, length, quieter⟩ := bounds
    refine ⟨by rw [n.analyse_floor]; exact floorLow, by rw [n.analyse_floor]; exact floorHigh, gainBound, length, quieter, n.analyse_off raw, ?_, ?_⟩
    · rw [show (n.analyse cfg raw).1.vad = _ from vad, nextVad_speech, decide_eq_true_iff]
      exact Iff.rfl
    · rw [onset, Bool.and_eq_true, decide_eq_true_iff, decide_eq_true_iff]
      exact Iff.rfl

/-! ### The mix (R64 to R69) -/

theorem foldl_add_eq {α : Type} (f : α → Int) (l : List α) (acc : Int) : l.foldl (fun acc x => acc + f x) acc = acc + (l.map f).sum := by
  induction l generalizing acc with
  | nil => exact (add_zero acc).symm
  | cons x l ih => rw [List.foldl_cons, ih, List.map_cons, List.sum_cons, add_assoc]

/-- A feed's part in sample n of its block. -/
def Lane.part (x : Lane) (n : Nat) : Int := (x.rest.getD n 0).toInt * (rampTo x.feed.gain x.effective x.feed.step n : Int)

/-- A feed after n samples: none when it fades and has reached 0 (R61, R67). -/
def Lane.after (n : Nat) (x : Lane) : Option Feed :=
  if x.feed.fading = true ∧ rampTo x.feed.gain x.effective x.feed.step n = 0 then none
  else some { x.feed with gain := rampTo x.feed.gain x.effective x.feed.step n }

/-- A fading feed is on its way to 0 (R61). -/
def Lane.FadesOut (x : Lane) : Prop := x.feed.fading = true → x.effective = 0

section Lanes
variable {lanes : List Lane}

theorem advanceLanes_fadesOut (h : ∀ x ∈ lanes, x.FadesOut) : ∀ x ∈ advanceLanes lanes, x.FadesOut := by
  intro y mem
  obtain ⟨x, from_, advanced⟩ := List.mem_filterMap.1 mem
  unfold Lane.advance at advanced
  dsimp only at advanced
  split at advanced
  · cases advanced
  · cases advanced
    exact h x from_

/-- A feed that has faded out gives nothing more; another goes on one sample later. -/
theorem Lane.advance_part {x : Lane} (h : x.FadesOut) (n : Nat) : (x.advance.map fun y => y.part n).getD 0 = x.part (n + 1) := by
  unfold Lane.advance
  dsimp only
  split
  · rename_i faded
    unfold Lane.part
    rw [rampTo_succ, faded.2, h faded.1, rampTo_rest]
    exact (mul_zero _).symm
  · unfold Lane.part
    rw [rampTo_succ, Option.map_some, Option.getD_some]
    rw [List.getD_eq_getElem?_getD, List.getD_eq_getElem?_getD, List.getElem?_tail]

theorem Lane.advance_after {x : Lane} (h : x.FadesOut) (n : Nat) : x.advance.bind (Lane.after n) = x.after (n + 1) := by
  unfold Lane.advance
  dsimp only
  split
  · rename_i faded
    unfold Lane.after
    rw [rampTo_succ, faded.2, h faded.1, rampTo_rest, if_pos ⟨faded.1, rfl⟩]
    rfl
  · unfold Lane.after
    rw [rampTo_succ]
    rfl

theorem advanceLanes_part (h : ∀ x ∈ lanes, x.FadesOut) (n : Nat) :
    ((advanceLanes lanes).map fun x => x.part n).sum = (lanes.map fun x => x.part (n + 1)).sum := by
  induction lanes with
  | nil => rfl
  | cons x lanes ih =>
    have rest := ih fun y mem => h y (List.mem_cons_of_mem _ mem)
    have one := Lane.advance_part (h x List.mem_cons_self) n
    unfold advanceLanes at rest ⊢
    rw [List.filterMap_cons, List.map_cons, List.sum_cons, ← rest, ← one]
    split
    · rename_i none
      rw [none]
      exact (zero_add _).symm
    · rename_i y some_
      rw [some_, List.map_cons, List.sum_cons]
      rfl

theorem advanceLanes_after (h : ∀ x ∈ lanes, x.FadesOut) (n : Nat) :
    (advanceLanes lanes).filterMap (Lane.after n) = lanes.filterMap (Lane.after (n + 1)) := by
  unfold advanceLanes
  rw [List.filterMap_filterMap]
  exact List.filterMap_congr fun x mem => Lane.advance_after (h x mem) n

theorem mixRun_length (n : Nat) (lanes : List Lane) : (mixRun n lanes).1.length = n := by
  induction n generalizing lanes with
  | zero => rfl
  | succ n ih => exact congrArg (· + 1) (ih _)

/-- Each mix sample of a run (R68). -/
theorem mixRun_getElem? (h : ∀ x ∈ lanes, x.FadesOut) {n i : Nat} (within : i < n) :
    (mixRun n lanes).1[i]? = some (sat16 (round14 (lanes.map fun x => x.part i).sum)) := by
  induction n generalizing lanes i with
  | zero => exact absurd within (Nat.not_lt_zero i)
  | succ n ih =>
    cases i with
    | zero =>
      show some (mixSample lanes) = _
      unfold mixSample
      rw [foldl_add_eq, zero_add]
      have first : ∀ x : Lane, (x.rest.headD 0).toInt * (x.feed.gain : Int) = x.part 0 := fun x => by
        unfold Lane.part
        rw [rampTo_zero, List.headD_eq_head?_getD, List.getD_eq_getElem?_getD, List.head?_eq_getElem?]
      rw [List.map_congr_left fun x _ => first x]
    | succ i =>
      rw [← advanceLanes_part h]
      exact ih (advanceLanes_fadesOut h) (Nat.lt_of_succ_lt_succ within)

/-- The feeds after a run of at least one sample (R61, R67). -/
theorem mixRun_feeds (h : ∀ x ∈ lanes, x.FadesOut) (n : Nat) : (mixRun (n + 1) lanes).2.map Lane.feed = lanes.filterMap (Lane.after (n + 1)) := by
  induction n generalizing lanes with
  | zero =>
    show (advanceLanes lanes).map Lane.feed = _
    unfold advanceLanes
    rw [List.map_filterMap]
    refine List.filterMap_congr fun x _ => ?_
    unfold Lane.advance Lane.after
    dsimp only
    rw [rampTo_succ, rampTo_zero]
    split <;> rfl
  | succ n ih =>
    rw [← advanceLanes_after h]
    exact ih (advanceLanes_fadesOut h)

end Lanes

section Block
variable {s : State} {feeds : List Feed} {effective : Feed → Nat} {block : Source → Block}

/-- The feeds of a list at work in a block. -/
def lanesOf (feeds : List Feed) (effective : Feed → Nat) (block : Source → Block) : List Lane :=
  feeds.map fun f => ⟨f, effective f, block f.source⟩

theorem lanesOf_fadesOut (h : ∀ f : Feed, f.fading = true → effective f = 0) : ∀ x ∈ lanesOf feeds effective block, x.FadesOut := by
  intro x mem
  obtain ⟨f, _, rfl⟩ := List.mem_map.1 mem
  exact h f

theorem mixRun_lanesOf (h : ∀ f : Feed, f.fading = true → effective f = 0) {n i : Nat} (within : i < n) :
    (mixRun n (lanesOf feeds effective block)).1[i]? = some (mixedAt feeds effective block i) := by
  rw [mixRun_getElem? (lanesOf_fadesOut h) within]
  unfold lanesOf
  rw [List.map_map]
  rfl

theorem mixRun_lanesOf_feeds (h : ∀ f : Feed, f.fading = true → effective f = 0) :
    (mixRun Config.blockSamples (lanesOf feeds effective block)).2.map Lane.feed = rampedFeeds feeds effective := by
  rw [show Config.blockSamples = 63 + 1 from rfl, mixRun_feeds (lanesOf_fadesOut h)]
  unfold lanesOf
  rw [List.filterMap_map]
  rfl

theorem State.muted_iff (s : State) (f : Feed) : s.muted f = true ↔ ∃ q, f.source = .mic q ∧ (s.pos q).mute = true := by
  unfold State.muted
  split
  · rename_i q e
    exact ⟨fun m => ⟨q, e, m⟩, fun ⟨r, er, m⟩ => by cases e.symm.trans er; exact m⟩
  all_goals
    rename_i e
    exact iff_of_false nofun fun ⟨r, er, _⟩ => nomatch e.symm.trans er

theorem State.muted_eq_false {f : Feed} (h : ∀ q, f.source = .mic q → (s.pos q).mute = false) : s.muted f = false :=
  Bool.eq_false_iff.2 fun m => by
    obtain ⟨q, e, muted⟩ := (s.muted_iff f).1 m
    exact nomatch muted.symm.trans (h q e)

/-- A feed that fades or whose microphone is muted goes to 0 (R64). -/
theorem State.earTarget_zero (p : PosId) {f : Feed} (h : f.fading = true ∨ s.muted f = true) : s.earTarget p f = 0 := by
  unfold State.earTarget
  split
  · rfl
  · exact if_pos (h.resolve_left ‹_›)

theorem State.sendTarget_zero (l : LegId) {f : Feed} (h : f.fading = true ∨ s.muted f = true) : s.sendTarget l f = 0 := by
  unfold State.sendTarget
  split
  · rfl
  · exact if_pos (h.resolve_left ‹_›)

theorem any_role_iff {r : Role} : (feeds.any fun g => g.role = r ∧ g.fading = false) = true ↔ ∃ g ∈ feeds, g.role = r ∧ g.fading = false := by
  rw [List.any_eq_true]
  exact exists_congr fun g => and_congr_right fun _ => decide_eq_true_iff

/-- The other feeds go to their target, ducked beside the role that ducks them (R65). -/
theorem State.earTarget_heard (p : PosId) {f : Feed} (shown : f.fading = false) (open_ : s.muted f = false) :
    s.earTarget p f = if f.role = .caller ∧ ∃ g ∈ tget s.ears p, g.role = .whisper ∧ g.fading = false
      then duckGain f.target (s.pos p).config.whisperDuck else f.target := by
  unfold State.earTarget
  rw [if_neg (by rw [shown]; nofun), if_neg (by rw [open_]; nofun)]
  simp only [any_role_iff]

theorem State.sendTarget_heard (l : LegId) {f : Feed} (shown : f.fading = false) (open_ : s.muted f = false) :
    s.sendTarget l f = if f.role = .music ∧ ∃ g ∈ tget s.sends l, g.role = .announce ∧ g.fading = false
      then ((s.announceDuck l).map (duckGain f.target)).getD f.target else f.target := by
  unfold State.sendTarget
  rw [if_neg (by rw [shown]; nofun), if_neg (by rw [open_]; nofun)]
  cases s.announceDuck l <;> simp only [any_role_iff, Option.map_some, Option.map_none, Option.getD_some, Option.getD_none]

end Block

/-- The feeds beside which a feed is ducked are none where all of them fade. -/
theorem not_ducked {feeds : List Feed} {f : Feed} {role by_ : Role} (h : f.role ≠ role ∨ ∀ g ∈ feeds, g.role = by_ → g.fading = true) :
    ¬ (f.role = role ∧ ∃ g ∈ feeds, g.role = by_ ∧ g.fading = false) := by
  rintro ⟨is, g, mem, r, shown⟩
  obtain other | all := h
  · exact other is
  · exact nomatch shown.symm.trans (all g mem r)

/-- Settles O25: the run over the feeds of SEND(l) (`mixRun_lanesOf`), and the targets clause by clause. -/
theorem sendBlock : Obligations.SendBlock := by
  intro s l
  have zero : ∀ f : Feed, f.fading = true → s.sendTarget l f = 0 := fun f fading => State.sendTarget_zero l (.inl fading)
  have feeds := mixRun_lanesOf_feeds (feeds := tget s.sends l) (block := s.sourceBlock) zero
  refine ⟨s.sendBlock l, (mixRun Config.blockSamples (lanesOf (tget s.sends l) (s.sendTarget l) s.sourceBlock)).1, rfl, mixRun_length _ _,
    fun i within => mixRun_lanesOf zero within, tget_tset_same _ _ _, fun m other => tget_tset_ne _ _ _ _ (Ne.symm other), ?_,
    fun m other => State.leg_modLeg_ne _ _ _ _ (Ne.symm other), fun m other => tget_tset_ne _ _ _ _ (Ne.symm other),
    (tget_tset_same _ _ _).trans feeds, fun f h => ?_, fun f shown unmuted => ⟨fun x h r ducked session plan record => ?_, fun h => ?_⟩, fun empty => ?_, rfl⟩
  · exact State.leg_modLeg_same _ l _
  · exact State.sendTarget_zero l (h.imp_right (s.muted_iff f).2)
  · have duck : s.announceDuck l = some r.duck := by
      unfold State.announceDuck
      rw [session]
      dsimp only
      rw [plan]
      dsimp only
      rw [record]
      rfl
    rw [State.sendTarget_heard l shown (State.muted_eq_false unmuted), if_pos ducked, duck]
    rfl
  · rw [State.sendTarget_heard l shown (State.muted_eq_false unmuted), if_neg (not_ducked h)]
  · have silent : ∀ n, mixRun n [] = (List.replicate n 0, []) := fun n => by
      induction n with
      | zero => rfl
      | succ n ih =>
        show (mixSample [] :: (mixRun n []).1, (mixRun n []).2) = _
        rw [ih]
        rfl
    refine ⟨by rw [empty]; exact congrArg Prod.fst (silent 64), ?_⟩
    rw [show tget (s.sendBlock l).sends l = _ from (tget_tset_same _ _ _).trans feeds, empty]
    rfl

/-! ### The ear (R70 to R74) -/

section Limiter
variable {level : Nat}

/-- The limiter brings every sample within its level (R71, R72). -/
theorem limit_natAbs_le (gain release : Nat) (v : Sample) : (limit gain level release v).1.toInt.natAbs ≤ level := by
  unfold limit
  dsimp only
  split
  · refine (sat16_natAbs_le _).trans (round14_natAbs_le ?_)
    rw [Int.natAbs_mul, Int.natAbs_natCast]
    exact Nat.mul_div_le _ _
  · exact (sat16_natAbs_le _).trans (not_lt.1 ‹_›)

/-- The limiter passes a sample within its level on and lets its gain rise; on another it lowers its gain at once (R72). -/
theorem limit_within {gain release : Nat} {v : Sample} (h : (round14 (v.toInt * (gain : Int))).natAbs ≤ level) :
    limit gain level release v = (sat16 (round14 (v.toInt * (gain : Int))), min 16384 (gain + release)) := if_neg (not_lt.2 h)

theorem limit_beyond {gain release : Nat} {v : Sample} (h : level < (round14 (v.toInt * (gain : Int))).natAbs) :
    limit gain level release v =
      (sat16 (round14 (v.toInt * ((level * 16384 / v.toInt.natAbs : Nat) : Int))), level * 16384 / v.toInt.natAbs) := if_pos h

variable {volume release : Nat}

/-- A mix sample as the limiter sees it is a shock (R73). -/
def Shock (volume level : Nat) (m : Sample) : Prop := 2 * level ≤ (scale m volume).toInt.natAbs

/-- Each sample is put out through the limiter, whatever is counted. -/
theorem EarWork.step_out (w : EarWork) (m : Sample) :
    (w.step volume level release m).out = (limit w.limiter.gain level release (scale m volume)).1 :: w.out ∧
      (w.step volume level release m).limiter.gain = (limit w.limiter.gain level release (scale m volume)).2 := by
  unfold EarWork.step
  dsimp only
  split <;> exact ⟨rfl, rfl⟩

/-- A sample that is no shock counts and reports nothing. -/
theorem EarWork.step_quiet {w : EarWork} {m : Sample} (h : ¬ Shock volume level m) :
    (w.step volume level release m).limiter.shocks = w.limiter.shocks ∧ (w.step volume level release m).limiter.holdoff = w.limiter.holdoff ∧
      (w.step volume level release m).shocks = w.shocks := by
  unfold EarWork.step
  dsimp only
  rw [if_neg (show ¬ 2 * level ≤ (scale m volume).toInt.natAbs from h)]
  exact ⟨rfl, rfl, rfl⟩

theorem EarWork.step_shock {w : EarWork} {m : Sample} (h : Shock volume level m) :
    (w.step volume level release m).limiter.shocks = min 65535 (w.limiter.shocks + 1) ∧
    (w.step volume level release m).limiter.holdoff = (if w.limiter.holdoff = 0 then 250 else w.limiter.holdoff) ∧
    (w.step volume level release m).shocks = if w.limiter.holdoff = 0
      then ((scale m volume).toInt.natAbs, min 65535 (w.limiter.shocks + 1)) :: w.shocks else w.shocks := by
  unfold EarWork.step
  dsimp only
  rw [if_pos (show 2 * level ≤ (scale m volume).toInt.natAbs from h)]
  exact ⟨rfl, rfl, rfl⟩

/-- A block without shocks counts and reports nothing. -/
theorem EarWork.run_quiet {w : EarWork} {ms : List Sample} (h : ∀ m ∈ ms, ¬ Shock volume level m) :
    (ms.foldl (EarWork.step volume level release) w).limiter.shocks = w.limiter.shocks ∧
    (ms.foldl (EarWork.step volume level release) w).limiter.holdoff = w.limiter.holdoff ∧
    (ms.foldl (EarWork.step volume level release) w).shocks = w.shocks := by
  induction ms generalizing w with
  | nil => exact ⟨rfl, rfl, rfl⟩
  | cons m ms ih =>
    obtain ⟨count, holdoff, shocks⟩ := EarWork.step_quiet (release := release) (w := w) (h m List.mem_cons_self)
    rw [List.foldl_cons, ← count, ← holdoff, ← shocks]
    exact ih fun x mem => h x (List.mem_cons_of_mem _ mem)

/-- Every shock is counted (R73). -/
theorem EarWork.run_count {w : EarWork} {ms : List Sample} (h : ∃ m ∈ ms, Shock volume level m) :
    (ms.foldl (EarWork.step volume level release) w).limiter.shocks =
      min 65535 (w.limiter.shocks + ms.countP fun m => 2 * level ≤ (scale m volume).toInt.natAbs) := by
  induction ms generalizing w with
  | nil => exact absurd h fun ⟨m, mem, _⟩ => nomatch mem
  | cons m ms ih =>
    rw [List.foldl_cons, List.countP_cons]
    have counted : (decide (2 * level ≤ (scale m volume).toInt.natAbs) = true) ↔ Shock volume level m := decide_eq_true_iff
    by_cases rest : ∃ m ∈ ms, Shock volume level m
    · rw [ih rest]
      by_cases shock : Shock volume level m
      · rw [(EarWork.step_shock shock).1, if_pos (counted.2 shock)]
        omega
      · rw [(EarWork.step_quiet shock).1, if_neg (counted.not.2 shock), add_zero]
    · have quiet : ∀ x ∈ ms, ¬ Shock volume level x := fun x mem k => rest ⟨x, mem, k⟩
      have shock : Shock volume level m := by
        obtain ⟨x, mem, k⟩ := h
        exact (List.mem_cons.1 mem).elim (fun e => e ▸ k) fun mem => absurd k (quiet x mem)
      have none : (ms.countP fun m => 2 * level ≤ (scale m volume).toInt.natAbs) = 0 := List.countP_eq_zero.2 fun x mem =>
        decide_eq_true_iff.not.2 (quiet x mem)
      rw [(EarWork.run_quiet quiet).1, (EarWork.step_shock shock).1, if_pos (counted.2 shock), none]

/-- While the holdoff count runs no shock is reported and the count stands (R74). -/
theorem EarWork.run_heldOff {w : EarWork} (ms : List Sample) (h : w.limiter.holdoff ≠ 0) :
    (ms.foldl (EarWork.step volume level release) w).limiter.holdoff = w.limiter.holdoff ∧
    (ms.foldl (EarWork.step volume level release) w).shocks = w.shocks := by
  induction ms generalizing w with
  | nil => exact ⟨rfl, rfl⟩
  | cons m ms ih =>
    have step : (w.step volume level release m).limiter.holdoff = w.limiter.holdoff ∧ (w.step volume level release m).shocks = w.shocks := by
      by_cases shock : Shock volume level m
      · obtain ⟨_, holdoff, shocks⟩ := EarWork.step_shock (release := release) (w := w) shock
        exact ⟨holdoff.trans (if_neg h), shocks.trans (if_neg h)⟩
      · exact (EarWork.step_quiet shock).2
    obtain ⟨holdoff, shocks⟩ := ih (w := w.step volume level release m) (by rw [step.1]; exact h)
    exact ⟨holdoff.trans step.1, shocks.trans step.2⟩

/-- The first shock of a block with the holdoff count at 0 is the one reported (R73, R74). -/
theorem EarWork.run_first {w : EarWork} {before after : List Sample} {m : Sample} (quiet : ∀ x ∈ before, ¬ Shock volume level x)
    (shock : Shock volume level m) (free : w.limiter.holdoff = 0) :
    ((before ++ m :: after).foldl (EarWork.step volume level release) w).limiter.holdoff = 250 ∧
    ((before ++ m :: after).foldl (EarWork.step volume level release) w).shocks =
      ((scale m volume).toInt.natAbs, min 65535 (w.limiter.shocks + 1)) :: w.shocks := by
  rw [List.foldl_append, List.foldl_cons]
  obtain ⟨count, holdoff, shocks⟩ := EarWork.run_quiet (release := release) (w := w) quiet
  generalize before.foldl (EarWork.step volume level release) w = u at *
  obtain ⟨_, first, reported⟩ := EarWork.step_shock (release := release) (w := u) shock
  rw [holdoff, if_pos free] at first reported
  obtain ⟨kept, none⟩ := EarWork.run_heldOff (volume := volume) (level := level) (release := release) after
    (w := u.step volume level release m) (by rw [first]; norm_num)
  rw [kept, none, first, reported, count, shocks]
  exact ⟨rfl, rfl⟩

/-- The gain of the limiter as sample i comes to it. -/
def gainAt (volume level release : Nat) (w : EarWork) (mix : Nat → Sample) (i : Nat) : Nat :=
  (((List.range i).map mix).foldl (EarWork.step volume level release) w).limiter.gain

theorem gainAt_succ (w : EarWork) (mix : Nat → Sample) (i : Nat) :
    gainAt volume level release w mix (i + 1) = (limit (gainAt volume level release w mix i) level release (scale (mix i) volume)).2 := by
  unfold gainAt
  rw [List.range_succ, List.map_append, List.foldl_append]
  exact (EarWork.step_out _ _).2

/-- The block put out, sample by sample. -/
theorem EarWork.run_out (w : EarWork) (mix : Nat → Sample) (n : Nat) :
    (((List.range n).map mix).foldl (EarWork.step volume level release) w).out.reverse =
      w.out.reverse ++ (List.range n).map fun i => (limit (gainAt volume level release w mix i) level release (scale (mix i) volume)).1 := by
  induction n with
  | zero => exact (List.append_nil _).symm
  | succ n ih =>
    rw [List.range_succ, List.map_append, List.map_append, List.foldl_append, ← List.append_assoc, ← ih]
    show (EarWork.step volume level release _ (mix n)).out.reverse = _
    rw [(EarWork.step_out _ _).1, List.reverse_cons]
    rfl

end Limiter

section Downlink
variable {b : Elastic} {block : Block}

theorem Elastic.append_eq (b : Elastic) {xs : List Sample} (h : xs ≠ []) : b.append xs = { b with
    samples := b.samples ++ xs.take (192 - b.samples.length)
    overruns := if 192 < b.samples.length + xs.length then min 65535 (b.overruns + 1) else b.overruns } := by
  have some_ := List.length_pos_iff.2 h
  unfold Elastic.append
  dsimp only
  by_cases fits : xs.length ≤ 192 - b.samples.length
  · rw [if_pos (show xs.length ≤ Config.elasticPlaces - b.samples.length from fits), List.take_of_length_le fits, if_neg (by omega)]
  · rw [if_neg (show ¬ xs.length ≤ Config.elasticPlaces - b.samples.length from fits), if_pos (by omega)]
    rfl

/-- The write of an EAR block by the fill of the buffer (R14). -/
theorem Elastic.writeEar_full (h : 128 ≤ b.samples.length) :
    b.writeEar block = { b with slips := min 65535 (b.slips + 1) }.append block.dropLast :=
  if_pos (show Config.slipHigh ≤ b.samples.length + 32 from Nat.add_le_add_right h 32)

theorem Elastic.writeEar_empty (h : b.samples = []) :
    b.writeEar block = { b with slips := min 65535 (b.slips + 1) }.append (block ++ (block.getLast?).toList) := by
  unfold Elastic.writeEar
  dsimp only
  rw [h]
  rfl

theorem Elastic.writeEar_level (low : 1 ≤ b.samples.length) (high : b.samples.length ≤ 127) : b.writeEar block = b.append block :=
  (if_neg (show ¬ Config.slipHigh ≤ b.samples.length + 32 from fun k => absurd (show 160 ≤ b.samples.length + 32 from k) (by omega))).trans
    (if_neg (show ¬ b.samples.length + 32 ≤ Config.slipLow from fun k => absurd (show b.samples.length + 32 ≤ 32 from k) (by omega)))

end Downlink

section Ear
variable {s : State} {p : PosId}

/-- The mix samples of EAR(p) in the block (R68). -/
def State.earMix (s : State) (p : PosId) (i : Nat) : Sample := mixedAt (tget s.ears p) (s.earTarget p) s.sourceBlock i

/-- The ear at work before the block's first sample: the holdoff count has fallen by 1 (R74). -/
def State.earStart (s : State) (p : PosId) : EarWork := ⟨[], { (s.pos p).limiter with holdoff := (s.pos p).limiter.holdoff - 1 }, []⟩

/-- The ear at work after the first n samples of the block. -/
def State.earWork (s : State) (p : PosId) (n : Nat) : EarWork := ((List.range n).map (s.earMix p)).foldl
  (EarWork.step (s.pos p).earVolume (s.pos p).config.limiterLevel (s.pos p).config.limiterRelease) (s.earStart p)

/-- The reports of a block's shocks, oldest first, on the position's ear written and its feeds ramped. -/
theorem State.earBlock_live (live : (s.pos p).port.state = .live) : s.earBlock p =
    (s.earWork p 64).shocks.reverse.foldl (fun t k => t.report (.acousticShock p k.1 k.2))
      ({ s with ears := tset s.ears p (rampedFeeds (tget s.ears p) (s.earTarget p)) }.modPos p fun y => { y with
        limiter := (s.earWork p 64).limiter
        port := { y.port with downlink := y.port.downlink.writeEar (s.earWork p 64).out.reverse } }) := by
  have zero : ∀ f : Feed, f.fading = true → s.earTarget p f = 0 := fun f fading => State.earTarget_zero p (.inl fading)
  have mixed : (mixRun Config.blockSamples (s.earLanes p)).1 = (List.range 64).map (s.earMix p) := List.ext_getElem? fun i => by
    by_cases within : i < 64
    · refine (mixRun_lanesOf zero within).trans ?_
      rw [List.getElem?_map, List.getElem?_range within]
      rfl
    · rw [List.getElem?_eq_none (by rw [mixRun_length]; exact not_lt.1 within), List.getElem?_eq_none (by
        rw [List.length_map, List.length_range]
        exact not_lt.1 within)]
  unfold State.earBlock
  dsimp only
  rw [if_pos (show s.isLive p = true from decide_eq_true live), mixed,
    show (mixRun Config.blockSamples (s.earLanes p)).2.map Lane.feed = _ from mixRun_lanesOf_feeds zero]
  rfl

theorem State.earBlock_other (other : (s.pos p).port.state ≠ .live) : s.earBlock p =
    { s with ears := tset s.ears p (rampedFeeds (tget s.ears p) (s.earTarget p)) }.modPos p fun y => { y with
      limiter := { y.limiter with gain := 16384, holdoff := (s.pos p).limiter.holdoff - 1 } } := by
  unfold State.earBlock
  dsimp only
  rw [if_neg (show ¬ s.isLive p = true from fun live => other (of_decide_eq_true live)),
    show (mixRun Config.blockSamples (s.earLanes p)).2.map Lane.feed = _ from
      mixRun_lanesOf_feeds fun f fading => State.earTarget_zero p (.inl fading)]
  rfl

/-- Reports reach nothing but the link. -/
theorem State.foldl_report {α : Type} (made : α → ReportBody) (ks : List α) (t : State) :
    ks.foldl (fun t k => t.report (made k)) t = { t with link := (ks.foldl (fun t k => t.report (made k)) t).link } := by
  induction ks generalizing t with
  | nil => rfl
  | cons k ks ih =>
    rw [List.foldl_cons, ih]
    rfl

/-- A block of the ear without a shock makes no report; the first shock of another, with the holdoff count at 0 or 1, makes one. -/
theorem State.earWork_quiet (quiet : ∀ i, i < 64 → ¬ Shock (s.pos p).earVolume (s.pos p).config.limiterLevel (s.earMix p i)) :
    (s.earWork p 64).limiter.shocks = (s.pos p).limiter.shocks ∧ (s.earWork p 64).limiter.holdoff = (s.pos p).limiter.holdoff - 1 ∧
      (s.earWork p 64).shocks = [] :=
  EarWork.run_quiet fun m mem => by
    obtain ⟨i, within, rfl⟩ := List.mem_map.1 mem
    exact quiet i (List.mem_range.1 within)

theorem State.earWork_first {i : Nat} (within : i < 64) (shock : Shock (s.pos p).earVolume (s.pos p).config.limiterLevel (s.earMix p i))
    (quiet : ∀ j, j < i → ¬ Shock (s.pos p).earVolume (s.pos p).config.limiterLevel (s.earMix p j)) :
    (s.earWork p 64).limiter.shocks = min 65535 ((s.pos p).limiter.shocks + ((List.range 64).filter fun j =>
      2 * (s.pos p).config.limiterLevel ≤ (scale (s.earMix p j) (s.pos p).earVolume).toInt.natAbs).length) ∧
    ((s.pos p).limiter.holdoff ≤ 1 → (s.earWork p 64).limiter.holdoff = 250 ∧
      (s.earWork p 64).shocks = [((scale (s.earMix p i) (s.pos p).earVolume).toInt.natAbs, min 65535 ((s.pos p).limiter.shocks + 1))]) ∧
    (1 < (s.pos p).limiter.holdoff → (s.earWork p 64).limiter.holdoff = (s.pos p).limiter.holdoff - 1 ∧ (s.earWork p 64).shocks = []) := by
  refine ⟨?_, fun free => ?_, fun held => EarWork.run_heldOff _ (show (s.pos p).limiter.holdoff - 1 ≠ 0 by omega)⟩
  · refine (EarWork.run_count ⟨_, List.mem_map.2 ⟨i, List.mem_range.2 within, rfl⟩, shock⟩).trans ?_
    rw [List.countP_map, List.countP_eq_length_filter]
    rfl
  · have parts : (List.range 64).map (s.earMix p) = (List.range i).map (s.earMix p) ++ s.earMix p i ::
        ((List.range (63 - i)).map fun k => s.earMix p (i + 1 + k)) := by
      rw [show (64 : Nat) = i + 1 + (63 - i) by omega, List.range_add, List.range_succ, List.map_append, List.map_append, List.map_map,
        List.append_assoc]
      rfl
    unfold State.earWork
    rw [parts]
    refine EarWork.run_first (fun x mem => ?_) shock (show (s.pos p).limiter.holdoff - 1 = 0 by omega)
    obtain ⟨j, below, rfl⟩ := List.mem_map.1 mem
    exact quiet j (List.mem_range.1 below)

end Ear

/-- The write of the ear's block of 64 samples into the downlink buffer, by its fill (R14). -/
theorem Elastic.writeEar_written (b : Elastic) {block : Block} (length : block.length = 64) : ∃ (written : List Sample) (slips : Nat),
    (128 ≤ b.samples.length → written = block.take 63 ∧ slips = min 65535 (b.slips + 1)) ∧
    (b.samples = [] → written = block ++ [block.getD 63 0] ∧ slips = min 65535 (b.slips + 1)) ∧
    (1 ≤ b.samples.length → b.samples.length ≤ 127 → written = block ∧ slips = b.slips) ∧
    b.writeEar block = {
      samples := b.samples ++ written.take (192 - b.samples.length)
      slips := slips
      underruns := b.underruns
      overruns := if 192 < b.samples.length + written.length then min 65535 (b.overruns + 1) else b.overruns } := by
  have some_ : ∀ xs : List Sample, 0 < xs.length → xs ≠ [] := fun xs => List.length_pos_iff.1
  obtain empty | level | full : b.samples.length = 0 ∨ (1 ≤ b.samples.length ∧ b.samples.length ≤ 127) ∨ 128 ≤ b.samples.length := by omega
  · have last : (block.getLast?).toList = [block.getD 63 0] := by
      rw [List.getLast?_eq_getElem?, length, List.getElem?_eq_getElem (by omega), List.getD_eq_getElem _ _ (by omega)]
      rfl
    refine ⟨block ++ [block.getD 63 0], min 65535 (b.slips + 1), fun k => by omega, fun _ => ⟨rfl, rfl⟩, fun k => by omega, ?_⟩
    rw [Elastic.writeEar_empty (List.length_eq_zero_iff.1 empty), last, Elastic.append_eq _ (by simp)]
  · refine ⟨block, b.slips, fun k => by omega, fun k => by rw [k] at level; exact absurd level.1 (by norm_num), fun _ _ => ⟨rfl, rfl⟩, ?_⟩
    rw [Elastic.writeEar_level level.1 level.2, Elastic.append_eq _ (some_ _ (by omega))]
  · refine ⟨block.take 63, min 65535 (b.slips + 1), fun _ => ⟨rfl, rfl⟩, fun k => by rw [k] at full; exact absurd full (by norm_num),
      fun _ k => by omega, ?_⟩
    rw [Elastic.writeEar_full full, List.dropLast_eq_take, length, Elastic.append_eq _ (some_ _ (by rw [List.length_take]; omega))]

/-- Settles O24: the ear's work sample by sample (`gainAt`, `EarWork.run_out`), its shocks (`State.earWork_first`) and its write. -/
theorem earBlock : Obligations.EarBlock := by
  intro s p
  refine ⟨s.earBlock p, rfl, ?_⟩
  have targets : (∀ f : Feed, (f.fading = true ∨ (∃ q, f.source = .mic q ∧ (s.pos q).mute = true)) → s.earTarget p f = 0) ∧
      (∀ f : Feed, f.fading = false → (∀ q, f.source = .mic q → (s.pos q).mute = false) →
        ((f.role = .caller ∧ ∃ g ∈ tget s.ears p, g.role = .whisper ∧ g.fading = false) →
          s.earTarget p f = (f.target * (s.pos p).config.whisperDuck + 8192) / 16384) ∧
        ((f.role ≠ .caller ∨ ∀ g ∈ tget s.ears p, g.role = .whisper → g.fading = true) → s.earTarget p f = f.target)) := by
    refine ⟨fun f h => State.earTarget_zero p (h.imp_right (s.muted_iff f).2), fun f shown unmuted => ⟨fun ducked => ?_, fun h => ?_⟩⟩
    · rw [State.earTarget_heard p shown (State.muted_eq_false unmuted), if_pos ducked]
      rfl
    · rw [State.earTarget_heard p shown (State.muted_eq_false unmuted), if_neg (not_ducked h)]
  obtain ⟨zero, heard⟩ := targets
  by_cases live : (s.pos p).port.state = .live
  · have out := EarWork.run_out (volume := (s.pos p).earVolume) (level := (s.pos p).config.limiterLevel)
      (release := (s.pos p).config.limiterRelease) (s.earStart p) (s.earMix p) 64
    obtain ⟨written, slips, full, empty, level, write⟩ := (s.pos p).port.downlink.writeEar_written
      (block := (s.earWork p 64).out.reverse) (by
        rw [show (s.earWork p 64).out.reverse = _ from out]
        simp [State.earStart])
    have block : (s.earWork p 64).out.reverse = (List.range 64).map fun i => (limit (gainAt (s.pos p).earVolume (s.pos p).config.limiterLevel
        (s.pos p).config.limiterRelease (s.earStart p) (s.earMix p) i) (s.pos p).config.limiterLevel (s.pos p).config.limiterRelease
        (scale (s.earMix p i) (s.pos p).earVolume)).1 := out
    have goes := s.earBlock_live live
    generalize eu : ({ s with ears := tset s.ears p (rampedFeeds (tget s.ears p) (s.earTarget p)) }.modPos p fun y => { y with
        limiter := (s.earWork p 64).limiter
        port := { y.port with downlink := y.port.downlink.writeEar (s.earWork p 64).out.reverse } }) = u at goes
    have frame : s.earBlock p = { u with link := (s.earBlock p).link } := by
      rw [goes]
      exact State.foldl_report _ _ u
    have same : ∀ q, (s.earBlock p).pos q = u.pos q := fun q => by
      rw [frame]
      rfl
    have ears : (s.earBlock p).ears = u.ears := by rw [frame]
    have silent : (s.earWork p 64).shocks = [] → (s.earBlock p).link = s.link := fun none => by
      rw [goes, none, ← eu]
      rfl
    have alarmed : ∀ k, (s.earWork p 64).shocks = [k] → (s.earBlock p).link = (s.report (.acousticShock p k.1 k.2)).link := fun k one => by
      rw [goes, one, ← eu]
      rfl
    have pos : u.pos p = { s.pos p with
        limiter := (s.earWork p 64).limiter
        port := { (s.pos p).port with downlink := (s.pos p).port.downlink.writeEar (s.earWork p 64).out.reverse } } := by
      rw [← eu]
      exact State.pos_modPos_same _ _ _
    refine ⟨fun q other => (same q).trans (by rw [← eu]; exact State.pos_modPos_ne _ _ _ _ (Ne.symm other)),
      fun q other => by rw [ears, ← eu]; exact tget_tset_ne _ _ _ _ (Ne.symm other), by rw [ears, ← eu]; exact tget_tset_same _ _ _, zero, heard,
      fun _ => ?_, fun k => absurd live k⟩
    refine ⟨(s.earWork p 64).out.reverse, gainAt (s.pos p).earVolume (s.pos p).config.limiterLevel (s.pos p).config.limiterRelease (s.earStart p)
      (s.earMix p), fun i => scale (s.earMix p i) (s.pos p).earVolume, by rw [block]; simp, fun y mem => ?_, rfl, fun i within => ?_,
      by rw [same, pos]; rfl, fun quiet => ?_, fun i within shock before => ?_, ⟨written, slips, full, empty, level, by rw [same, pos, write]⟩, ?_⟩
    · rw [block] at mem
      obtain ⟨i, _, rfl⟩ := List.mem_map.1 mem
      exact limit_natAbs_le _ _ _
    · have put := congrArg (fun l => l[i]?) block
      rw [List.getElem?_map, List.getElem?_range within, Option.map_some] at put
      rw [put, gainAt_succ]
      refine ⟨rfl, fun within => ?_, fun beyond => ?_⟩
      · rw [limit_within within]
        exact ⟨rfl, rfl⟩
      · rw [limit_beyond beyond]
        exact ⟨rfl, rfl⟩
    · obtain ⟨shocks, holdoff, none⟩ := State.earWork_quiet fun i within => not_le.2 (quiet i within)
      exact ⟨by rw [same, pos]; exact shocks, by rw [same, pos]; exact holdoff, silent none⟩
    · obtain ⟨count, free, held⟩ := State.earWork_first within shock fun j below => not_le.2 (before j below)
      refine ⟨by rw [same, pos]; exact count, fun k => ?_, fun k => ?_⟩
      · obtain ⟨holdoff, one⟩ := free k
        exact ⟨by rw [same, pos]; exact holdoff, alarmed _ one⟩
      · obtain ⟨holdoff, none⟩ := held k
        exact ⟨by rw [same, pos]; exact holdoff, silent none⟩
    · rw [frame, ← eu]
      rfl
  · have goes := s.earBlock_other live
    generalize s.earBlock p = t at *
    subst goes
    exact ⟨fun q other => State.pos_modPos_ne _ _ _ _ (Ne.symm other), fun q other => tget_tset_ne _ _ _ _ (Ne.symm other),
      tget_tset_same _ _ _, zero, heard, fun k => absurd k live, fun _ => ⟨State.pos_modPos_same _ _ _, rfl⟩⟩

end Sys2Proof.Machine
end

section
set_option Elab.async false
/-! ## The canceller's block event (R98 to R113) -/

namespace Sys2Proof.Machine

/-! ### Sample by sample -/

/-- The canceller after the first i samples of a block. -/
def EcWork.after (b : BlockPlan) (stream : List Sample) (rx : List Sample) (w : EcWork) : Nat → EcWork
  | 0 => w
  | i + 1 => (EcWork.after b stream rx w i).step b (rx.getD i 0) ((stream.drop (rx.length - 1 - i)).take b.taps)

section Samples
variable {b : BlockPlan} {stream rx : List Sample} {w : EcWork}

/-- A run over a block is a run over what is left of it from any sample on. -/
theorem EcWork.run_after {i : Nat} (h : i ≤ rx.length) : EcWork.run b stream (EcWork.after b stream rx w i) (rx.drop i) = EcWork.run b stream w rx := by
  induction i with
  | zero => rfl
  | succ i ih =>
    rw [← ih (Nat.le_of_succ_le h), List.drop_eq_getElem_cons h, EcWork.run, List.length_drop]
    congr 1
    show EcWork.step _ _ _ _ = _
    rw [List.getD_eq_getElem _ _ h, show rx.length - (i + 1) = rx.length - 1 - i by omega]

theorem EcWork.run_eq_after : EcWork.run b stream w rx = EcWork.after b stream rx w rx.length := by
  rw [← EcWork.run_after le_rfl, List.drop_length]
  rfl

/-- The error of sample i: the sample itself where no filter runs (R106). -/
def EcWork.errorAt (b : BlockPlan) (stream rx : List Sample) (w : EcWork) (i : Nat) : Sample :=
  if b.filters then sat16 ((rx.getD i 0).toInt - (estimate (EcWork.after b stream rx w i).taps
    ((stream.drop (rx.length - 1 - i)).take b.taps)).toInt) else rx.getD i 0

theorem EcWork.after_errors (n : Nat) : (EcWork.after b stream rx w n).errors.reverse = w.errors.reverse ++ (List.range n).map (EcWork.errorAt b stream rx w) := by
  induction n with
  | zero => exact (List.append_nil _).symm
  | succ n ih =>
    rw [List.range_succ, List.map_append, ← List.append_assoc, ← ih]
    exact List.reverse_cons

theorem EcWork.after_out (n : Nat) : (EcWork.after b stream rx w n).out.reverse =
    w.out.reverse ++ (List.range n).map fun i => scale (EcWork.errorAt b stream rx w i) (EcWork.after b stream rx w (i + 1)).gain := by
  induction n with
  | zero => exact (List.append_nil _).symm
  | succ n ih =>
    rw [List.range_succ, List.map_append, ← List.append_assoc, ← ih]
    exact List.reverse_cons

theorem EcWork.after_gain (n : Nat) : (EcWork.after b stream rx w n).gain = rampTo w.gain b.target 64 n := by
  induction n with
  | zero => rfl
  | succ n ih =>
    show stepToward (EcWork.after b stream rx w n).gain b.target 64 = _
    rw [ih]
    exact (Function.iterate_succ_apply' (fun x => stepToward x b.target 64) n w.gain).symm

/-- Coefficients that may not adapt stand. -/
theorem EcWork.after_taps (h : b.adapts = false) (n : Nat) : (EcWork.after b stream rx w n).taps = w.taps := by
  induction n with
  | zero => rfl
  | succ n ih =>
    refine Eq.trans ?_ ih
    exact if_neg fun k => Bool.false_ne_true (h.symm.trans k.1)

end Samples

/-- A gain of 1 leaves a sample as it is. -/
theorem scale_unity (y : Sample) : scale y 16384 = y := by
  have low := BitVec.le_toInt y
  have high := BitVec.toInt_lt (x := y)
  unfold scale
  rw [show round14 (y.toInt * ((16384 : Nat) : Int)) = y.toInt by unfold round14; omega]
  refine BitVec.eq_of_toInt_eq ?_
  rw [sat16_toInt]
  unfold sat16Int
  norm_num at low high
  omega

/-! ### The parts of the event -/

section Event
variable {s : State} {l : LegId}

/-- The canceller inside the block, after all its samples. -/
def State.ecWork (s : State) (l : LegId) (n : Nat) : EcWork :=
  EcWork.after (s.blockPlan l ((s.leg l).ec.judge (tget s.highway.receive l) s.highway.valid)) (s.leg l).ec.stream (tget s.highway.receive l)
    ⟨(s.leg l).ec.taps, (s.leg l).ec.nlpGain, [], []⟩ n

/-- The error of sample i in the block. -/
def State.ecError (s : State) (l : LegId) (i : Nat) : Sample :=
  EcWork.errorAt (s.blockPlan l ((s.leg l).ec.judge (tget s.highway.receive l) s.highway.valid)) (s.leg l).ec.stream (tget s.highway.receive l)
    ⟨(s.leg l).ec.taps, (s.leg l).ec.nlpGain, [], []⟩ i

/-- The canceller with its counts judged and its samples worked, before the block is accounted. -/
def State.ecWorked (s : State) (l : LegId) : Canceller :=
  { (s.leg l).ec.countDown (tget s.highway.receive l) s.highway.valid with
    taps := (s.ecWork l (tget s.highway.receive l).length).taps, nlpGain := (s.ecWork l (tget s.highway.receive l).length).gain }

/-- The canceller after the block, and what it reports of itself. -/
def State.ecAfter (s : State) (l : LegId) : Canceller × Option EcNews :=
  (s.ecWorked l).account (tget s.highway.receive l) ((List.range (tget s.highway.receive l).length).map (s.ecError l)) s.highway.valid
    ((s.leg l).ec.judge (tget s.highway.receive l) s.highway.valid)

/-- RX(l) for the period (R103). -/
def State.ecOut (s : State) (l : LegId) : Block :=
  if s.highway.valid then (List.range (tget s.highway.receive l).length).map fun i => scale (s.ecError l i) (s.ecWork l (i + 1)).gain
  else zeroBlock

theorem State.ecBlock_eq (s : State) (l : LegId) : s.ecBlock l =
    (({ s with sources := { s.sources with rx := tset s.sources.rx l (s.ecOut l) } }.modEc l fun _ => (s.ecAfter l).1).ecNews l (s.ecAfter l).2) := by
  unfold State.ecBlock State.ecAfter State.ecOut State.ecWorked
  dsimp only
  rw [EcWork.run_eq_after, EcWork.after_errors, EcWork.after_out]
  rfl

theorem State.ecNews_leg (s : State) (l m : LegId) (news : Option EcNews) : (s.ecNews l news).leg m = s.leg m := by
  unfold State.ecNews
  split <;> rfl

theorem State.ecNews_frame (s : State) (l : LegId) (news : Option EcNews) : s.ecNews l news = { s with link := (s.ecNews l news).link } := by
  unfold State.ecNews
  split <;> rfl

theorem State.ecBlock_leg : (s.ecBlock l).leg l = { s.leg l with ec := (s.ecAfter l).1 } := by
  rw [State.ecBlock_eq, State.ecNews_leg]
  exact State.leg_modLeg_same _ _ _

theorem State.ecBlock_leg_ne {m : LegId} (other : m ≠ l) : (s.ecBlock l).leg m = s.leg m := by
  rw [State.ecBlock_eq, State.ecNews_leg]
  exact State.leg_modLeg_ne _ _ _ _ (Ne.symm other)

theorem State.ecBlock_sources : (s.ecBlock l).sources = { s.sources with rx := tset s.sources.rx l (s.ecOut l) } := by
  rw [State.ecBlock_eq, State.ecNews_frame]
  rfl

theorem State.ecBlock_frame : s.ecBlock l =
    { s with sources := { s.sources with rx := (s.ecBlock l).sources.rx }, legs := (s.ecBlock l).legs, link := (s.ecBlock l).link } := by
  have sources := State.ecBlock_sources (s := s) (l := l)
  rw [State.ecBlock_eq, State.ecNews_frame]
  rfl

/-- A block without news makes no report; a change of state is reported with the state and D entered. -/
theorem State.ecBlock_silent (none : (s.ecAfter l).2 = .none) : (s.ecBlock l).link = s.link := by
  rw [State.ecBlock_eq, none]
  rfl

theorem State.ecBlock_state (news : (s.ecAfter l).2 = some .state) :
    (s.ecBlock l).link = (s.report (.ecState l (s.ecAfter l).1.state (s.ecAfter l).1.bulkDelay)).link := by
  rw [State.ecBlock_eq, news]
  unfold State.ecNews
  dsimp only
  rw [show ∀ u : State, u.modEc l (fun _ => (s.ecAfter l).1) = u.modLeg l fun x => { x with ec := (s.ecAfter l).1 } from fun _ => rfl,
    State.leg_modLeg_same]
  rfl

theorem State.ecBlock_timeout (news : (s.ecAfter l).2 = some .timeout) :
    (s.ecBlock l).link = (s.report (.ecSearchTimeout l (s.ecAfter l).1.bulkDelay)).link := by
  rw [State.ecBlock_eq, news]
  unfold State.ecNews
  dsimp only
  rw [show ∀ u : State, u.modEc l (fun _ => (s.ecAfter l).1) = u.modLeg l fun x => { x with ec := (s.ecAfter l).1 } from fun _ => rfl,
    State.leg_modLeg_same]
  rfl

end Event

/-! ### The accounting (R104, R105, R109 to R111) -/

/-- What the accounting of a block leaves alone. -/
structure Canceller.SameWork (c d : Canceller) : Prop where
  segments : d.segments = c.segments
  taps : d.taps = c.taps
  nlpGain : d.nlpGain = c.nlpGain
  gap : d.gap = c.gap
  settle : d.settle = c.settle
  doubleTalk : d.doubleTalk = c.doubleTalk
  history : d.history = c.history

theorem Canceller.accountSearch_sameWork (c : Canceller) (rx : Block) (counted : Bool) : c.SameWork (c.accountSearch rx counted).1 := by
  unfold Canceller.accountSearch
  dsimp only
  split
  · exact ⟨rfl, rfl, rfl, rfl, rfl, rfl, rfl⟩
  · split
    · exact ⟨rfl, rfl, rfl, rfl, rfl, rfl, rfl⟩
    · split <;> exact ⟨rfl, rfl, rfl, rfl, rfl, rfl, rfl⟩

theorem Canceller.judgeWindow_sameWork (c : Canceller) (w : ErleWindow) : c.SameWork (c.judgeWindow w).1 := by
  unfold Canceller.judgeWindow
  split
  · exact ⟨rfl, rfl, rfl, rfl, rfl, rfl, rfl⟩
  · split
    · split
      · split <;> exact ⟨rfl, rfl, rfl, rfl, rfl, rfl, rfl⟩
      · exact ⟨rfl, rfl, rfl, rfl, rfl, rfl, rfl⟩
    · split
      · split <;> exact ⟨rfl, rfl, rfl, rfl, rfl, rfl, rfl⟩
      · exact ⟨rfl, rfl, rfl, rfl, rfl, rfl, rfl⟩
    all_goals exact ⟨rfl, rfl, rfl, rfl, rfl, rfl, rfl⟩

theorem Canceller.accountErle_sameWork (c : Canceller) (rx errors : Block) (qualifies : Bool) :
    c.SameWork (c.accountErle rx errors qualifies).1 := by
  unfold Canceller.accountErle
  dsimp only
  split
  · exact ⟨rfl, rfl, rfl, rfl, rfl, rfl, rfl⟩
  · obtain ⟨segments, taps, nlpGain, gap, settle, doubleTalk, history⟩ := Canceller.judgeWindow_sameWork { c with
      erle := .clear, windows := sat32Count c.windows 1, stats := some ⟨(c.erle.add rx errors qualifies).srx, (c.erle.add rx errors qualifies).se,
        (c.erle.add rx errors qualifies).qualifying, sat32Count c.windows 1⟩ } (c.erle.add rx errors qualifies)
    exact ⟨segments, taps, nlpGain, gap, settle, doubleTalk, history⟩

theorem Canceller.account_sameWork (c : Canceller) (rx errors : Block) (valid : Bool) (f : Findings) :
    c.SameWork (c.account rx errors valid f).1 := by
  unfold Canceller.account
  split
  · exact ⟨rfl, rfl, rfl, rfl, rfl, rfl, rfl⟩
  · exact c.accountSearch_sameWork _ _
  all_goals exact c.accountErle_sameWork _ _ _

/-! ### The findings (R99 to R102) -/

theorem Canceller.judge_doubleTalk {c : Canceller} {rx : Block} {valid : Bool} : (c.judge rx valid).doubleTalk = false ↔ NoDoubleTalk c rx := by
  unfold Canceller.judge Canceller.detects NoDoubleTalk
  simp only [Bool.and_eq_false_iff, Bool.or_eq_false_iff, decide_eq_false_iff_not, not_lt, Nat.le_zero]
  tauto

theorem State.blockPlan_adapts {s : State} {l : LegId} {rx : Block} :
    (s.blockPlan l ((s.leg l).ec.judge rx s.highway.valid)).adapts = true ↔ EcAdapts s (s.leg l).ec rx := by
  have talk : ((s.leg l).ec.judge rx s.highway.valid).doubleTalk = false ↔ NoDoubleTalk (s.leg l).ec rx := Canceller.judge_doubleTalk
  have settle : ((s.leg l).ec.judge rx s.highway.valid).settle = false ↔ (s.leg l).ec.settle = 0 := by
    simp only [Canceller.judge, decide_eq_false_iff_not, not_lt, Nat.le_zero]
  have gap : ((s.leg l).ec.judge rx s.highway.valid).gap = false ↔ s.highway.valid = true ∧ (s.leg l).ec.gap = 0 := by
    simp only [Canceller.judge, Bool.or_eq_false_iff, Bool.not_eq_false', decide_eq_false_iff_not, not_lt, Nat.le_zero]
  unfold State.blockPlan EcAdapts
  simp only [Bool.and_eq_true, Bool.or_eq_true, decide_eq_true_iff, Bool.not_eq_true', talk, settle, gap]
  tauto

theorem State.blockPlan_filters (s : State) (l : LegId) (f : Findings) : (s.blockPlan l f).filters = (s.leg l).ec.filters := rfl

theorem Canceller.filters_iff {c : Canceller} : c.filters = true ↔ c.state = .converging ∨ c.state = .converged ∨ c.state = .frozen := by
  unfold Canceller.filters
  simp only [Bool.or_eq_true, decide_eq_true_iff, or_assoc]

/-- The error and the update of each sample of the block (R106 to R108). -/
theorem State.ecSample {s : State} {l : LegId} {i : Nat} {y : Sample} (within : (tget s.highway.receive l)[i]? = some y) :
    EcSample (s.leg l).ec (s.blockPlan l ((s.leg l).ec.judge (tget s.highway.receive l) s.highway.valid)).adapts
      ((s.leg l).ec.span (tget s.highway.receive l).length i) (s.ecWork l i).taps y (s.ecError l i) (s.ecWork l (i + 1)).taps := by
  have sample : (tget s.highway.receive l).getD i 0 = y := by rw [List.getD_eq_getElem?_getD, within]; rfl
  have sums : ∀ xs : List Int, xs.foldl (· + ·) 0 = xs.sum := fun xs => by
    rw [foldl_add_eq (fun x => x), zero_add, List.map_id']
  refine ⟨?_, rfl⟩
  unfold State.ecError EcWork.errorAt
  rw [sample]
  rw [State.blockPlan_filters]
  by_cases runs : (s.leg l).ec.filters = true
  · rw [if_pos runs, if_pos (Canceller.filters_iff.1 runs)]
    unfold estimate
    rw [sums]
    rfl
  · rw [if_neg runs, if_neg (Canceller.filters_iff.not.1 runs)]

/-! ### The NLP target (R112) -/

theorem State.sendSpeaking_of_reference {s : State} {l : LegId} (h : (s.leg l).state = .opened ∨ (s.leg l).state = .held ∨ (s.leg l).state = .connecting)
    (active : Bool) : s.sendSpeaking l active = active := by
  unfold State.sendSpeaking
  obtain e | e | e := h <;> rw [e]

/-- An ACTIVE leg's send speaks when its agent talks, or a supervisor in BARGE (R112). -/
theorem State.sendSpeaking_of_active {s : State} {l : LegId} {p : PosId} (state : (s.leg l).state = .active) (attached : (s.leg l).attached = some p)
    (active : Bool) : s.sendSpeaking l active = true ↔ s.talking p = true ∨
      ∃ q r, s.supervisorOf p = some q ∧ (s.pos q).supervision = some r ∧ r.mode = .barge ∧ s.talking q = true := by
  unfold State.sendSpeaking
  rw [state, attached]
  dsimp only
  rw [Bool.or_eq_true]
  refine or_congr_right ?_
  cases e : s.supervisorOf p with
  | none => exact iff_of_false nofun fun ⟨q, r, k, _⟩ => nomatch k
  | some q =>
    dsimp only
    cases k : (s.pos q).supervision with
    | none => exact iff_of_false nofun fun ⟨q', r, e', k', _⟩ => by cases e'; exact nomatch k.symm.trans k'
    | some r =>
      dsimp only
      rw [Bool.and_eq_true, decide_eq_true_iff]
      refine ⟨fun ⟨mode, talks⟩ => ⟨q, r, rfl, k, mode, talks⟩, fun ⟨q', r', e', k', mode, talks⟩ => ?_⟩
      cases e'
      cases k.symm.trans k'
      exact ⟨mode, talks⟩

section Target
variable {s : State} {l : LegId} {rx : Block}

/-- The NLP target of the block (R112). -/
def State.nlpTarget (s : State) (l : LegId) (rx : Block) : Nat := (s.blockPlan l ((s.leg l).ec.judge rx s.highway.valid)).target

theorem State.nlpTarget_open (h : ¬ ((s.leg l).ec.state = .converged ∧ NoDoubleTalk (s.leg l).ec rx)) : s.nlpTarget l rx = 16384 :=
  if_neg fun k => h ⟨k.1, Canceller.judge_doubleTalk.1 k.2.1⟩

theorem State.nlpTarget_converged (state : (s.leg l).ec.state = .converged) (quiet : NoDoubleTalk (s.leg l).ec rx) :
    s.nlpTarget l rx = if s.sendSpeaking l (s.leg l).ec.referenceActive = true then (s.leg l).ec.nlpAttenuation else 16384 := by
  by_cases speaks : s.sendSpeaking l (s.leg l).ec.referenceActive = true
  · rw [if_pos speaks]
    exact if_pos ⟨state, Canceller.judge_doubleTalk.2 quiet, speaks⟩
  · rw [if_neg speaks]
    exact if_neg fun k => speaks k.2.2

end Target

/-- Settles O29: the block sample by sample (`State.ecSample`, `EcWork.after_gain`), and the counts and the target one by one. -/
theorem ecBlock : Obligations.EcBlock := by
  rintro s l _ _ rfl rfl
  have leg := State.ecBlock_leg (s := s) (l := l)
  obtain ⟨segments, taps, nlpGain, gap, settle, doubleTalk, history⟩ := (s.ecWorked l).account_sameWork (tget s.highway.receive l)
    ((List.range (tget s.highway.receive l).length).map (s.ecError l)) s.highway.valid ((s.leg l).ec.judge (tget s.highway.receive l) s.highway.valid)
  have out : tget (s.ecBlock l).sources.rx l = s.ecOut l := by
    rw [State.ecBlock_sources]
    exact tget_tset_same _ _ _
  have ec : ((s.ecBlock l).leg l).ec = (s.ecAfter l).1 := by rw [leg]
  have gains : ∀ n, (s.ecWork l n).gain = rampTo (s.leg l).ec.nlpGain (s.nlpTarget l (tget s.highway.receive l)) 64 n := fun n => EcWork.after_gain n
  have valid_out : s.highway.valid = true → s.ecOut l = (List.range (tget s.highway.receive l).length).map fun i =>
      scale (s.ecError l i) (s.ecWork l (i + 1)).gain := fun valid => if_pos valid
  have samples : ∀ i y, (tget s.highway.receive l)[i]? = some y → i < (tget s.highway.receive l).length := fun i y within =>
    (List.getElem?_eq_some_iff.1 within).1
  refine ⟨s.ecBlock l, rfl, fun invalid => ⟨?_, ?_⟩, fun valid => ?_, by rw [ec]; exact settle, ?_,
    ⟨(s.blockPlan l ((s.leg l).ec.judge (tget s.highway.receive l) s.highway.valid)).adapts, s.nlpTarget l (tget s.highway.receive l),
      fun i => (s.ecWork l i).taps, s.ecError l, fun i => (s.ecWork l i).gain, State.blockPlan_adapts, fun other => ?_, fun held talk => ?_,
      fun state quiet => ⟨fun open_ => ?_, fun p active attached => ⟨fun speaks => ?_, fun own barged => ?_⟩⟩, rfl, rfl,
      fun i y within => ⟨State.ecSample within, rfl, fun valid => ?_⟩,
      by rw [ec]; exact taps, by rw [ec]; exact nlpGain, fun still => ?_⟩, fun o off unity valid => ?_, fun o off none => ?_, fun low att => ?_,
    by rw [ec]; exact segments, by rw [ec]; exact history, fun m other => State.ecBlock_leg_ne other, fun m other => ?_, State.ecBlock_frame⟩
  · rw [out]
    exact if_neg (by rw [invalid]; nofun)
  · rw [ec]
    exact gap.trans (if_neg (by rw [invalid]; nofun))
  · rw [ec]
    exact gap.trans (if_pos valid)
  · rw [ec]
    refine doubleTalk.trans ?_
    show (if (s.leg l).ec.segments = [] then 0 else if (s.leg l).ec.detects (tget s.highway.receive l) then Config.doubleTalkBlocks
      else (s.leg l).ec.doubleTalk - 1) = _
    by_cases none : (s.leg l).ec.segments = []
    · rw [if_pos none, if_pos none]
    · rw [if_neg none, if_neg none]
      simp only [Canceller.detects, ne_eq, none, not_false_eq_true, decide_true, Bool.true_and, decide_eq_true_iff]
      rfl
  · exact State.nlpTarget_open fun k => other k.1
  · refine State.nlpTarget_open fun k => ?_
    obtain none | ⟨below, still⟩ := k.2
    · exact held none
    · obtain loud | before := talk
      · exact absurd below (not_le.2 loud)
      · exact absurd still before.ne'
  · rw [State.nlpTarget_converged state quiet, State.sendSpeaking_of_reference open_]
    simp only [Canceller.referenceActive, decide_eq_true_iff]
  · rw [State.nlpTarget_converged state quiet, if_pos ((State.sendSpeaking_of_active active attached _).2 speaks)]
  · rw [State.nlpTarget_converged state quiet, if_neg]
    refine (State.sendSpeaking_of_active active attached _).not.2 ?_
    rintro (talks | ⟨q, r, e, k, mode, talks⟩)
    · exact nomatch own.symm.trans talks
    · exact nomatch (barged q r e k mode).symm.trans talks
  · rw [out, valid_out valid, List.getElem?_map, List.getElem?_range (samples i y within)]
    rfl
  · rw [ec]
    exact taps.trans (EcWork.after_taps still _)
  · have steady : ∀ n, (s.ecWork l n).gain = 16384 := fun n => by
      rw [gains, State.nlpTarget_open (fun k => nomatch off.symm.trans k.1), unity, rampTo_eq, if_pos le_rfl]
      omega
    rw [out, valid_out valid]
    refine List.ext_getElem? fun i => ?_
    rw [List.getElem?_map]
    by_cases within : i < (tget s.highway.receive l).length
    · rw [List.getElem?_range within, List.getElem?_eq_getElem within, Option.map_some, steady, scale_unity]
      obtain ⟨error, _⟩ := State.ecSample (List.getElem?_eq_getElem within)
      rw [error, if_neg (by rw [off]; nofun)]
    · rw [List.getElem?_eq_none (by rw [List.length_range]; omega), List.getElem?_eq_none (by omega)]
      rfl
  · have account : (s.ecAfter l).1 = s.ecWorked l := by
      unfold State.ecAfter Canceller.account
      rw [show (s.ecWorked l).state = .off o from off]
    have still : (s.blockPlan l ((s.leg l).ec.judge (tget s.highway.receive l) s.highway.valid)).adapts = false :=
      Bool.eq_false_iff.2 fun k => by
        obtain ⟨e | e, _⟩ := State.blockPlan_adapts.1 k <;> exact nomatch off.symm.trans e
    have worked : (s.ecAfter l).1.taps = (s.leg l).ec.taps ∧ (s.ecAfter l).1.doubleTalk = 0 :=
      ⟨taps.trans (EcWork.after_taps still _), doubleTalk.trans (if_pos none)⟩
    rw [leg]
    rw [account] at worked ⊢
    rw [← worked.1, ← worked.2]
    rfl
  · rw [ec]
    refine nlpGain.trans_le ((gains _).trans_le ?_)
    have target : s.nlpTarget l (tget s.highway.receive l) ≤ 16384 := by
      unfold State.nlpTarget State.blockPlan
      dsimp only
      split
      · exact att
      · exact le_rfl
    rw [rampTo_eq]
    split <;> omega
  · rw [State.ecBlock_sources]
    exact tget_tset_ne _ _ _ _ (Ne.symm other)

end Sys2Proof.Machine
end

section
set_option Elab.async false
/-! ## The search window and the ERLE window (R104, R105, R109 to R111) -/

namespace Sys2Proof.Machine

/-! ### The best candidate (R105) -/

/-- One candidate against the best so far. -/
def betterCandidate (best x : Nat × Nat) : Nat × Nat := if best.1 < x.1 then (x.1, x.2) else best

/-- No better candidate follows the largest sum. -/
theorem foldl_betterCandidate_of_le {l : List (Nat × Nat)} {best : Nat × Nat} (h : ∀ x ∈ l, x.1 ≤ best.1) : l.foldl betterCandidate best = best := by
  induction l with
  | nil => rfl
  | cons x l ih =>
    rw [List.foldl_cons, show betterCandidate best x = best from if_neg (not_lt.2 (h x List.mem_cons_self))]
    exact ih fun y mem => h y (List.mem_cons_of_mem _ mem)

theorem foldl_betterCandidate_lt {l : List (Nat × Nat)} {best : Nat × Nat} {bound : Nat} (start : best.1 < bound) (h : ∀ x ∈ l, x.1 < bound) :
    (l.foldl betterCandidate best).1 < bound := by
  induction l generalizing best with
  | nil => exact start
  | cons x l ih =>
    refine ih ?_ fun y mem => h y (List.mem_cons_of_mem _ mem)
    unfold betterCandidate
    split
    · exact h x List.mem_cons_self
    · exact start

/-- The smallest candidate with the largest sum is the one found (R105). -/
theorem bestCandidate_eq {sums : List Nat} {d : Nat} (within : d < sums.length) (largest : ∀ j, sums.getD j 0 ≤ sums.getD d 0)
    (first : ∀ j, j < d → sums.getD j 0 < sums.getD d 0) : bestCandidate sums = d := by
  have at_ : ∀ x ∈ sums.zipIdx, x.1 = sums.getD x.2 0 := fun x mem => by
    rw [List.getD_eq_getElem?_getD, List.mem_zipIdx_iff_getElem?.1 mem]
    rfl
  have parts : sums.zipIdx = (sums.take d).zipIdx ++ (sums.getD d 0, d) :: (sums.drop (d + 1)).zipIdx (d + 1) := by
    conv_lhs => rw [← List.take_append_drop d sums, List.drop_eq_getElem_cons within, List.zipIdx_append]
    rw [List.zipIdx_cons, List.length_take, min_eq_left within.le, zero_add, List.getD_eq_getElem _ _ within]
  have before : ∀ x ∈ (sums.take d).zipIdx, x.1 < sums.getD d 0 := fun x mem => by
    rw [at_ x (by rw [parts]; exact List.mem_append_left _ mem)]
    have below : x.2 < (sums.take d).length := (List.getElem?_eq_some_iff.1 (List.mem_zipIdx_iff_getElem?.1 mem)).1
    exact first _ (below.trans_le (by rw [List.length_take]; exact min_le_left _ _))
  have behind : ∀ x ∈ (sums.drop (d + 1)).zipIdx (d + 1), x.1 ≤ sums.getD d 0 := fun x mem => by
    rw [at_ x (by rw [parts]; exact List.mem_append_right _ (List.mem_cons_of_mem _ mem))]
    exact largest _
  show (sums.zipIdx.foldl betterCandidate (sums.headD 0, 0)).2 = d
  have head : sums.headD 0 = sums.getD 0 0 := by
    rw [List.headD_eq_head?_getD, List.getD_eq_getElem?_getD, List.head?_eq_getElem?]
  rw [parts, List.foldl_append, List.foldl_cons, head]
  obtain rfl | some_ := Nat.eq_zero_or_pos d
  · rw [List.take_zero, List.zipIdx_nil, List.foldl_nil,
      show betterCandidate (sums.getD 0 0, 0) (sums.getD 0 0, 0) = (sums.getD 0 0, 0) from if_neg (lt_irrefl _), foldl_betterCandidate_of_le behind]
  · have smaller := foldl_betterCandidate_lt (best := (sums.getD 0 0, 0)) (first 0 some_) before
    rw [show betterCandidate ((sums.take d).zipIdx.foldl betterCandidate (sums.getD 0 0, 0)) (sums.getD d 0, d) = (sums.getD d 0, d) from
      if_pos smaller, foldl_betterCandidate_of_le behind]

/-! ### The search window -/

section Search
variable {c : Canceller} {rx : Block} {counted : Bool}

/-- The judgement of the search window that a block completes (R105). -/
theorem Canceller.accountSearch_found (full : c.search.blocks + 1 = 250) (enough : 50 ≤ (c.countSearch rx counted).counted) :
    c.accountSearch rx counted = ({ c with
      search := c.countSearch rx counted, bulkDelay := bestCandidate (c.countSearch rx counted).sums - 1
      state := .converging, erle := .clear, goodRun := 0, poorRun := 0 }, some .state) := by
  have blocks : (c.countSearch rx counted).blocks = 250 := by
    unfold Canceller.countSearch
    split <;> exact full
  unfold Canceller.accountSearch
  dsimp only
  rw [if_neg (by rw [blocks]; exact lt_irrefl _), if_pos (show Config.searchCounted ≤ _ from enough)]
  rfl

theorem Canceller.countSearch_failed : (c.countSearch rx counted).failed = c.search.failed := by
  unfold Canceller.countSearch
  split <;> rfl

theorem Canceller.accountSearch_failed (full : c.search.blocks + 1 = 250) (few : (c.countSearch rx counted).counted < 50) :
    c.accountSearch rx counted = if c.search.failed + 1 < 3
      then ({ c with search := { SearchProgress.clear with failed := c.search.failed + 1 } }, none)
      else ({ c with
        search := { SearchProgress.clear with failed := c.search.failed + 1 }, bulkDelay := 0
        state := .converging, erle := .clear, goodRun := 0, poorRun := 0 }, some .timeout) := by
  have blocks : (c.countSearch rx counted).blocks = 250 := by
    unfold Canceller.countSearch
    split <;> exact full
  unfold Canceller.accountSearch
  dsimp only
  rw [if_neg (by rw [blocks]; exact lt_irrefl _), if_neg (show ¬ Config.searchCounted ≤ _ from not_le.2 few), Canceller.countSearch_failed]
  rfl

end Search

/-- Settles O30: the block's account to the search (`Canceller.accountSearch_found`, `Canceller.accountSearch_failed`, `bestCandidate_eq`). -/
theorem searchWindowEnd : Obligations.SearchWindowEnd := by
  rintro s l _ counted sums rfl state full accounted
  have event : exec (.searchWindowEnd l) s = .next (s.ecBlock l) :=
    congrArg Host.Outcome.next (if_pos ⟨state, show (250 : Nat) ≤ _ from full.ge⟩)
  generalize eq : ((s.highway.valid && !((s.leg l).ec.judge (tget s.highway.receive l) s.highway.valid).gap
      && !((s.leg l).ec.judge (tget s.highway.receive l) s.highway.valid).settle
      && ((s.leg l).ec.judge (tget s.highway.receive l) s.highway.valid).active) : Bool) = counts
  have account : s.ecAfter l = (s.ecWorked l).accountSearch (tget s.highway.receive l) counts := by
    unfold State.ecAfter Canceller.account
    rw [show (s.ecWorked l).state = .search from state, ← eq]
  have counts_iff : counts = true ↔
      s.highway.valid = true ∧ (s.leg l).ec.gap = 0 ∧ (s.leg l).ec.settle = 0 ∧ 64 ≤ energy ((s.leg l).ec.reference (s.leg l).ec.bulkDelay) := by
    rw [← eq]
    simp only [Canceller.judge, Canceller.referenceActive, Bool.and_eq_true, Bool.not_eq_true', Bool.or_eq_false_iff, decide_eq_false_iff_not,
      not_lt, Nat.le_zero, Bool.not_eq_false', decide_eq_true_iff]
    tauto
  have progress : ((s.ecWorked l).countSearch (tget s.highway.receive l) counts).counted = counted ∧
      ((s.ecWorked l).countSearch (tget s.highway.receive l) counts).sums = sums := by
    obtain ⟨yes, rfl, length, grown⟩ | ⟨no, rfl, rfl⟩ := accounted
    · rw [counts_iff.2 yes]
      refine ⟨rfl, List.ext_getElem (by simp only [Canceller.countSearch, if_true, List.length_map, List.length_zipIdx]; exact length.symm) fun j _ within => ?_⟩
      have one := grown j within
      rw [List.getD_eq_getElem _ _ within, List.getD_eq_getElem _ _ (length ▸ within)] at one
      rw [one]
      simp only [Canceller.countSearch, if_true, List.getElem_map, List.getElem_zipIdx, zero_add]
      rfl
    · have not : counts = false := Bool.eq_false_iff.2 fun k => by
        obtain ⟨valid, gap, settle, active⟩ := counts_iff.1 k
        obtain invalid | gaps | settles | quiet := no
        · exact nomatch invalid.symm.trans valid
        · exact gaps.ne' gap
        · exact settles.ne' settle
        · exact absurd active (not_le.2 quiet)
      rw [not]
      exact ⟨rfl, rfl⟩
  obtain ⟨hcounted, hsums⟩ := progress
  refine ⟨fun enough d within largest first => ?_, fun few again => ?_, fun few last => ?_⟩
  · have found := Canceller.accountSearch_found (c := s.ecWorked l) (rx := tget s.highway.receive l) (counted := counts) full
      (by rw [hcounted]; exact enough)
    rw [hsums, bestCandidate_eq within largest first, ← account] at found
    refine ⟨s.ecBlock l, event, rfl, ?_⟩
    rw [State.ecBlock_state (by rw [found]), State.ecBlock_leg, found]
    exact ⟨rfl, rfl, rfl, rfl, rfl, rfl⟩
  · have failed := Canceller.accountSearch_failed (c := s.ecWorked l) (rx := tget s.highway.receive l) (counted := counts) full
      (by rw [hcounted]; exact few)
    rw [if_pos (show (s.ecWorked l).search.failed + 1 < 3 from again), ← account] at failed
    refine ⟨s.ecBlock l, event, rfl, ?_⟩
    rw [State.ecBlock_silent (by rw [failed]), State.ecBlock_leg, failed]
    exact ⟨state, rfl, rfl⟩
  · have failed := Canceller.accountSearch_failed (c := s.ecWorked l) (rx := tget s.highway.receive l) (counted := counts) full
      (by rw [hcounted]; exact few)
    rw [if_neg (show ¬ (s.ecWorked l).search.failed + 1 < 3 from not_lt.2 last), ← account] at failed
    refine ⟨s.ecBlock l, event, rfl, ?_⟩
    rw [State.ecBlock_timeout (by rw [failed]), State.ecBlock_leg, failed]
    exact ⟨rfl, rfl, rfl, rfl, rfl, rfl⟩

/-! ### The ERLE window -/

section Erle
variable {c : Canceller} {rx errors : Block} {qualifies : Bool}

theorem ErleWindow.add_blocks (w : ErleWindow) : (w.add rx errors qualifies).blocks = w.blocks + 1 := by
  unfold ErleWindow.add
  split <;> rfl

theorem Canceller.accountErle_open (short : c.erle.blocks + 1 < 25) :
    c.accountErle rx errors qualifies = ({ c with erle := c.erle.add rx errors qualifies }, none) := by
  unfold Canceller.accountErle
  dsimp only
  rw [ErleWindow.add_blocks]
  exact if_pos short

/-- The canceller with a completed window captured (R111). -/
def Canceller.captured (c : Canceller) (w : ErleWindow) : Canceller := { c with
  erle := .clear, windows := min 4294967295 (c.windows + 1), stats := some ⟨w.srx, w.se, w.qualifying, min 4294967295 (c.windows + 1)⟩ }

theorem Canceller.accountErle_full (full : c.erle.blocks + 1 = 25) :
    c.accountErle rx errors qualifies = (c.captured (c.erle.add rx errors qualifies)).judgeWindow (c.erle.add rx errors qualifies) := by
  unfold Canceller.accountErle
  dsimp only
  rw [ErleWindow.add_blocks]
  exact if_neg (show ¬ c.erle.blocks + 1 < 25 from full.ge.not_gt)

/-- Whatever a window is judged to be, its capture stands. -/
theorem Canceller.judgeWindow_kept (c : Canceller) (w : ErleWindow) : (c.judgeWindow w).1.stats = c.stats ∧
    (c.erle = .clear → (c.judgeWindow w).1.erle = .clear) ∧ (c.judgeWindow w).1.bulkDelay = c.bulkDelay := by
  unfold Canceller.judgeWindow
  split
  · exact ⟨rfl, id, rfl⟩
  · split
    · split
      · split
        · exact ⟨rfl, id, rfl⟩
        · exact ⟨rfl, fun _ => rfl, rfl⟩
      · exact ⟨rfl, id, rfl⟩
    · split
      · split
        · exact ⟨rfl, id, rfl⟩
        · exact ⟨rfl, fun _ => rfl, rfl⟩
      · exact ⟨rfl, id, rfl⟩
    all_goals exact ⟨rfl, id, rfl⟩

variable {w : ErleWindow}

theorem Canceller.judgeWindow_unjudged (h : w.qualifying < 10 ∨ c.state = .frozen) : c.judgeWindow w = (c, none) := by
  unfold Canceller.judgeWindow
  obtain few | frozen := h
  · exact if_pos few
  · rw [frozen]
    exact ite_self _

theorem Canceller.judgeWindow_converging (enough : 10 ≤ w.qualifying) (state : c.state = .converging) :
    c.judgeWindow w = if 64 * (w.se + 1) ≤ w.srx
      then if c.goodRun + 1 < 2 then ({ c with goodRun := c.goodRun + 1 }, none) else (c.enter .converged, some .state)
      else ({ c with goodRun := 0 }, none) := by
  unfold Canceller.judgeWindow
  rw [if_neg (show ¬ w.qualifying < Config.erleQualifying from not_lt.2 enough), state]

theorem Canceller.judgeWindow_converged (enough : 10 ≤ w.qualifying) (state : c.state = .converged) :
    c.judgeWindow w = if w.srx < 4 * (w.se + 1)
      then if c.poorRun + 1 < 4 then ({ c with poorRun := c.poorRun + 1 }, none) else (c.enter .converging, some .state)
      else ({ c with poorRun := 0 }, none) := by
  unfold Canceller.judgeWindow
  rw [if_neg (show ¬ w.qualifying < Config.erleQualifying from not_lt.2 enough), state]

end Erle

/-- Settles O31: the block's account to the ERLE window (`Canceller.accountErle_open`, `Canceller.accountErle_full`) and the judgement of a
window by the canceller's state. -/
theorem erleWindowEnd : Obligations.ErleWindowEnd := by
  rintro s l _ _ rfl rfl state
  generalize eq : (((s.leg l).ec.judge (tget s.highway.receive l) s.highway.valid).active
      && !((s.leg l).ec.judge (tget s.highway.receive l) s.highway.valid).doubleTalk && s.highway.valid
      && !((s.leg l).ec.judge (tget s.highway.receive l) s.highway.valid).gap : Bool) = qualifies
  have qualifies_iff : qualifies = true ↔ 64 ≤ energy ((s.leg l).ec.reference (s.leg l).ec.bulkDelay) ∧
      NoDoubleTalk (s.leg l).ec (tget s.highway.receive l) ∧ s.highway.valid = true ∧ (s.leg l).ec.gap = 0 := by
    rw [← eq, Bool.and_eq_true, Bool.and_eq_true, Bool.and_eq_true, Bool.not_eq_true', Bool.not_eq_true', Canceller.judge_doubleTalk]
    simp only [Canceller.judge, Canceller.referenceActive, Bool.or_eq_false_iff, decide_eq_false_iff_not,
      not_lt, Nat.le_zero, Bool.not_eq_false', decide_eq_true_iff]
    tauto
  have account : s.ecAfter l = (s.ecWorked l).accountErle (tget s.highway.receive l)
      ((List.range (tget s.highway.receive l).length).map (s.ecError l)) qualifies := by
    unfold State.ecAfter Canceller.account
    obtain e | e | e := state <;> rw [show (s.ecWorked l).state = _ from e, ← eq]
  have filters := Canceller.filters_iff.2 state
  generalize window : (s.leg l).ec.erle.add (tget s.highway.receive l) ((List.range (tget s.highway.receive l).length).map (s.ecError l)) qualifies = w
  refine ⟨s.ecBlock l, w, _, fun i => (s.ecWork l i).taps, s.ecError l, rfl, State.blockPlan_adapts, rfl, fun i y within => State.ecSample within,
    fun yes => ?_, fun no => ?_, fun short => ?_, fun full => ?_⟩
  · rw [← window, qualifies_iff.2 yes]
    rfl
  · rw [← window, Bool.eq_false_iff.2 (qualifies_iff.not.2 no)]
    rfl
  · have after := Canceller.accountErle_open (c := s.ecWorked l) (rx := tget s.highway.receive l)
      (errors := (List.range (tget s.highway.receive l).length).map (s.ecError l)) (qualifies := qualifies) short
    rw [show (s.ecWorked l).erle = (s.leg l).ec.erle from rfl, window, ← account] at after
    refine ⟨congrArg Host.Outcome.next (if_neg fun k => absurd (show 25 ≤ (s.leg l).ec.erle.blocks + 1 from k.2) (not_le.2 short)), ?_⟩
    rw [State.ecBlock_silent (by rw [after]), State.ecBlock_leg, after]
    exact ⟨rfl, rfl, rfl, rfl, rfl, rfl, rfl⟩
  · have after := Canceller.accountErle_full (c := s.ecWorked l) (rx := tget s.highway.receive l)
      (errors := (List.range (tget s.highway.receive l).length).map (s.ecError l)) (qualifies := qualifies) full
    rw [show (s.ecWorked l).erle = (s.leg l).ec.erle from rfl, window, ← account] at after
    have captured : ((s.ecWorked l).captured w).state = (s.leg l).ec.state ∧ ((s.ecWorked l).captured w).goodRun = (s.leg l).ec.goodRun ∧
      ((s.ecWorked l).captured w).poorRun = (s.leg l).ec.poorRun ∧ ((s.ecWorked l).captured w).bulkDelay = (s.leg l).ec.bulkDelay ∧
      ((s.ecWorked l).captured w).stats = some ⟨w.srx, w.se, w.qualifying, min 4294967295 ((s.leg l).ec.windows + 1)⟩ ∧
      ((s.ecWorked l).captured w).erle = .clear := ⟨rfl, rfl, rfl, rfl, rfl, rfl⟩
    obtain ⟨st, good, poor, delay, stats, erle⟩ := captured
    generalize (s.ecWorked l).captured w = d at *
    obtain ⟨keptStats, keptErle, keptDelay⟩ := d.judgeWindow_kept w
    have converging := fun enough (k : (s.leg l).ec.state = .converging) => after.trans (d.judgeWindow_converging (w := w) enough (st.trans k))
    have converged := fun enough (k : (s.leg l).ec.state = .converged) => after.trans (d.judgeWindow_converged (w := w) enough (st.trans k))
    refine ⟨congrArg Host.Outcome.next (if_pos ⟨filters, show (25 : Nat) ≤ _ from full.ge⟩), by rw [State.ecBlock_leg, after]; exact keptStats.trans stats,
      by rw [State.ecBlock_leg, after]; exact keptErle erle, fun unjudged => ?_, fun enough k good_ => ⟨fun run => ?_, fun run => ?_⟩,
      fun enough k bad => ?_, fun enough k bad => ⟨fun run => ?_, fun run => ?_⟩, fun enough k good_ => ?_⟩
    · have still := after.trans (Canceller.judgeWindow_unjudged (unjudged.imp_right st.trans))
      rw [State.ecBlock_silent (by rw [still]), State.ecBlock_leg, still]
      exact ⟨st, good, poor, rfl⟩
    · have judged := converging enough k
      rw [if_pos good_, good, run, if_pos (by norm_num)] at judged
      rw [State.ecBlock_leg, judged]
      exact ⟨st.trans k, rfl⟩
    · have judged := converging enough k
      rw [if_pos good_, good, if_neg (by omega)] at judged
      rw [State.ecBlock_state (by rw [judged]), State.ecBlock_leg, judged, ← delay]
      exact ⟨rfl, rfl, rfl⟩
    · have judged := converging enough k
      rw [if_neg (not_le.2 bad)] at judged
      rw [State.ecBlock_leg, judged]
      exact ⟨st.trans k, rfl⟩
    · have judged := converged enough k
      rw [if_pos bad, poor, if_pos (by omega)] at judged
      rw [State.ecBlock_leg, judged]
      exact ⟨st.trans k, rfl⟩
    · have judged := converged enough k
      rw [if_pos bad, poor, if_neg (by omega)] at judged
      rw [State.ecBlock_state (by rw [judged]), State.ecBlock_leg, judged, ← delay]
      exact ⟨rfl, rfl, rfl⟩
    · have judged := converged enough k
      rw [if_neg (not_lt.2 good_)] at judged
      rw [State.ecBlock_leg, judged]
      exact ⟨st.trans k, rfl⟩

end Sys2Proof.Machine
end

section
set_option Elab.async false
/-! ## The tap pool and EC_CONFIG (R90 to R97, R114 to R117) -/

namespace Sys2Proof.Machine

/-! ### Changes of one canceller -/

section Ec
variable {s : State} {l : LegId}

theorem State.modEc_congr {f g : Canceller → Canceller} (h : f (s.leg l).ec = g (s.leg l).ec) : s.modEc l f = s.modEc l g := by
  unfold State.modEc State.modLeg
  dsimp only
  rw [h]

theorem State.modEc_self {f : Canceller → Canceller} (h : f (s.leg l).ec = (s.leg l).ec) : s.modEc l f = s := by
  unfold State.modEc State.modLeg
  dsimp only
  rw [h, show ({ s.leg l with ec := (s.leg l).ec } : Leg) = tget s.legs l from rfl, tset_tget]

end Ec

/-! ### EC_CONFIG without a tail -/

/-- A start point by the delay mode (R97). -/
theorem Canceller.startPoint_eq (c : Canceller) : c.startPoint = { c with
    state := if c.mode = .auto then .search else .converging, bulkDelay := if c.mode = .auto then 0 else c.fixedDelay
    search := if c.mode = .auto then .clear else c.search, erle := .clear, goodRun := 0, poorRun := 0, windows := 0 } := by
  unfold Canceller.startPoint
  cases c.mode <;> rfl

/-- An accepted EC_CONFIG without a tail is one change of the leg's canceller (R114). -/
theorem State.ecConfigure_untailed (s : State) (l : LegId) (delay : Option (DelayMode × Nat)) (nlp : Option Nat) (action : EcAction) :
    s.ecConfigure l none delay nlp action = s.modEc l fun c => { c with
      nlpAttenuation := (nlp.map (clamp 0 16384)).getD c.nlpAttenuation
      mode := (delay.map Prod.fst).getD c.mode, fixedDelay := (delay.map Prod.snd).getD c.fixedDelay }.act action := by
  unfold State.ecConfigure
  cases nlp <;> cases delay <;> simp only [State.modEc_modEc, Option.map_none, Option.map_some, Option.getD_none, Option.getD_some]

theorem actionOf_beyond {b : Nat} (h : 4 ≤ b) : actionOf b = none := by
  unfold actionOf
  rw [if_neg (by omega), if_neg (by omega), if_neg (by omega), if_neg (by omega)]

section Own
variable {s : State} {l : LegId}

/-- The owner's answer once the fields name a leg, an action and a delay mode (R114). -/
theorem ownEcConfig_named {f : EcFields} (leg : f.leg = l.val) {action : EcAction} (named : actionOf f.action = some action)
    {delay : Option (DelayMode × Nat)} (read : f.delay.map delayOf = delay.map some) :
    ownEcConfig f s = if (s.leg l).state = .idle then refuse s .busy
      else if action = .freeze ∧ (s.leg l).ec.cannotFreeze f.tail = true then refuse s .busy
      else accept (s.ecConfigure l f.tail delay f.nlp action) := by
  unfold ownEcConfig
  rw [leg, toId_val, named]
  dsimp only
  rw [read]
  cases delay <;> rfl

theorem ownEcConfig_unnamed {f : EcFields} (leg : f.leg = l.val) (h : actionOf f.action = none ∨ f.delay.map delayOf = some none) :
    ownEcConfig f s = refuse s .range := by
  unfold ownEcConfig
  rw [leg, toId_val]
  obtain none | none := h
  · rw [none]
  · cases actionOf f.action with
    | none => rfl
    | some action =>
      dsimp only
      rw [none]

theorem cannotFreeze_eq_true {c : Canceller} {tail : Option Nat} :
    c.cannotFreeze tail = true ↔ (c.state ≠ .converging ∧ c.state ≠ .converged) ∨ tail = some 0 := by
  unfold Canceller.cannotFreeze
  simp only [Bool.or_eq_true, Bool.not_eq_true', Bool.or_eq_false_iff, decide_eq_false_iff_not, decide_eq_true_iff]

end Own

/-- Settles O27: the owner's refusals in order, and the change of the canceller (`State.ecConfigure_untailed`). -/
theorem ecConfig : Obligations.EcConfig := by
  intro s l tag ready
  have fixed : ∀ d : Option DelayField, (∀ k, d ≠ some (.other k)) → ∃ delay : Option (DelayMode × Nat), d.map delayOf = delay.map some := by
    intro d known
    cases d with
    | none => exact ⟨none, rfl⟩
    | some m =>
      cases m with
      | auto => exact ⟨some (.auto, 0), rfl⟩
      | fixed d => exact ⟨some (.fixed, min d Config.maxDelay), rfl⟩
      | other k => exact absurd rfl (known k)
  refine ⟨fun f leg beyond => ?_, fun f leg ⟨k, other⟩ => ?_, fun f leg action known refused => ?_, fun busy => ?_⟩
  · rw [exec_ecConfig_ready ready, ownEcConfig_unnamed leg (.inl (actionOf_beyond beyond))]
    rfl
  · rw [exec_ecConfig_ready ready, ownEcConfig_unnamed leg (.inr (by rw [other]; rfl))]
    rfl
  · obtain ⟨delay, read⟩ := fixed f.delay known
    have named : ∃ a, actionOf f.action = some a ∧ (f.action = 2 → a = .freeze) := by
      obtain e | e | e | e : f.action = 0 ∨ f.action = 1 ∨ f.action = 2 ∨ f.action = 3 := by omega
      all_goals
        rw [e]
        exact ⟨_, rfl, by simp⟩
    obtain ⟨a, named, freeze⟩ := named
    rw [exec_ecConfig_ready ready, ownEcConfig_named leg named read]
    obtain idle | ⟨action, cannot⟩ := refused
    · rw [if_pos idle]
      rfl
    · rw [if_pos (show a = .freeze ∧ (s.leg l).ec.cannotFreeze f.tail = true from ⟨freeze action, cannotFreeze_eq_true.2 cannot⟩), ite_self]
      rfl
  · have accepted : ∀ (delay : Option DelayField) (read : Option (DelayMode × Nat)) (nlp : Option Nat) (b : Nat) (action : EcAction),
        delay.map delayOf = read.map some → actionOf b = some action →
        (action = .freeze → (s.leg l).ec.state = .converging ∨ (s.leg l).ec.state = .converged) →
        exec (.ecConfig tag (.fields ⟨l.val, none, delay, nlp, b⟩)) s = .next ((s.ecConfigure l none read nlp action).ok 0x16 tag) := by
      intro delay read nlp b action hread named free
      rw [exec_ecConfig_ready ready, ownEcConfig_named (l := l) rfl named hread, if_neg busy, if_neg]
      · rfl
      · rintro ⟨freeze, cannot⟩
        obtain ⟨notConverging, notConverged⟩ | e := cannotFreeze_eq_true.1 cannot
        · exact (free freeze).elim notConverging notConverged
        · exact nomatch e
    have changed : ∀ {f g : Canceller → Canceller}, f (s.leg l).ec = g (s.leg l).ec →
        (.next ((s.modEc l f).ok 0x16 tag) : Result) = .next ((s.modEc l g).ok 0x16 tag) := fun e => by rw [State.modEc_congr e]
    refine ⟨fun a d => ?_, ?_, fun bare => ?_, fun held => ?_, fun run => ?_, fun frozen => ?_, fun other => ?_⟩
    · rw [accepted _ (some (.fixed, min d 32)) _ _ .none rfl rfl nofun, State.ecConfigure_untailed]
      refine changed ?_
      show ({ (s.leg l).ec with nlpAttenuation := max 0 (min 16384 a), mode := .fixed, fixedDelay := min d 32 } : Canceller) = _
      rw [Nat.zero_max]
    · rw [accepted _ (some (.auto, 0)) _ _ .none rfl rfl nofun, State.ecConfigure_untailed]
      rfl
    · rw [accepted _ none _ _ .reset rfl rfl nofun, State.ecConfigure_untailed]
      refine changed ?_
      exact if_pos bare
    · rw [accepted _ none _ _ .reset rfl rfl nofun, State.ecConfigure_untailed]
      refine changed ((if_neg held).trans ?_)
      rw [Canceller.startPoint_eq]
      simp only [ite_self]
      rfl
    · rw [accepted _ none _ _ .freeze rfl rfl fun _ => run, State.ecConfigure_untailed]
      refine changed ?_
      exact if_pos run
    · rw [accepted _ none _ _ .unfreeze rfl rfl nofun, State.ecConfigure_untailed]
      refine changed ?_
      exact if_pos frozen
    · rw [accepted _ none _ _ .unfreeze rfl rfl nofun, State.ecConfigure_untailed, State.modEc_self]
      exact if_neg other

/-! ### The top-up pass (R94) -/

section TopUp
variable {s : State} {x : Shortfall} {rest : List Shortfall} {n : Nat}

/-- The canceller after a grant (R90, R91, R97). -/
def Canceller.granted (c : Canceller) (taken : List Nat) : Canceller :=
  let grown := { c with segments := c.segments ++ taken, taps := c.taps ++ List.replicate (128 * taken.length) 0 }
  if c.segments = [] ∧ taken ≠ [] then grown.startPoint else grown

theorem State.grantSegments_eq (s : State) (l : LegId) (n : Nat) : s.grantSegments l n =
    { s with pool := { s.pool with free := s.pool.free.drop n } }.modEc l fun c => c.granted (s.pool.free.take n) := rfl

/-- The pass with nothing to give the oldest entry leaves the queue as it is. -/
theorem topUp_none (none : topUpGrant (s.leg x.leg).ec.segments.length x.owed s.pool.free.length = 0) :
    topUp s (x :: rest) = { s with pool := { s.pool with queue := x :: rest } } := by
  unfold topUpGrant at none
  unfold topUp
  dsimp only
  rw [if_neg]
  rintro ⟨least, some_⟩
  split at none
  · rename_i h
    rw [if_pos h.1] at least
    omega
  · omega

/-- The pass that gives the oldest entry something, for the last entry or one that it cannot serve whole. -/
theorem topUp_some (grant : n = topUpGrant (s.leg x.leg).ec.segments.length x.owed s.pool.free.length) (some_ : 0 < n)
    (ends : rest = [] ∨ n < x.owed) : topUp s (x :: rest) =
    ({ s with pool := ⟨s.pool.free.drop n, if n < x.owed then { x with owed := x.owed - n } :: rest else rest⟩ }.modEc x.leg fun c =>
      c.granted (s.pool.free.take n)).report (.ecTaps x.leg ((s.leg x.leg).ec.segments.length + n) (x.owed - n)) := by
  have parts : n = min x.owed s.pool.free.length ∧
      (if (s.leg x.leg).ec.segments.length = 0 then min 2 x.owed else 1) ≤ min x.owed s.pool.free.length := by
    unfold topUpGrant at grant
    split at grant
    · omega
    · refine ⟨grant, ?_⟩
      split <;> omega
  obtain ⟨amount, least⟩ := parts
  unfold topUp
  dsimp only
  rw [← amount] at least ⊢
  rw [if_pos ⟨least, some_⟩]
  by_cases whole : x.owed = n
  · obtain rfl | short := ends
    · rw [if_pos whole, if_neg (by omega)]
      rfl
    · omega
  · rw [if_neg whole, if_pos (by omega)]
    rfl

/-- The canceller after a grant, field by field. -/
theorem Canceller.granted_fields (c : Canceller) (taken : List Nat) : (c.granted taken).segments = c.segments ++ taken ∧
    (c.granted taken).taps = c.taps ++ List.replicate (128 * taken.length) 0 ∧
    (c.segments = [] → taken ≠ [] → (c.granted taken).state = (if c.mode = .auto then .search else .converging) ∧
      (c.granted taken).bulkDelay = if c.mode = .auto then 0 else c.fixedDelay) ∧
    ((c.segments ≠ [] ∨ taken = []) → (c.granted taken).state = c.state ∧ (c.granted taken).bulkDelay = c.bulkDelay) := by
  unfold Canceller.granted
  dsimp only
  by_cases start : c.segments = [] ∧ taken ≠ []
  · rw [if_pos start, Canceller.startPoint_eq]
    exact ⟨rfl, rfl, fun _ _ => ⟨rfl, rfl⟩, fun k => absurd start fun start => k.elim (fun k => k start.1) start.2⟩
  · rw [if_neg start]
    exact ⟨rfl, rfl, fun none some_ => absurd ⟨none, some_⟩ start, fun _ => ⟨rfl, rfl⟩⟩

/-- What a pass over a queue finds and leaves, for an oldest entry that is the last or cannot be served whole (R94). -/
theorem topUp_toppedUp (grant : n = topUpGrant (s.leg x.leg).ec.segments.length x.owed s.pool.free.length) (owed : 1 ≤ x.owed)
    (ends : rest = [] ∨ n < x.owed) :
    ToppedUp s (topUp s (x :: rest)) s.pool.free x rest n ∧ (∀ m, m ≠ x.leg → (topUp s (x :: rest)).leg m = s.leg m) ∧
    (n = 0 → (topUp s (x :: rest)).link = s.link) ∧
    (0 < n → (topUp s (x :: rest)).link = (s.report (.ecTaps x.leg ((s.leg x.leg).ec.segments.length + n) (x.owed - n))).link) ∧
    topUp s (x :: rest) =
      { s with legs := (topUp s (x :: rest)).legs, pool := (topUp s (x :: rest)).pool, link := (topUp s (x :: rest)).link } := by
  obtain none | some_ := Nat.eq_zero_or_pos n
  · have goes := topUp_none (s := s) (rest := rest) (grant.symm.trans none)
    rw [goes]
    refine ⟨⟨grant, ?_, ?_, ?_, fun _ k => absurd none k.ne', fun _ => ⟨rfl, rfl⟩⟩, fun _ _ => rfl, fun _ => rfl, fun k => absurd none k.ne', rfl⟩
    · rw [none, List.take_zero, List.append_nil]
      rfl
    · rw [none]
      exact (List.append_nil _).symm
    · rw [none, List.drop_zero, if_pos (by omega)]
      rfl
  · have goes := topUp_some (s := s) grant some_ ends
    have leg : (topUp s (x :: rest)).leg x.leg = { s.leg x.leg with ec := (s.leg x.leg).ec.granted (s.pool.free.take n) } := by
      rw [goes, State.report_leg, State.leg_modEc_same]
      rfl
    obtain ⟨segments, taps, started, kept⟩ := (s.leg x.leg).ec.granted_fields (s.pool.free.take n)
    have enough : n ≤ s.pool.free.length := by
      rw [grant]
      unfold topUpGrant
      split <;> omega
    have length : (s.pool.free.take n).length = n := by rw [List.length_take, min_eq_left enough]
    have taken : s.pool.free.take n ≠ [] := List.length_pos_iff.1 (by rw [length]; exact some_)
    refine ⟨⟨grant, by rw [leg]; exact segments, by rw [leg]; exact taps.trans (by rw [length]), by rw [goes]; rfl, fun none _ => ?_, fun k => ?_⟩,
      fun m other => ?_, fun none => absurd none some_.ne', fun _ => by rw [goes]; rfl, by rw [goes]; rfl⟩
    · rw [leg]
      exact started none taken
    · rw [leg]
      exact kept (k.imp_right fun none => absurd none some_.ne')
    · rw [goes, State.report_leg, State.leg_modEc_ne _ _ _ _ (Ne.symm other)]
      rfl

end TopUp

/-! ### EC_CONFIG with a tail (R115) -/

section Tail
variable {s : State} {l : LegId}

/-- A tail below the segments held: the canceller cut, the last segments back in the free set, and the entry gone, before the pass. -/
def State.lowered (s : State) (l : LegId) (tail : Nat) : State :=
  { s with pool := ⟨returnNumbers ((s.leg l).ec.segments.drop tail) s.pool.free, s.pool.queue.filter fun x => x.leg ≠ l⟩ }.modEc l fun c => { c with
    segments := c.segments.take tail, taps := c.taps.take (128 * tail), state := if tail = 0 then EcState.off .disabled else c.state }

theorem State.setTail_lowered {tail : Nat} (below : tail < (s.leg l).ec.segments.length) : s.setTail l tail = (s.lowered l tail).topUpPass := by
  unfold State.setTail
  dsimp only
  rw [if_pos below]
  obtain rfl | some_ := Nat.eq_zero_or_pos tail
  · rw [if_pos rfl]
    refine congrArg State.topUpPass ?_
    have cut : (s.cutSegments l 0).dropShortfall l = { s with pool := ⟨returnNumbers ((s.leg l).ec.segments.drop 0) s.pool.free,
        s.pool.queue.filter fun x => x.leg ≠ l⟩ }.modEc l fun c => { c with segments := c.segments.take 0, taps := c.taps.take (128 * 0) } := rfl
    rw [cut, State.modEc_modEc]
    rfl
  · rw [if_neg some_.ne']
    refine congrArg State.topUpPass ?_
    unfold State.lowered
    simp only [some_.ne', if_false]
    rfl

/-- A first entry in the shortfall queue (R93). -/
theorem State.setShortfall_first (none : s.pool.queue = []) (owed : Nat) :
    s.setShortfall l owed = { s with pool := { s.pool with queue := [⟨l, owed⟩] } } := by
  unfold State.setShortfall
  rw [none]
  rfl

/-- A tail above the segments held, the shortfall queue empty, before the pass. -/
theorem State.setTail_raised {tail : Nat} (none : s.pool.queue = []) (above : (s.leg l).ec.segments.length < tail) :
    s.setTail l tail = ({ s with pool := { s.pool with queue := [⟨l, tail - (s.leg l).ec.segments.length⟩] } }.modEc l fun c =>
      { c with state := if c.state = EcState.off .disabled then EcState.off .noTaps else c.state }).topUpPass := by
  unfold State.setTail
  dsimp only
  rw [if_neg (by omega), if_neg (by omega), if_neg (by omega)]
  refine congrArg State.topUpPass ?_
  rw [State.setShortfall_first none]
  refine State.modEc_congr ?_
  dsimp only
  by_cases off : (s.leg l).ec.state = .off .disabled
  · exact (if_pos off).trans (congrArg (fun x => { (s.leg l).ec with state := x }) (if_pos off).symm)
  · exact (if_neg off).trans (congrArg (fun x => { (s.leg l).ec with state := x }) (if_neg off).symm)

end Tail

theorem exec_ecConfig_tail {s : State} (ready : Ready s) (tag : Byte) {l : LegId} (busy : (s.leg l).state ≠ .idle) (tail : Nat) :
    exec (.ecConfig tag (.fields ⟨l.val, some tail, none, none, 0⟩)) s = .next ((s.setTail l (min tail 16)).ok 0x16 tag) := by
  rw [exec_ecConfig_ready ready, ownEcConfig_named (l := l) (action := .none) (delay := none) rfl rfl rfl, if_neg busy, if_neg (fun k => nomatch k.1)]
  have done : s.ecConfigure l (some tail) none none .none = s.setTail l (min tail 16) :=
    State.modEc_self (s := s.setTail l (min tail 16)) (f := fun c => c.act .none) rfl
  rw [done]
  rfl

/-- Settles O28: the tail lowered or raised, and the pass after it (`topUp_toppedUp`). -/
theorem ecConfigTail : Obligations.EcConfigTail := by
  intro s l tag tail ready busy
  rw [exec_ecConfig_tail ready tag busy]
  refine ⟨fun none below => ?_, fun none above empty => ?_, fun x rest free n queue others owed below hfree grant ends => ?_⟩
  · rw [State.setTail_lowered below]
    unfold State.topUpPass State.lowered
    rw [none]
    have zero : (min tail 16 = 0) = (tail = 0) := propext (by omega)
    simp only [zero]
    rfl
  · rw [State.setTail_raised none above]
    unfold State.topUpPass
    have goes := topUp_none (s := { s with pool := { s.pool with queue := [⟨l, min tail 16 - (s.leg l).ec.segments.length⟩] } }.modEc l fun c =>
      { c with state := if c.state = EcState.off .disabled then EcState.off .noTaps else c.state }) (x := ⟨l, min tail 16 - (s.leg l).ec.segments.length⟩) (rest := []) (by
        show topUpGrant _ _ s.pool.free.length = 0
        rw [empty]
        unfold topUpGrant
        rw [List.length_nil, Nat.min_zero, ite_self])
    show (Host.Outcome.next (State.ok (topUp _ [⟨l, min tail 16 - (s.leg l).ec.segments.length⟩]) 0x16 tag) : Result) = _
    rw [goes, ← empty]
    rfl
  · have kept : s.pool.queue.filter (fun y => y.leg ≠ l) = x :: rest := by
      rw [← queue]
      exact List.filter_eq_self.2 fun y mem => decide_eq_true (others y mem)
    have apart : x.leg ≠ l := others x (by rw [queue]; exact List.mem_cons_self)
    have goes : s.setTail l (min tail 16) = topUp (s.lowered l (min tail 16)) (x :: rest) := by
      rw [State.setTail_lowered below]
      exact congrArg _ kept
    have pool : (s.lowered l (min tail 16)).pool.free = free := hfree.symm
    have leg : (s.lowered l (min tail 16)).leg x.leg = s.leg x.leg := State.leg_modEc_ne _ _ _ _ (Ne.symm apart)
    have own : (s.lowered l (min tail 16)).leg l = _ := State.leg_modEc_same _ _ _
    have rest_ : ∀ m, m ≠ l → (s.lowered l (min tail 16)).leg m = s.leg m := fun m other => State.leg_modEc_ne _ _ _ _ (Ne.symm other)
    have frame : s.lowered l (min tail 16) =
      { s with legs := (s.lowered l (min tail 16)).legs, pool := (s.lowered l (min tail 16)).pool } := rfl
    rw [goes]
    generalize s.lowered l (min tail 16) = u at *
    obtain ⟨topped, legs, silent, reported, whole⟩ := topUp_toppedUp (s := u) (x := x) (rest := rest) (n := n) (by rw [leg, pool]; exact grant) owed ends
    have link : u.link = s.link ∧ u.highway = s.highway := by rw [frame]; exact ⟨rfl, rfl⟩
    obtain ⟨hgrant, segments, taps, poolAfter, started, still⟩ := topped
    rw [leg] at segments taps started still reported
    rw [pool] at poolAfter segments
    refine ⟨_, rfl, ⟨grant, segments, taps, poolAfter, started, still⟩, ?_, fun m notOwn notServed => (legs m notServed).trans (rest_ m notOwn),
      fun none => ?_, fun some_ => ?_, ?_⟩
    · show (topUp u (x :: rest)).leg l = _
      rw [legs l (Ne.symm apart), own]
      have zero : (min tail 16 = 0) = (tail = 0) := propext (by omega)
      simp only [zero]
      rfl
    · show (topUp u (x :: rest)).link.placeReply _ = s.link.placeReply _
      rw [silent none, link.1]
    · show (topUp u (x :: rest)).link.placeReply _ = (s.report _).link.placeReply _
      rw [reported some_]
      unfold State.report
      rw [link.1, link.2]
    · rw [whole, frame]
      rfl

end Sys2Proof.Machine
end

section
set_option Elab.async false
/-! ## LEG_OPEN (R36, R91 to R97) -/

namespace Sys2Proof.Machine

/-! ### What the tap pool's operations reach -/

/-- What a grant leaves of a canceller. -/
structure Canceller.SameTail (c d : Canceller) : Prop where
  history : d.history = c.history
  gap : d.gap = c.gap
  nlpAttenuation : d.nlpAttenuation = c.nlpAttenuation
  nlpGain : d.nlpGain = c.nlpGain
  stats : d.stats = c.stats

theorem Canceller.granted_sameTail (c : Canceller) (taken : List Nat) : c.SameTail (c.granted taken) := by
  unfold Canceller.granted
  dsimp only
  split
  · rw [Canceller.startPoint_eq]
    exact ⟨rfl, rfl, rfl, rfl, rfl⟩
  · exact ⟨rfl, rfl, rfl, rfl, rfl⟩

/-- The pool's operations reach the pool, the cancellers and the link alone. -/
structure PoolStep (s t : State) : Prop where
  frame : t = { s with legs := t.legs, pool := t.pool, link := t.link }
  legs : ∀ m, ∃ c, t.leg m = { s.leg m with ec := c } ∧ (s.leg m).ec.SameTail c

namespace PoolStep
variable {s t u : State}

theorem refl (s : State) : PoolStep s s := ⟨rfl, fun m => ⟨(s.leg m).ec, rfl, rfl, rfl, rfl, rfl, rfl⟩⟩

theorem trans (h : PoolStep s t) (k : PoolStep t u) : PoolStep s u := by
  refine ⟨?_, fun m => ?_⟩
  · rw [k.frame, h.frame]
  · obtain ⟨c, e, history, gap, att, gain, stats⟩ := h.legs m
    obtain ⟨d, e', history', gap', att', gain', stats'⟩ := k.legs m
    rw [e] at e' history' gap' att' gain' stats'
    exact ⟨d, e', history'.trans history, gap'.trans gap, att'.trans att, gain'.trans gain, stats'.trans stats⟩

theorem pool (s : State) (x : TapPool) (b : Link) : PoolStep s { s with pool := x, link := b } :=
  ⟨rfl, fun m => ⟨(s.leg m).ec, rfl, rfl, rfl, rfl, rfl, rfl⟩⟩

theorem modEc (s : State) (l : LegId) {f : Canceller → Canceller} (h : ∀ c : Canceller, c.SameTail (f c)) : PoolStep s (s.modEc l f) := by
  refine ⟨rfl, fun m => ?_⟩
  by_cases own : l = m
  · subst own
    exact ⟨_, State.leg_modEc_same _ _ _, h _⟩
  · exact ⟨(s.leg m).ec, State.leg_modEc_ne _ _ _ _ own, rfl, rfl, rfl, rfl, rfl⟩

theorem grantSegments (s : State) (l : LegId) (n : Nat) : PoolStep s (s.grantSegments l n) :=
  (pool s { s.pool with free := s.pool.free.drop n } s.link).trans (modEc _ _ fun c => c.granted_sameTail _)

theorem topUp (queue : List Shortfall) (s : State) : PoolStep s (topUp s queue) := by
  induction queue generalizing s with
  | nil => exact pool s { s.pool with queue := [] } s.link
  | cons x rest ih =>
    have served : ∀ n made, PoolStep s ((s.grantSegments x.leg n).report made) := fun n made =>
      (grantSegments s x.leg n).trans (pool _ (s.grantSegments x.leg n).pool _)
    obtain e | ⟨_, e⟩ | ⟨_, e⟩ := topUp_cons_cases s x rest <;> rw [e]
    · exact pool s { s.pool with queue := x :: rest } s.link
    · exact (served _ _).trans (ih _)
    · exact (served _ _).trans (pool _ _ _)

end PoolStep

/-! ### Music sources that an event leaves -/

section Music
variable {s t : State}

/-- A leg's music source is read from its state, origin and session, from the plans and from the engines. -/
theorem State.musicSource_of_leg {m : LegId} (state : (t.leg m).state = (s.leg m).state) (origin : (t.leg m).origin = (s.leg m).origin)
    (session : (t.leg m).session = (s.leg m).session) (plans : t.plans = s.plans) (engines : t.engines = s.engines) :
    t.musicSource m = s.musicSource m := by
  have plan : t.sessionPlan m = s.sessionPlan m := by
    unfold State.sessionPlan
    rw [state, origin, session]
  have music : t.planMusic = s.planMusic := by
    have read : t.planMusic = State.planMusic { s with plans := t.plans, engines := t.engines } := rfl
    rw [read, plans, engines]
  unfold State.musicSource
  rw [plan, music]

/-- No notice falls where every leg with a session before and after keeps its music source. -/
theorem State.noticeMusic_of_kept (h : ∀ m, s.hasSession m = true → t.hasSession m = true → s.musicSource m = t.musicSource m) :
    t.noticeMusic s = t := by
  have key : tmap (fun _ (x : Leg) => x) t.legs = t.legs := by
    apply Vector.ext
    intro i hi
    simp [tmap, tget]
  have none : ∀ m, ¬ (s.hasSession m = true ∧ t.hasSession m = true ∧ s.musicSource m ≠ t.musicSource m) := fun m ⟨before, after, other⟩ =>
    other (h m before after)
  simp only [State.noticeMusic, none, if_false]
  exact congrArg (fun x => { t with legs := x }) key

end Music

/-! ### The opening -/

section Open
variable {s : State} {l : LegId} {tail : Nat} {mode : DelayMode} {d : Nat}

/-- The state as the leg's open column leaves it (R96), before the pool grants. -/
def State.opened (s : State) (l : LegId) (cause : OffCause) (mode : DelayMode) (d : Nat) : State :=
  s.modLeg l fun x => { x with
    state := .opened, attached := none, origin := none, session := none, resume := none, last := none
    ec := x.ec.openColumn cause mode d }

theorem State.openEc_opened (cause : OffCause) : ((s.modLeg l fun x => { x with
    state := .opened, attached := none, origin := none, session := none, resume := none, last := none }).modEc l fun c => c.openColumn cause mode d) =
    s.opened l cause mode d := State.modLeg_modLeg _ _ _ _

/-- The grant of a tail above 0, with its shortfall and its report, before the pass (R92). -/
def State.openGranted (s : State) (l : LegId) (tail : Nat) (mode : DelayMode) (d : Nat) : State :=
  let n := openGrant s.pool.free.length tail
  ((if n < tail then (((s.opened l .noTaps mode d).grantSegments l n).setShortfall l (tail - n))
    else (s.opened l .noTaps mode d).grantSegments l n).report (.ecTaps l n (tail - n)))

theorem State.openEc_zero : ((s.modLeg l fun x => { x with
    state := .opened, attached := none, origin := none, session := none, resume := none, last := none }).openEc l 0 mode d) =
    s.opened l .disabled mode d := (if_pos rfl).trans (State.openEc_opened _)

theorem State.openEc_some (some_ : 0 < tail) : ((s.modLeg l fun x => { x with
    state := .opened, attached := none, origin := none, session := none, resume := none, last := none }).openEc l tail mode d) =
    (s.openGranted l tail mode d).topUpPass := by
  refine (if_neg some_.ne').trans ?_
  dsimp only
  rw [State.openEc_opened]
  rfl

/-- Whatever the pool grants at an open, it follows the open column by the pool's operations. -/
theorem State.openEc_step : ∃ cause, PoolStep (s.opened l cause mode d) ((s.modLeg l fun x => { x with
    state := .opened, attached := none, origin := none, session := none, resume := none, last := none }).openEc l tail mode d) := by
  obtain rfl | some_ := Nat.eq_zero_or_pos tail
  · rw [State.openEc_zero]
    exact ⟨.disabled, PoolStep.refl _⟩
  · rw [State.openEc_some some_]
    refine ⟨.noTaps, PoolStep.trans ?_ (PoolStep.topUp _ _)⟩
    unfold State.openGranted
    dsimp only
    split
    · exact (PoolStep.grantSegments _ _ _).trans (PoolStep.pool _ _ _)
    · exact (PoolStep.grantSegments _ _ _).trans (PoolStep.pool _ (State.grantSegments _ _ _).pool _)

end Open

section Granted
variable {s : State} {l : LegId} {tail : Nat} {mode : DelayMode} {d : Nat}

/-- The start point's state and D in the open column's canceller (R96, R97). -/
theorem State.opened_leg (cause : OffCause) : (s.opened l cause mode d).leg l =
    { state := .opened, attached := none, origin := none, session := none, resume := none, last := none
      ec := (s.leg l).ec.openColumn cause mode d } := State.leg_modLeg_same _ _ _

/-- The canceller's segments and state after the grant of R92. -/
theorem State.openGranted_leg : ((s.openGranted l tail mode d).leg l).ec =
    ((s.leg l).ec.openColumn .noTaps mode d).granted (s.pool.free.take (openGrant s.pool.free.length tail)) := by
  have leg : ((s.opened l .noTaps mode d).grantSegments l (openGrant s.pool.free.length tail)).leg l = { (s.opened l .noTaps mode d).leg l with
      ec := ((s.opened l .noTaps mode d).leg l).ec.granted (s.pool.free.take (openGrant s.pool.free.length tail)) } :=
    State.leg_modEc_same _ _ _
  rw [State.opened_leg] at leg
  unfold State.openGranted
  dsimp only
  split
  · exact congrArg Leg.ec leg
  · exact congrArg Leg.ec leg

theorem State.openGranted_link : (s.openGranted l tail mode d).link =
    (s.report (.ecTaps l (openGrant s.pool.free.length tail) (tail - openGrant s.pool.free.length tail))).link := by
  unfold State.openGranted
  dsimp only
  split <;> rfl

theorem State.openGranted_whole (none : s.pool.queue = []) (enough : openGrant s.pool.free.length tail = tail) :
    (s.openGranted l tail mode d).pool = ⟨s.pool.free.drop tail, []⟩ := by
  unfold State.openGranted
  dsimp only
  rw [enough, if_neg (lt_irrefl _), ← none]
  rfl

theorem State.openGranted_short (none : s.pool.queue = []) {n : Nat} (grant : openGrant s.pool.free.length tail = n) (short : n < tail) :
    (s.openGranted l tail mode d).pool = ⟨s.pool.free.drop n, [⟨l, tail - n⟩]⟩ := by
  unfold State.openGranted
  dsimp only
  rw [grant, if_pos short, State.setShortfall_first (show ((s.opened l .noTaps mode d).grantSegments l n).pool.queue = [] from none)]
  rfl

/-- The pass after an open gives the leg itself nothing more, and there is no other to give to (R92, R94). -/
theorem State.openGranted_topUp {u : State} (h : u.pool.queue = [] ∨ ∃ owed, u.pool.queue = [⟨l, owed⟩] ∧
      topUpGrant (u.leg l).ec.segments.length owed u.pool.free.length = 0) : u.topUpPass = u := by
  unfold State.topUpPass
  obtain none | ⟨owed, one, nothing⟩ := h
  · rw [none]
    show { u with pool := { u.pool with queue := [] } } = u
    rw [← none]
  · rw [one, topUp_none nothing, ← one]

theorem openGrant_whole {free : Nat} (enough : tail ≤ free) : openGrant free tail = tail := if_pos enough

theorem openGrant_most {free : Nat} (short : free < tail) (some_ : 2 ≤ free) : openGrant free tail = free :=
  (if_neg (not_le.2 short)).trans (if_pos some_)

theorem openGrant_none {free : Nat} (short : free < tail) (few : free < 2) : openGrant free tail = 0 :=
  (if_neg (not_le.2 short)).trans (if_neg (not_le.2 few))

theorem State.openGranted_settled (none : s.pool.queue = []) : (s.openGranted l tail mode d).topUpPass = s.openGranted l tail mode d := by
  refine State.openGranted_topUp (l := l) ?_
  obtain short | enough := Nat.lt_or_ge s.pool.free.length tail
  · refine .inr ?_
    rw [State.openGranted_leg]
    obtain ⟨segments, _⟩ := ((s.leg l).ec.openColumn .noTaps mode d).granted_fields (s.pool.free.take (openGrant s.pool.free.length tail))
    rw [segments]
    obtain few | most := Nat.lt_or_ge s.pool.free.length 2
    · rw [State.openGranted_short none (openGrant_none short few) (by omega), openGrant_none short few]
      refine ⟨_, rfl, if_pos ⟨rfl, ?_⟩⟩
      show min (tail - 0) s.pool.free.length < min 2 (tail - 0)
      omega
    · rw [State.openGranted_short none (openGrant_most short most) short, List.drop_length]
      refine ⟨_, rfl, ?_⟩
      unfold topUpGrant
      rw [List.length_nil, Nat.min_zero, ite_self]
  · exact .inl (by rw [State.openGranted_whole none (openGrant_whole enough)])

theorem State.openGranted_leg_ne {k : LegId} (other : k ≠ l) : (s.openGranted l tail mode d).leg k = s.leg k := by
  have opened : (s.opened l .noTaps mode d).leg k = s.leg k := State.leg_modLeg_ne _ _ _ _ (Ne.symm other)
  have granted : ((s.opened l .noTaps mode d).grantSegments l (openGrant s.pool.free.length tail)).leg k = (s.opened l .noTaps mode d).leg k :=
    State.leg_modEc_ne _ _ _ _ (Ne.symm other)
  unfold State.openGranted
  dsimp only
  split <;> exact granted.trans opened

end Granted

/-- What an open leaves in the leg's record whatever the pool grants, and what it reaches (R36, R96). -/
theorem State.openLeg_frame (s : State) (l : LegId) (tail : Nat) (mode : DelayMode) (d : Nat) : ∃ u, s.openLeg l tail mode d = u.rederiveAll ∧
    u = ((s.modLeg l fun x => { x with
      state := .opened, attached := none, origin := none, session := none, resume := none, last := none }).openEc l tail mode d) ∧
    ∃ cause, PoolStep (s.opened l cause mode d) u := by
  obtain ⟨cause, step⟩ := State.openEc_step (s := s) (l := l) (tail := tail) (mode := mode) (d := d)
  refine ⟨_, congrArg State.rederiveAll (State.noticeMusic_of_kept fun m before after => ?_), rfl, cause, step⟩
  generalize ((s.modLeg l fun x => { x with
    state := .opened, attached := none, origin := none, session := none, resume := none, last := none }).openEc l tail mode d) = u at *
  obtain ⟨c, leg, _⟩ := step.legs m
  by_cases own : m = l
  · subst own
    rw [State.opened_leg] at leg
    unfold State.hasSession at after
    rw [leg] at after
    exact nomatch after
  · rw [State.opened, State.leg_modLeg_ne _ _ _ _ (Ne.symm own)] at leg
    exact (State.musicSource_of_leg (by rw [leg]) (by rw [leg]) (by rw [leg]) (by rw [step.frame]; rfl) (by rw [step.frame]; rfl)).symm

theorem ownLegOpen_named {s : State} {l : LegId} {mode : DelayField} {m : DelayMode} {d : Nat} (read : delayOf mode = some (m, d)) (tail : Nat) :
    ownLegOpen ⟨l.val, tail, mode⟩ s = if (s.leg l).state = .idle then accept (s.openLeg l (min tail 16) m d) else refuse s .busy := by
  unfold ownLegOpen
  dsimp only
  rw [toId_val, read]
  rfl

/-- Lists re-derived from lists that stand as they did. -/
theorem Rederived.of_lists {s s' t : State} (h : Rederived s t) (ears : s.ears = s'.ears) (sends : s.sends = s'.sends) : Rederived s' t := by
  obtain ⟨ear, send⟩ := h
  exact ⟨fun p => by rw [← ears]; exact ear p, fun l => by rw [← sends]; exact send l⟩

/-- Settles O18: the open column with what the pool grants (`State.openGranted`), the pass after it giving nothing more. -/
theorem legOpen : Obligations.LegOpen := by
  intro s l tag tail ready
  refine ⟨fun busy mode known => ?_, fun k => ?_, fun mode d setting idle => ?_⟩
  · have read : ∃ m d, delayOf mode = some (m, d) := by
      cases mode with
      | auto => exact ⟨.auto, 0, rfl⟩
      | fixed d => exact ⟨.fixed, min d Config.maxDelay, rfl⟩
      | other k => exact absurd rfl (known k)
    obtain ⟨m, d, read⟩ := read
    rw [exec_legOpen_ready ready, ownLegOpen_named read, if_neg busy]
    rfl
  · rw [exec_legOpen_ready ready]
    unfold ownLegOpen
    dsimp only
    rw [toId_val]
    rfl
  · have read : ∃ m e, delayOf mode = some (m, e) ∧ (m = .auto ↔ mode = .auto) ∧ (m ≠ .auto → e = min d 32) := by
      obtain ⟨rfl, rfl⟩ | rfl := setting
      · exact ⟨.auto, 0, rfl, iff_of_true rfl rfl, fun k => absurd rfl k⟩
      · exact ⟨.fixed, min d 32, rfl, iff_of_false nofun nofun, fun _ => rfl⟩
    obtain ⟨m, e, read, auto, delay⟩ := read
    obtain ⟨u, goes, opening, cause, step⟩ := s.openLeg_frame l (min tail 16) m e
    have rederived : Rederived u (s.openLeg l (min tail 16) m e) := opening ▸ State.finish_rederived _ s
    obtain ⟨c, leg, history, gap, att, gain, stats⟩ := step.legs l
    have ears : u.ears = s.ears := by rw [step.frame]; rfl
    have sends : u.sends = s.sends := by rw [step.frame]; rfl
    have frame : u = { s with legs := u.legs, pool := u.pool, link := u.link } := by
      conv_lhs => rw [step.frame]
      rfl
    rw [State.opened_leg] at leg history gap att gain stats
    have others : ∀ k, k ≠ l → (s.opened l .noTaps m e).leg k = s.leg k := fun k other => State.leg_modLeg_ne _ _ _ _ (Ne.symm other)
    have some_tail : 0 < min tail 16 → s.pool.queue = [] → u = s.openGranted l (min tail 16) m e := fun some_ none =>
      opening.trans ((State.openEc_some some_).trans (State.openGranted_settled none))
    have ec : 0 < min tail 16 → s.pool.queue = [] → (u.leg l).ec =
        ((s.leg l).ec.openColumn .noTaps m e).granted (s.pool.free.take (openGrant s.pool.free.length (min tail 16))) := fun some_ none => by
      rw [some_tail some_ none]
      exact State.openGranted_leg
    rw [exec_legOpen_ready ready, ownLegOpen_named read, if_pos idle]
    refine ⟨(s.openLeg l (min tail 16) m e).ok 0x10 tag, rfl, ?_⟩
    rw [goes] at rederived ⊢
    have same : ∀ k, (u.rederiveAll.ok 0x10 tag).leg k = u.leg k := fun _ => rfl
    rw [same l]
    refine ⟨by rw [leg], by rw [leg], by rw [leg], by rw [leg], by rw [leg], by rw [leg], by rw [leg]; exact history, by rw [leg]; exact gap,
      by rw [leg]; exact att, by rw [leg]; exact gain, by rw [leg]; exact stats, fun zero => ?_, fun some_ none enough => ?_,
      fun none short most => ?_, fun none short few => ?_, fun none k other => ?_, rederived.of_lists ears sends, ?_⟩
    · have closed : u = s.opened l .disabled m e := by
        rw [opening, show min tail 16 = 0 by omega]
        exact State.openEc_zero
      rw [closed, State.opened_leg]
      exact ⟨rfl, rfl, rfl, rfl⟩
    · have positive : 0 < min tail 16 := by omega
      obtain ⟨segments, taps, start, _⟩ := ((s.leg l).ec.openColumn .noTaps m e).granted_fields (s.pool.free.take (min tail 16))
      have length : (s.pool.free.take (min tail 16)).length = min tail 16 := by rw [List.length_take, min_eq_left enough]
      obtain ⟨state, bulk⟩ := start rfl (List.length_pos_iff.1 (by rw [length]; exact positive))
      rw [ec positive none, openGrant_whole enough, segments, taps, length, state, bulk]
      refine ⟨List.nil_append _, List.nil_append _, ?_, ?_, ?_, ?_⟩
      · show u.pool = _
        rw [some_tail positive none, State.openGranted_whole none (openGrant_whole enough)]
      · show (if m = .auto then _ else _) = _
        simp only [auto]
      · show (if m = .auto then 0 else e) = _
        by_cases isAuto : m = .auto
        · rw [if_pos isAuto, if_pos (auto.1 isAuto)]
        · rw [if_neg isAuto, if_neg (auto.not.1 isAuto), delay isAuto]
      · show u.link.placeReply _ = _
        rw [some_tail positive none, State.openGranted_link, openGrant_whole enough, Nat.sub_self]
        rfl
    · have positive : 0 < min tail 16 := by omega
      obtain ⟨segments, _⟩ := ((s.leg l).ec.openColumn .noTaps m e).granted_fields (s.pool.free.take s.pool.free.length)
      rw [ec positive none, openGrant_most short most, segments, List.take_length]
      refine ⟨List.nil_append _, ?_, ?_⟩
      · show u.pool = _
        rw [some_tail positive none, State.openGranted_short none (openGrant_most short most) short, List.drop_length]
      · show u.link.placeReply _ = _
        rw [some_tail positive none, State.openGranted_link, openGrant_most short most]
        rfl
    · have positive : 0 < min tail 16 := by omega
      obtain ⟨segments, _, _, kept⟩ := ((s.leg l).ec.openColumn .noTaps m e).granted_fields (s.pool.free.take 0)
      rw [ec positive none, openGrant_none short few, segments, (kept (.inr rfl)).1]
      refine ⟨rfl, rfl, ?_, ?_⟩
      · show u.pool = _
        rw [some_tail positive none, State.openGranted_short none (openGrant_none short few) positive]
        rfl
      · show u.link.placeReply _ = _
        rw [some_tail positive none, State.openGranted_link, openGrant_none short few]
        rfl
    · rw [same k]
      obtain zero | positive := Nat.eq_zero_or_pos (min tail 16)
      · rw [opening, zero, State.openEc_zero]
        exact State.leg_modLeg_ne _ _ _ _ (Ne.symm other)
      · rw [some_tail positive none]
        exact State.openGranted_leg_ne other
    · obtain ⟨legs, pool, link, rfl⟩ : ∃ legs pool link, u = { s with legs := legs, pool := pool, link := link } := ⟨_, _, _, frame⟩
      rfl

end Sys2Proof.Machine
end

section
set_option Elab.async false
/-! ## Supervision, and the highway with its periods (R29 to R34, R178 to R180) -/

namespace Sys2Proof.Machine

/-! ### Supervision -/

section Supervision
variable {s : State} {q : PosId}

/-- Notice to the agent's ACTIVE leg where it is due (R179). -/
def State.noticeAgent (s : State) (a : PosId) (due : Bool) : State :=
  if due then (s.activeLeg a).elim s s.notice else s

/-- A supervision record changed, with the notice due (R178 to R180). -/
def State.supervising (s : State) (q a : PosId) (record : Option Supervision) (due : Bool) : State :=
  (s.noticeAgent a due).modPos q fun x => { x with supervision := record }

theorem State.noticeAgent_leg (s : State) (a : PosId) (due : Bool) (l : LegId) : (s.noticeAgent a due).leg l =
    if s.activeLeg a = some l ∧ due = true then { s.leg l with ec := { (s.leg l).ec with settle := 25 } } else s.leg l := by
  unfold State.noticeAgent
  cases due with
  | false => rw [if_neg Bool.false_ne_true, if_neg fun k => Bool.false_ne_true k.2]
  | true =>
    rw [if_pos rfl]
    cases e : s.activeLeg a with
    | none => exact (if_neg fun k => nomatch k.1).symm
    | some m =>
      rw [Option.elim_some]
      unfold State.notice
      by_cases own : m = l
      · subst own
        rw [State.leg_modEc_same, if_pos ⟨rfl, rfl⟩]
        rfl
      · rw [State.leg_modEc_ne _ _ _ _ own, if_neg fun k => own (Option.some.inj k.1)]

theorem State.noticeAgent_frame (s : State) (a : PosId) (due : Bool) : s.noticeAgent a due = { s with legs := (s.noticeAgent a due).legs } := by
  unfold State.noticeAgent
  split
  · cases s.activeLeg a <;> rfl
  · rfl

/-- No music source changes with a supervision record, so nothing more is noticed (R153). -/
theorem State.supervising_finish (a : PosId) (record : Option Supervision) (due : Bool) :
    (s.supervising q a record due).finish s = (s.supervising q a record due).rederiveAll := by
  have frame := s.noticeAgent_frame a due
  have plans : (s.supervising q a record due).plans = s.plans := by
    show (s.noticeAgent a due).plans = _
    rw [frame]
  have engines : (s.supervising q a record due).engines = s.engines := by
    show (s.noticeAgent a due).engines = _
    rw [frame]
  refine congrArg State.rederiveAll (State.noticeMusic_of_kept fun m _ _ => ?_)
  have leg : (s.supervising q a record due).leg m = (s.noticeAgent a due).leg m := rfl
  refine (State.musicSource_of_leg ?_ ?_ ?_ plans engines).symm
  all_goals
    rw [leg, s.noticeAgent_leg a due m]
    split <;> rfl

/-- What a changed supervision record leaves, with the feeds re-derived (R53, R56, R59). -/
theorem State.supervising_frame (a : PosId) (record : Option Supervision) (due : Bool) :
    let t := (s.supervising q a record due).finish s
    t.pos q = { s.pos q with supervision := record } ∧ (∀ p, p ≠ q → t.pos p = s.pos p) ∧
      (∀ l, t.leg l = if s.activeLeg a = some l ∧ due = true then { s.leg l with ec := { (s.leg l).ec with settle := 25 } } else s.leg l) ∧
      Rederived s t ∧ t = { s with positions := t.positions, legs := t.legs, ears := t.ears, sends := t.sends } := by
  have rederived := State.finish_rederived (s.supervising q a record due) s
  have leg := s.noticeAgent_leg a due
  obtain ⟨legs, e⟩ : ∃ legs, s.noticeAgent a due = { s with legs := legs } := ⟨_, s.noticeAgent_frame a due⟩
  rw [State.supervising_finish] at rederived ⊢
  unfold State.supervising at rederived ⊢
  rw [e] at rederived leg ⊢
  exact ⟨by rw [State.rederiveAll_pos, State.pos_modPos_same]; rfl, fun p other => by
    rw [State.rederiveAll_pos, State.pos_modPos_ne _ _ _ _ (Ne.symm other)]; rfl, leg, rederived.of_lists rfl rfl, rfl⟩

theorem State.setSupervision_eq (a : PosId) (mode : SuperMode) (was : Bool) :
    s.setSupervision q a mode was = (s.supervising q a (some ⟨a, mode⟩) (decide (was ≠ decide (mode = .barge)))).finish s := by
  unfold State.setSupervision State.supervising State.noticeAgent
  simp only [decide_eq_true_eq]
  split
  · cases s.activeLeg a <;> rfl
  · rfl

theorem State.endSupervision_eq {r : Supervision} (e : (s.pos q).supervision = some r) :
    s.endSupervision q = s.supervising q r.agent none (decide (r.mode = .barge)) := by
  unfold State.endSupervision State.supervising State.noticeAgent
  rw [e]
  simp only [decide_eq_true_eq]
  split
  · cases s.activeLeg r.agent <;> rfl
  · rfl

theorem State.maySupervise_iff {a : PosId} : s.maySupervise q a = true ↔ (s.pos q).port.state = .live ∧ (s.pos a).port.state = .live ∧ q ≠ a ∧
    (s.pos q).leg = none ∧ s.supervisorOf q = none ∧ (s.pos a).supervision = none ∧ s.supervisorOf a = none := by
  unfold State.maySupervise State.isLive State.isSupervised State.isSupervisor
  simp only [Bool.and_eq_true, decide_eq_true_iff, Bool.not_eq_true', Option.isSome_eq_false_iff, Option.isNone_iff_eq_none]
  tauto

theorem superModeOf_place (mode : SuperMode) : superModeOf mode.place = some mode := by
  cases mode <;> rfl

/-- The owner's answer once the fields name positions and a mode (R178). -/
theorem ownSupervise_named (a : PosId) (mode : SuperMode) : ownSupervise ⟨q.val, a.val, mode.place⟩ s =
    ((s.pos q).supervision.elim (if s.maySupervise q a then accept (s.setSupervision q a mode false) else refuse s .busy) fun r =>
      if r.agent = a then if r.mode = mode then accept s else accept (s.setSupervision q a mode (r.mode = .barge)) else refuse s .busy) := by
  unfold ownSupervise
  dsimp only
  rw [toId_val, toId_val, superModeOf_place]
  dsimp only
  cases (s.pos q).supervision <;> rfl

theorem ownSupervise_unnamed {k m n : Nat} (h : 32 ≤ k ∨ 32 ≤ m ∨ 3 ≤ n) : ownSupervise ⟨k, m, n⟩ s = refuse s .range := by
  have mode : 3 ≤ n → superModeOf n = none := fun h => by
    unfold superModeOf
    rw [if_neg (by omega), if_neg (by omega), if_neg (by omega)]
  unfold ownSupervise
  dsimp only
  split
  · rename_i supervisor agent named
    obtain h | h | h := h
    · exact nomatch (toId_none h).symm.trans supervisor
    · exact nomatch (toId_none h).symm.trans agent
    · exact nomatch (mode h).symm.trans named
  · rfl

end Supervision

/-- Settles O47: the owner's refusals in order, and the record changed with its notice (`State.supervising_frame`). -/
theorem supervising : Obligations.Supervising := by
  intro s q a tag ready
  refine ⟨fun k m n beyond => ?_, ?_, fun none => ?_, fun r some_ => ?_⟩
  · rw [exec_supervise_ready ready, ownSupervise_unnamed beyond]
    rfl
  · rintro _ mode rfl
    rw [exec_supervise_ready ready, ownSupervise_named]
    refine ⟨fun r some_ other => ?_, fun none refused => ?_, fun same => ?_, fun was begins => ?_⟩
    · rw [some_, Option.elim_some, if_neg other]
      rfl
    · rw [none, Option.elim_none, if_neg (State.maySupervise_iff.not.2 refused)]
      rfl
    · rw [same, Option.elim_some, if_pos rfl, if_pos rfl]
      rfl
    · have goes : ((s.pos q).supervision.elim (if s.maySupervise q a then accept (s.setSupervision q a mode false) else refuse s .busy) fun r =>
          if r.agent = a then if r.mode = mode then accept s else accept (s.setSupervision q a mode (r.mode = .barge)) else refuse s .busy) =
          accept (s.setSupervision q a mode was) := by
        obtain ⟨none, rfl, may⟩ | ⟨old, some_, other, rfl⟩ := begins
        · rw [none, Option.elim_none, if_pos (State.maySupervise_iff.2 may)]
        · rw [some_, Option.elim_some, if_pos rfl, if_neg other]
      rw [goes, State.setSupervision_eq]
      obtain ⟨pos, others, leg, rederived, frame⟩ := State.supervising_frame (s := s) (q := q) a (some ⟨a, mode⟩) (decide (was ≠ decide (mode = .barge)))
      simp only [decide_eq_true_eq] at leg
      generalize (s.supervising q a (some ⟨a, mode⟩) (decide (was ≠ decide (mode = .barge)))).finish s = t at *
      obtain ⟨positions, legs, ears, sends, rfl⟩ : ∃ positions legs ears sends, t = { s with
          positions := positions, legs := legs, ears := ears, sends := sends } := ⟨_, _, _, _, frame⟩
      exact ⟨_, rfl, pos, others, leg, rederived, rfl, rfl⟩
  · rw [exec_superviseEnd_ready ready]
    unfold ownSuperviseEnd
    rw [withPosition_val, if_neg (by unfold State.isSupervisor; rw [none]; nofun)]
    rfl
  · rw [exec_superviseEnd_ready ready]
    unfold ownSuperviseEnd
    rw [withPosition_val, if_pos (by unfold State.isSupervisor; rw [some_]; rfl), State.endSupervision_eq some_]
    obtain ⟨pos, others, leg, rederived, frame⟩ := State.supervising_frame (s := s) (q := q) r.agent none (decide (r.mode = .barge))
    simp only [decide_eq_true_eq] at leg
    generalize (s.supervising q r.agent none (decide (r.mode = .barge))).finish s = t at *
    obtain ⟨positions, legs, ears, sends, rfl⟩ : ∃ positions legs ears sends, t = { s with
        positions := positions, legs := legs, ears := ears, sends := sends } := ⟨_, _, _, _, frame⟩
    exact ⟨_, rfl, pos, others, leg, rederived, rfl, rfl⟩

/-! ### The highway -/

section Period
variable {s : State}

@[simp] theorem tget_ofFn {α : Type} {n : Nat} (f : Fin n → α) (i : Fin n) : tget (Vector.ofFn f) i = f i := by
  simp [tget]

/-- A start of a period, part by part (R31 to R34, R85). -/
theorem State.startPeriod_parts (s : State) :
    s.startPeriod.highway.period.toNat = (s.highway.period.toNat + 1) % 4294967296 ∧
    s.startPeriod.highway.valid = (s.highway.inSyncSoFar && decide (s.highway.received.length = 64)) ∧
    (s.startPeriod.highway.valid = true →
      (∀ l : LegId, tget s.startPeriod.highway.receive l = s.highway.received.reverse.map fun f => f.receive.getD l.val 0) ∧
      ∀ k : ChanId, tget s.startPeriod.sources.program k = s.highway.received.reverse.map fun f => f.program.getD k.val 0) ∧
    (s.startPeriod.highway.valid = false →
      (∀ l, tget s.startPeriod.highway.receive l = zeroBlock) ∧ ∀ k, tget s.startPeriod.sources.program k = zeroBlock) ∧
    (∀ p, s.startPeriod.pos p = { s.pos p with vadBefore := if (s.pos p).port.state = .live then (s.pos p).ns.vad else .quiet }) ∧
    (∀ l, s.startPeriod.leg l = { s.leg l with ec := { (s.leg l).ec with joined := false } }) := by
  have receive : ∀ l, tget s.startPeriod.highway.receive l = s.highway.collected HighwayFrame.receive l.val := fun l => tget_ofFn _ l
  have program : ∀ k, tget s.startPeriod.sources.program k = s.highway.collected HighwayFrame.program k.val := fun k => tget_ofFn _ k
  refine ⟨BitVec.toNat_add _ _, rfl, fun valid => ⟨fun l => ?_, fun k => ?_⟩, fun valid => ⟨fun l => ?_, fun k => ?_⟩, fun p => tget_tmap _ _ p,
    fun l => tget_tmap _ _ l⟩
  · exact (receive l).trans (if_pos valid)
  · exact (program k).trans (if_pos valid)
  · exact (receive l).trans (if_neg (Bool.eq_false_iff.1 valid))
  · exact (program k).trans (if_neg (Bool.eq_false_iff.1 valid))

theorem State.highwayFrame_inSync (state : s.highway.state = .inSync) (f : HighwayFrame) (placed : Bool) :
    s.highwayFrame f placed = { s with highway := { s.highway with
      sendPins := s.highway.sending.toList.map (fun b => b.getD s.highway.received.length 0), received := f :: s.highway.received } } := by
  have due : s.highway.sendSamples = s.highway.sending.toList.map fun b => b.getD s.highway.received.length 0 := by
    unfold Highway.sendSamples
    rw [state]
  unfold State.highwayFrame
  split
  · unfold Highway.takeFrame
    rw [due]
  · rename_i other
    exact nomatch state.symm.trans other

theorem State.highwayFrame_holdover (state : s.highway.state = .holdover) {placed : Bool} (h : placed = false ∨ s.highway.pulses + 1 < 16)
    (f : HighwayFrame) : s.highwayFrame f placed = { s with highway := { s.highway with
      sendPins := List.replicate 64 0, pulses := if placed then s.highway.pulses + 1 else 0 } } := by
  unfold State.highwayFrame
  rw [state]
  dsimp only
  cases placed with
  | false => rfl
  | true =>
    rw [if_pos rfl, if_pos rfl, if_neg (show ¬ Config.syncPulses ≤ s.highway.pulses + 1 from not_le.2 (h.resolve_left nofun))]
    rfl

theorem State.highwayFrame_regain (state : s.highway.state = .holdover) (full : 16 ≤ s.highway.pulses + 1) (f : HighwayFrame) :
    s.highwayFrame f true = s.regain f := by
  unfold State.highwayFrame
  rw [state]
  exact if_pos full

end Period

/-- Settles O17: the start of a period part by part (`State.startPeriod_parts`), and a frame by the state of the highway. -/
theorem highwayAndPeriods : Obligations.HighwayAndPeriods := by
  refine ⟨fun s => ?_, fun s f placed => ⟨fun state => ?_, fun state h => ?_⟩, fun s => ⟨fun state => ?_, fun state => ?_⟩, fun s f state full => ?_⟩
  · obtain ⟨period, valid, whole, broken, pos, leg⟩ := s.startPeriod_parts
    exact ⟨s.startPeriod, rfl, period, rfl, rfl, rfl, rfl, rfl, valid, whole, broken, fun p => tget_replicate _ p, fun l => tget_replicate _ l,
      fun e => tget_replicate _ e, pos, leg, rfl⟩
  · exact congrArg Host.Outcome.next (State.highwayFrame_inSync state f placed)
  · exact congrArg Host.Outcome.next (State.highwayFrame_holdover state h f)
  · exact congrArg Host.Outcome.next (if_neg (by rw [state]; nofun))
  · exact congrArg Host.Outcome.next (if_pos state)
  · have frame := State.highwayFrame_regain state full f
    have event : exec (.syncRegained f) s = .next (s.regain f) := by
      rw [← frame]
      exact congrArg Host.Outcome.next (if_pos ⟨state, full⟩)
    obtain ⟨period, valid, _, _, pos, leg⟩ := State.startPeriod_parts
      ({ s with highway := { s.highway with state := .inSync, pulses := 0 } }.report (.highwaySync .inSync s.highway.period))
    exact ⟨s.regain f, event, congrArg Host.Outcome.next frame, rfl, rfl, period, rfl, rfl, valid, rfl, pos, leg, rfl⟩

end Sys2Proof.Machine
end

section
set_option Elab.async false
/-! ## A chain of happenings as a walk of small changes (R141 to R144, R150 to R174) -/

namespace Sys2Proof.Machine

/-- The small changes that a chain of happenings is made of. `ends` says whose sessions they may end. -/
inductive Atom (ends : LegId → Prop) : State → State → Prop
  /-- Feeds, engines, the arbiter, and plans but for their records. -/
  | records (s : State) (ears : Table (List Feed) 32) (sends : Table (List Feed) 64) (plans : Table Plan 16) (engines : Table Engine 24)
      (arbiter : Arbiter) (kept : ∀ h, (tget plans h).record = (s.plan h).record) :
      Atom ends s { s with ears := ears, sends := sends, plans := plans, engines := engines, arbiter := arbiter }
  /-- The pending fetch requests. -/
  | fetches (s : State) (f : List EngId) : Atom ends s { s with memory := { s.memory with fetches := f } }
  /-- The memory port settles. -/
  | settle (s : State) : Atom ends s s.settlePort
  /-- A clip's use count. -/
  | use (s : State) (c : ClipId) (n : Nat) : Atom ends s (s.modClip c fun x => { x with useCount := n })
  /-- A RETIRING clip becomes EMPTY. -/
  | emptied (s : State) (c : ClipId) (retiring : (s.clip c).state = .retiring) (unused : (s.clip c).useCount = 0) :
      Atom ends s ((s.emptyClip c).queueUpdate c)
  | report (s : State) (b : ReportBody) (other : b.ofRelease = false) : Atom ends s (s.report b)
  /-- A whisper queue's head request, gap and detached engine. -/
  | head (s : State) (p : PosId) (head : HeadRequest) (gap : Option Nat) (detached : Option EngId) :
      Atom ends s (s.modWhisper p fun q => { q with head := head, gap := gap, detached := detached })
  /-- A head PROMPT ends. -/
  | prompt (s : State) (p : PosId) (w : WhisperEntry) (rest : List WhisperEntry) (entries : (s.pos p).whisper.entries = w :: rest)
      (kind : w.isPrompt = true) : Atom ends s (s.modWhisper p fun q => { q with entries := rest, head := .none })
  /-- A head CALL_WHISPER ends, and its leg goes ACTIVE. -/
  | call (s : State) (p : PosId) (w : WhisperEntry) (rest : List WhisperEntry) (l : LegId) (gap : Option Nat)
      (entries : (s.pos p).whisper.entries = w :: rest) (kind : w.kind = .call l) :
      Atom ends s ((s.modWhisper p fun q => { q with entries := rest, head := .none, gap := gap }).goActive l p)
  /-- A session goes on, on its plan. -/
  | session (s : State) (l : LegId) (f : Session → Session) (plan : ∀ x, (s.leg l).session = some x → (f x).plan = x.plan) :
      Atom ends s (s.modLeg l fun y => { y with session := y.session.map f })
  /-- A session ends. -/
  | ended (s : State) (l : LegId) (r : Option Resume) (h : ends l) :
      Atom ends s (s.modLeg l fun y => { y with session := none, resume := r })

/-- A chain of small changes. -/
def Walk (ends : LegId → Prop) : State → State → Prop := Relation.ReflTransGen (Atom ends)

/-- A relation that every small change keeps holds along a chain of them. -/
theorem Walk.lift {ends : LegId → Prop} {R : State → State → Prop} (refl : ∀ s, R s s)
    (trans : ∀ {s t u}, R s t → R t u → R s u) (h : ∀ {s t}, Atom ends s t → R s t) {s t : State} (w : Walk ends s t) : R s t := by
  induction w with
  | refl => exact refl s
  | tail _ step ih => exact trans ih (h step)

/-- A property that every small change keeps holds at the end of a chain where it holds at its start. -/
theorem Walk.keep {ends : LegId → Prop} {P : State → Prop} (h : ∀ {s t}, Atom ends s t → P s → P t)
    {s t : State} (w : Walk ends s t) (start : P s) : P t := by
  induction w with
  | refl => exact start
  | tail _ step ih => exact h step ih

namespace Walk

variable {ends : LegId → Prop} {s t : State}

theorem refl (s : State) : Walk ends s s := Relation.ReflTransGen.refl

theorem trans {u : State} (h : Walk ends s t) (k : Walk ends t u) : Walk ends s u := Relation.ReflTransGen.trans h k

theorem step (h : Walk ends s t) {u : State} (k : Atom ends t u) : Walk ends s u := Relation.ReflTransGen.tail h k

theorem of (k : Atom ends s t) : Walk ends s t := (refl s).step k

/-- A report of another kind than those that a release sequence makes of its own. -/
theorem report (h : Walk ends s t) (b : ReportBody) (other : b.ofRelease = false := by rfl) : Walk ends s (t.report b) :=
  h.step (.report t b other)

theorem settle (h : Walk ends s t) : Walk ends s t.settlePort := h.step (.settle t)

theorem arbiter (h : Walk ends s t) (a : Arbiter) : Walk ends s { t with arbiter := a } :=
  h.step (.records t t.ears t.sends t.plans t.engines a fun _ => rfl)

theorem modEng (h : Walk ends s t) (e : EngId) (f : Engine → Engine) : Walk ends s (t.modEng e f) :=
  h.step (.records t t.ears t.sends t.plans (t.modEng e f).engines t.arbiter fun _ => rfl)

theorem modPlan (h : Walk ends s t) (i : PlanId) {f : Plan → Plan} (kept : ∀ x : Plan, (f x).record = x.record := by exact fun _ => rfl) :
    Walk ends s (t.modPlan i f) := by
  refine h.step (.records t t.ears t.sends (t.modPlan i f).plans t.engines t.arbiter fun j => ?_)
  show ((t.modPlan i f).plan j).record = _
  by_cases own : i = j
  · subst own
    rw [State.plan_modPlan_same]
    exact kept _
  · rw [State.plan_modPlan_ne _ _ _ _ own]

theorem withdraw (h : Walk ends s t) (o : Owner) : Walk ends s (t.withdraw o) := h.arbiter _

theorem withdrawFetch (h : Walk ends s t) (e : EngId) : Walk ends s (t.withdrawFetch e) := h.step (.fetches t _)

theorem addFetch (h : Walk ends s t) (e : EngId) : Walk ends s (t.addFetch e) := by
  unfold State.addFetch
  split
  · exact h.step (.fetches t _)
  · exact h

theorem issueFetch (h : Walk ends s t) (e : EngId) : Walk ends s (t.issueFetch e) := (h.addFetch e).settle

theorem dropEngineFeeds (h : Walk ends s t) (e : EngId) : Walk ends s (t.dropEngineFeeds e) :=
  h.step (.records t (t.dropEngineFeeds e).ears (t.dropEngineFeeds e).sends t.plans t.engines t.arbiter fun _ => rfl)

/-- A change of a whisper queue that keeps its entries. -/
theorem modWhisper (h : Walk ends s t) (p : PosId) {f : WhisperQueue → WhisperQueue} (kept : ∀ q, (f q).entries = q.entries := by exact fun _ => rfl) :
    Walk ends s (t.modWhisper p f) := by
  have same : t.modWhisper p f = t.modWhisper p fun q => { q with
      head := (f (t.pos p).whisper).head, gap := (f (t.pos p).whisper).gap, detached := (f (t.pos p).whisper).detached } := by
    unfold State.modWhisper State.modPos
    dsimp only
    have value : f (t.pos p).whisper = ⟨(t.pos p).whisper.entries, (f (t.pos p).whisper).head, (f (t.pos p).whisper).gap,
        (f (t.pos p).whisper).detached⟩ := by
      rw [← kept (t.pos p).whisper]
    conv_lhs => rw [value]
  rw [same]
  exact h.step (.head t p _ _ _)

theorem startGap (h : Walk ends s t) (p : PosId) : Walk ends s (t.startGap p) := h.modWhisper p

theorem session (h : Walk ends s t) (l : LegId) (f : Session → Session) (plan : ∀ x, (t.leg l).session = some x → (f x).plan = x.plan) :
    Walk ends s (t.modLeg l fun y => { y with session := y.session.map f }) := h.step (.session t l f plan)

theorem ownerGranted (h : Walk ends s t) (o : Owner) (e : EngId) : Walk ends s (t.ownerGranted o e) := by
  unfold State.ownerGranted
  split
  · exact h.modWhisper _
  · exact h.session _ _ fun _ _ => rfl
  · exact h.modPlan _

theorem clearBinding (h : Walk ends s t) (o : Owner) (e : EngId) : Walk ends s (t.clearBinding o e) := by
  unfold State.clearBinding
  split
  · refine h.modWhisper _ fun q => ?_
    split <;> rfl
  · exact h
  · refine h.modPlan _ fun x => ?_
    split <;> rfl

/-- A clip's use count set from what it was. -/
theorem use (h : Walk ends s t) (c : ClipId) (f : Nat → Nat) : Walk ends s (t.modClip c fun x => { x with useCount := f x.useCount }) := by
  have same : (t.modClip c fun x => { x with useCount := f x.useCount }) = t.modClip c fun x => { x with useCount := f (t.clip c).useCount } := rfl
  rw [same]
  exact h.step (.use t c _)

theorem grant (h : Walk ends s t) (e : EngId) (w : WaitEntry) : Walk ends s (t.grant e w) :=
  ((((h.modEng e _).use w.clip (· + 1)).arbiter _).ownerGranted _ _).issueFetch _

theorem clipReleased (h : Walk ends s t) (c : ClipId) : Walk ends s (t.clipReleased c) := by
  have lowered := h.use c (· - 1)
  unfold State.clipReleased
  dsimp only
  split
  · rename_i retired
    exact (lowered.step (.emptied _ c retired.1 retired.2)).report _
  · exact lowered

theorem freeOne (h : Walk ends s t) (e : EngId) : Walk ends s (t.freeOne e) := by
  have idle := ((h.withdrawFetch e).modEng e fun _ => Engine.idle).dropEngineFeeds e
  unfold State.freeOne
  dsimp only
  split
  · refine clipReleased ?_ _
    split
    · exact idle.clearBinding _ _
    · exact idle
  · split
    · exact idle.clearBinding _ _
    · exact idle

theorem sessionTold (h : Walk ends s t) (l : LegId) (o : EngineOutcome) : Walk ends s (t.sessionTold l o) := by
  have set : ∀ x y : Session, (t.leg l).session = some x → y.plan = x.plan → Walk ends s (t.modLeg l fun z => { z with session := some y }) := by
    intro x y some_ plan
    have same : (t.modLeg l fun z => { z with session := some y }) = t.modLeg l fun z => { z with session := z.session.map fun _ => y } := by
      unfold State.modLeg
      dsimp only
      rw [some_]
      rfl
    rw [same]
    exact h.session l _ fun z e => by cases some_.symm.trans e; exact plan
  unfold State.sessionTold
  split
  · exact h
  · split
    · exact h
    · dsimp only
      split
      · refine report (set _ _ ‹_› ?_) _
        split <;> rfl
      · refine set _ _ ‹_› ?_
        split <;> rfl

theorem ite {u : State} {c : Prop} [Decidable c] (h : Walk ends s t) (k : Walk ends s u) : Walk ends s (if c then t else u) := by
  split
  · exact h
  · exact k

end Walk

/-! ### What a small change leaves alone -/

/-- What the memory port's settling can change. -/
theorem State.settlePort_frame (s : State) : ∃ memory link, s.settlePort = { s with memory := memory, link := link } := by
  rcases s.settlePort_cases with ⟨m, e, _⟩ | ⟨_, e⟩
  · exact ⟨m, s.link, e⟩
  · exact ⟨_, _, e⟩

/-- What a queued directory update can change. -/
theorem State.queueUpdate_frame (s : State) (c : ClipId) : ∃ memory link, s.queueUpdate c = { s with memory := memory, link := link } := by
  unfold State.queueUpdate
  split
  · exact ⟨_, _, rfl⟩
  · obtain ⟨memory, link, e⟩ := State.settlePort_frame { s with memory := { s.memory with updates := s.memory.updates ++ [c] } }
    exact ⟨memory, link, e⟩

/-- A leg that goes ACTIVE on a position (R40, R42). -/
def Leg.active (x : Leg) (p : PosId) : Leg :=
  { x with
    state := .active, origin := none, attached := some p, last := some p
    ec := { x.ec with settle := Config.settleBlocks } }

theorem State.goActive_eq (s : State) (l : LegId) (p : PosId) :
    s.goActive l p = (s.modLeg l fun x => x.active p).modPos p fun x => { x with leg := some l } := by
  show (((s.modLeg l fun x => { x with state := .active, origin := none }).modLeg l fun x =>
    { x with attached := some p, last := some p }).modEc l fun c => { c with settle := Config.settleBlocks }).modPos p
      (fun x => { x with leg := some l }) = _
  unfold State.modEc
  rw [State.modLeg_modLeg, State.modLeg_modLeg]
  rfl

/-- What a small change can change. -/
theorem Atom.frame {ends : LegId → Prop} {s t : State} (h : Atom ends s t) :
    ∃ positions legs ears sends plans clips freeSlabs memory engines arbiter link, t = { s with
      positions := positions, legs := legs, ears := ears, sends := sends, plans := plans, clips := clips, freeSlabs := freeSlabs
      memory := memory, engines := engines, arbiter := arbiter, link := link } := by
  generalize e : t = u at h
  cases h with
  | settle =>
    obtain ⟨memory, link, k⟩ := s.settlePort_frame
    exact ⟨_, _, _, _, _, _, _, _, _, _, _, k⟩
  | emptied c =>
    obtain ⟨memory, link, k⟩ := (s.emptyClip c).queueUpdate_frame c
    exact ⟨_, _, _, _, _, _, _, _, _, _, _, k⟩
  | _ => exact ⟨_, _, _, _, _, _, _, _, _, _, _, rfl⟩

/-- A leg after a small change: as it was, ACTIVE at the end of its call whisper, or with its session moved on or ended. -/
theorem Atom.leg {ends : LegId → Prop} {s t : State} (h : Atom ends s t) (l : LegId) :
    t.leg l = s.leg l
    ∨ (∃ p w, w ∈ (s.pos p).whisper.entries ∧ w.kind = .call l ∧ t.leg l = (s.leg l).active p)
    ∨ (∃ f : Session → Session, (∀ x, (s.leg l).session = some x → (f x).plan = x.plan) ∧
        t.leg l = { s.leg l with session := (s.leg l).session.map f })
    ∨ (ends l ∧ ∃ r, t.leg l = { s.leg l with session := none, resume := r }) := by
  generalize e : t = u at h
  cases h with
  | settle =>
    obtain ⟨memory, link, k⟩ := s.settlePort_frame
    exact .inl (by rw [k]; rfl)
  | emptied c =>
    obtain ⟨memory, link, k⟩ := (s.emptyClip c).queueUpdate_frame c
    exact .inl (by rw [k]; rfl)
  | call p w rest m gap entries kind =>
    rw [State.goActive_eq]
    by_cases own : m = l
    · subst own
      exact .inr (.inl ⟨p, w, by simp [entries], kind, by simp⟩)
    · exact .inl (by simp [own])
  | session m f plan =>
    by_cases own : m = l
    · subst own
      exact .inr (.inr (.inl ⟨f, plan, by simp⟩))
    · exact .inl (by simp [own])
  | ended m r k =>
    by_cases own : m = l
    · subst own
      exact .inr (.inr (.inr ⟨k, r, by simp⟩))
    · exact .inl (by simp [own])
  | _ => exact .inl rfl

/-- A small change takes at most the head from a whisper queue. -/
theorem Atom.entries {ends : LegId → Prop} {s t : State} (h : Atom ends s t) (p : PosId) :
    (t.pos p).whisper.entries <:+ (s.pos p).whisper.entries := by
  have same := List.suffix_refl (s.pos p).whisper.entries
  have tail : ∀ {q w rest}, (s.pos q).whisper.entries = w :: rest → rest <:+ (s.pos q).whisper.entries := fun {q w rest} entries => by
    rw [entries]
    exact List.suffix_cons w rest
  generalize e : t = x at h
  cases h with
  | settle =>
    obtain ⟨memory, link, k⟩ := s.settlePort_frame
    rw [k]
    exact same
  | emptied c =>
    obtain ⟨memory, link, k⟩ := (s.emptyClip c).queueUpdate_frame c
    rw [k]
    exact same
  | head q =>
    by_cases own : q = p
    · subst own
      rw [State.pos_modWhisper_same]
    · rw [State.pos_modWhisper_ne _ _ _ _ own]
  | prompt q w rest entries kind =>
    by_cases own : q = p
    · subst own
      rw [State.pos_modWhisper_same]
      exact tail entries
    · rw [State.pos_modWhisper_ne _ _ _ _ own]
  | call q w rest m gap entries kind =>
    rw [State.goActive_eq]
    by_cases own : q = p
    · subst own
      simpa using tail entries
    · simp [own]
  | _ => exact same

/-- A chain of small changes takes entries from the heads of whisper queues, and puts none there. -/
theorem Walk.entries {ends : LegId → Prop} {s t : State} (w : Walk ends s t) (p : PosId) :
    (t.pos p).whisper.entries <:+ (s.pos p).whisper.entries :=
  w.lift (R := fun u v => (v.pos p).whisper.entries <:+ (u.pos p).whisper.entries) (fun _ => List.suffix_refl _) (fun x y => y.trans x)
    fun k => k.entries p

/-! ### The happenings -/

/-- The legs that the CALL_WHISPERs of the state name are among those whose sessions may end. -/
def Calling (ends : LegId → Prop) (s : State) : Prop := ∀ p l, ∀ w ∈ (s.pos p).whisper.entries, w.kind = .call l → ends l

/-- Where any session may end there is nothing to ask. -/
theorem Calling.all (s : State) : Calling (fun _ => True) s := fun _ _ _ _ _ => trivial

theorem Calling.along {ends : LegId → Prop} {s t : State} (c : Calling ends s) (w : Walk ends s t) : Calling ends t :=
  fun p l x mem kind => c p l x ((w.entries p).subset mem) kind

/-- The happening makes no report of a release sequence's own, and ends no session but those that may end. -/
def TaskOk (ends : LegId → Prop) : Task → Prop
  | .sessionEnd l _ => ends l
  | .legActive _ _ => False
  | .report b => b.ofRelease = false
  | .release _ _ | .stop _ _ | .offer _ _ | .heads _ | .request _ | .take _ | .tell _ _ | .whisperEnd _ _ _ | .whisperNext _
  | .planFall _ => True

namespace Walk

variable {ends : LegId → Prop} {s t : State}

/-- A head entry ends (R170, R171). -/
theorem whisperEnd (s : State) (p : PosId) (o : WhisperOutcome) (cause : Option WhisperCause) :
    Walk ends s (runTask (.whisperEnd p o cause) s).1 := by
  simp only [runTask]
  split
  · exact refl s
  · rename_i w rest entries
    split
    · rename_i kind
      have ended := (Walk.of (ends := ends) (.prompt s p w rest entries (by simp [WhisperEntry.isPrompt, kind]))).report
        (promptReport o (w.reportOf p cause)) (by cases o <;> rfl)
      exact (ended.startGap p).ite ended
    · rename_i l kind
      dsimp only
      split
      · have merged : (s.modWhisper p fun q => { q with entries := rest, head := .none }).startGap p
            = s.modWhisper p fun q => { q with
                entries := rest, head := .none, gap := if (s.pos p).config.whisperGap = 0 then none else some 0 } := by
          unfold State.startGap State.modWhisper
          rw [State.modPos_modPos, State.pos_modPos_same]
        rw [merged]
        exact .of (.call s p w rest l _ entries kind)
      · exact .of (.call s p w rest l (s.pos p).whisper.gap entries kind)

/-- A session ends (R161). -/
theorem sessionEnd {l : LegId} (capture : Bool) (ok : ends l) :
    Walk ends s (runTask (.sessionEnd l capture) s).1 := by
  have ended := fun r : Option Resume => Walk.of (.ended s l r ok)
  simp only [runTask]
  split
  · exact refl s
  · split
    · exact ended _
    · split
      · exact (ended _).withdraw _
      · exact ended _

/-- A happening is a chain of small changes. -/
theorem runTask {x : Task} (ok : TaskOk ends x) : Walk ends s (Machine.runTask x s).1 := by
  have r := refl (ends := ends) s
  cases x with
  | release e o =>
    simp only [Machine.runTask]
    split
    · exact r
    · exact r.freeOne e
  | stop e o =>
    simp only [Machine.runTask]
    split
    · exact r
    · split
      · dsimp only; exact (r.withdrawFetch e).modEng e _
      · exact r
    · exact r
    · exact r
  | offer e was =>
    simp only [Machine.runTask]
    split
    · split
      · exact r.arbiter _
      · exact r
    · exact r
  | heads e =>
    simp only [Machine.runTask]
    split
    · exact r
    · split
      · exact r
      · split
        · exact (r.arbiter _).grant e _
        · exact r.arbiter _
  | request w =>
    simp only [Machine.runTask]
    split
    · exact r.arbiter _
    · exact r
  | take w =>
    simp only [Machine.runTask]
    split
    · exact r.arbiter _
    · split
      · split
        · exact r.grant _ w
        · exact r
      · exact r.arbiter _
  | tell o out =>
    simp only [Machine.runTask]
    split
    · exact r
    · exact r.sessionTold _ out
    · exact ite (r.modPlan _) r
  | whisperEnd p o cause => exact whisperEnd s p o cause
  | whisperNext p =>
    simp only [Machine.runTask]
    split
    · exact r
    · split
      · split
        · dsimp only; exact r.modWhisper p
        · exact r
      · exact r
  | legActive l p => exact ok.elim
  | sessionEnd l capture => exact sessionEnd capture ok
  | planFall h =>
    simp only [Machine.runTask]
    split
    · dsimp only; exact ((r.modPlan h).withdraw _).modPlan h
    · dsimp only; exact r.modPlan h
  | report b => exact r.report b ok

end Walk

/-- The happenings that a happening sets off: the one session end among them is that of a leg that a CALL_WHISPER names (R42). -/
theorem TaskOk.next {ends : LegId → Prop} {s : State} (c : Calling ends s) {x : Task} (ok : TaskOk ends x) :
    ∀ y ∈ (runTask x s).2, TaskOk ends y := by
  cases x with
  | release e o =>
    simp only [runTask]
    split
    · exact nofun
    · intro y mem
      simp only [List.mem_append, List.mem_singleton] at mem
      rcases mem with (told | rfl) | next
      · split at told
        · split at told
          · rw [List.mem_singleton.1 told]; trivial
          · exact absurd told List.not_mem_nil
        · exact absurd told List.not_mem_nil
      · trivial
      · split at next
        · rw [List.mem_singleton.1 next]; trivial
        · exact absurd next List.not_mem_nil
  | stop e o =>
    simp only [runTask]
    split
    · simp [TaskOk]
    · split <;> exact nofun
    · exact nofun
    · exact nofun
  | offer e was =>
    simp only [runTask]
    split
    · split <;> simp [TaskOk]
    · simp [TaskOk]
  | heads e =>
    simp only [runTask]
    split
    · exact nofun
    · split
      · exact nofun
      · split
        · exact nofun
        · split <;> simp [TaskOk]
  | request w =>
    simp only [runTask]
    split <;> simp [TaskOk]
  | take w =>
    simp only [runTask]
    split
    · exact nofun
    · split
      · split
        · exact nofun
        · split <;> simp [TaskOk]
      · dsimp only
        split
        · split <;> simp [TaskOk]
        · exact nofun
  | tell o out =>
    simp only [runTask]
    split <;> simp [TaskOk]
  | whisperEnd p o cause =>
    simp only [runTask]
    split
    · exact nofun
    · split
      · exact nofun
      · rename_i w rest entries _ l kind
        have named : ends l := c p l w (by rw [entries]; exact List.mem_cons_self) kind
        simp [TaskOk, named, ReportBody.ofRelease]
  | whisperNext p =>
    simp only [runTask]
    split
    · exact nofun
    · split
      · split <;> simp [TaskOk]
      · exact nofun
  | legActive l p => exact ok.elim
  | sessionEnd l capture =>
    simp only [runTask]
    split
    · exact nofun
    · rename_i x _
      cases x.plan with
      | none => split <;> [exact nofun; skip]; split <;> simp [TaskOk]
      | some h => split <;> [simp [TaskOk]; skip]; split <;> simp [TaskOk]
  | planFall h =>
    simp only [runTask]
    split
    · split <;> simp [TaskOk]
    · exact nofun
  | report b => exact nofun

namespace Walk

variable {ends : LegId → Prop} {s t : State}

theorem drive (c : Calling ends s) (n : Nat) {ts : List Task} (ok : ∀ x ∈ ts, TaskOk ends x) : Walk ends s (Machine.drive n ts s) := by
  induction n generalizing ts s with
  | zero => exact refl s
  | succ n ih =>
    cases ts with
    | nil => exact refl s
    | cons x rest =>
      have first := runTask (s := s) (ok x List.mem_cons_self)
      refine first.trans (ih (c.along first) fun y mem => ?_)
      rcases List.mem_append.1 mem with new | old
      · exact (ok x List.mem_cons_self).next c y new
      · exact ok y (List.mem_cons_of_mem x old)

/-- A chain of happenings is a chain of small changes. -/
theorem run (h : Walk ends s t) (c : Calling ends s) {ts : List Task} (ok : ∀ x ∈ ts, TaskOk ends x) : Walk ends s (t.run ts) :=
  h.trans (drive (c.along h) _ ok)

/-- A chain that one happening begins. -/
theorem runOne (h : Walk ends s t) (c : Calling ends s) {x : Task} (ok : TaskOk ends x := by trivial) : Walk ends s (t.run [x]) :=
  h.run c fun y mem => by
    rw [List.mem_singleton.1 mem]
    exact ok

/-! ### What the owners do at the top of an event -/

theorem judgeStream (h : Walk ends s t) (c : Calling ends s) (i : PlanId) : Walk ends s (t.judgeStream i) := by
  unfold State.judgeStream
  split
  · exact h
  · split
    · exact h
    · exact h
    · dsimp only
      split
      all_goals
        split
        · exact (h.modPlan i).runOne c
        · exact h

theorem planRise (h : Walk ends s t) (c : Calling ends s) (i : PlanId) : Walk ends s (t.planRise i) := by
  unfold State.planRise
  dsimp only
  split
  · exact (h.modPlan i).judgeStream c i
  · exact h.modPlan i

theorem undoHead (h : Walk ends s t) (c : Calling ends s) (p : PosId) : Walk ends s (t.undoHead p) := by
  unfold State.undoHead
  split
  · exact h
  · exact (h.modWhisper p).withdraw _
  · split
    · exact (h.modWhisper p).runOne c
    · exact (h.modWhisper p).runOne c

theorem headRemoved (h : Walk ends s t) (c : Calling ends s) (p : PosId) : Walk ends s (t.headRemoved p) := by
  unfold State.headRemoved
  dsimp only
  split
  · exact ((h.undoHead c p).startGap p).runOne c
  · exact (h.undoHead c p).runOne c

theorem foldl {α : Type} (f : State → α → State) (k : ∀ {u} x, Walk ends s u → Walk ends s (f u x)) (h : Walk ends s t) (xs : List α) :
    Walk ends s (xs.foldl f t) := by
  induction xs generalizing t with
  | nil => exact h
  | cons x xs ih => exact ih (k x h)

theorem releaseAll (h : Walk ends s t) (c : Calling ends s) (o : EngineOutcome) : Walk ends s (t.releaseAll o) :=
  h.foldl _ (fun _ w => w.runOne c) _

/-- A session begins on a plan or on none, and its greeting is requested (R154, R155). -/
theorem enterSession (s : State) (c : Calling ends s) (l : LegId) (plan : Option PlanId) :
    ∃ x : Session, x.plan = plan ∧ Walk ends (s.modLeg l fun y => { y with session := some x }) (s.enterSession l plan) := by
  have put : ∀ x : Session, Calling ends (s.modLeg l fun y => { y with session := some x }) := fun x => c
  unfold State.enterSession
  dsimp only
  split
  · exact ⟨_, rfl, refl _⟩
  · split
    · exact ⟨_, rfl, refl _⟩
    · split
      · exact ⟨_, rfl, refl _⟩
      · split
        · exact ⟨_, rfl, refl _⟩
        · split
          · exact ⟨_, rfl, (refl _).runOne (put _)⟩
          · exact ⟨_, rfl, refl _⟩

end Walk

end Sys2Proof.Machine
end

section
set_option Elab.async false
/-! ## Legs and positions naming one another, the supervisions and the whisper queues, through a chain of happenings (R35, R164, R177) -/

namespace Sys2Proof.Machine

/-! ### The call whispers of a queue -/

/-- The leg that a CALL_WHISPER names. -/
def WhisperEntry.caller (w : WhisperEntry) : Option LegId :=
  match w.kind with
  | .call l => some l
  | .prompt _ _ => none

/-- The legs that the CALL_WHISPERs of a queue name. -/
def callers (ws : List WhisperEntry) : List LegId := ws.filterMap WhisperEntry.caller

theorem WhisperEntry.caller_eq_some {w : WhisperEntry} {l : LegId} : w.caller = some l ↔ w.kind = .call l := by
  unfold WhisperEntry.caller
  split <;> simp_all

theorem WhisperEntry.caller_eq_none {w : WhisperEntry} : w.caller = none ↔ w.isPrompt = true := by
  unfold WhisperEntry.caller WhisperEntry.isPrompt
  split <;> simp_all

theorem WhisperEntry.isCallOf_iff {w : WhisperEntry} {l : LegId} : w.isCallOf l = true ↔ w.caller = some l := by
  rw [WhisperEntry.caller_eq_some, WhisperEntry.isCallOf, decide_eq_true_iff]

@[simp] theorem callers_nil : callers [] = [] := rfl

@[simp] theorem callers_append (ws ws' : List WhisperEntry) : callers (ws ++ ws') = callers ws ++ callers ws' := List.filterMap_append

theorem callers_cons_prompt {w : WhisperEntry} (h : w.isPrompt = true) (ws : List WhisperEntry) : callers (w :: ws) = callers ws :=
  List.filterMap_cons_none (WhisperEntry.caller_eq_none.2 h)

theorem callers_cons_call {w : WhisperEntry} {l : LegId} (h : w.kind = .call l) (ws : List WhisperEntry) : callers (w :: ws) = l :: callers ws :=
  List.filterMap_cons_some (WhisperEntry.caller_eq_some.2 h)

theorem mem_callers {ws : List WhisperEntry} {l : LegId} : l ∈ callers ws ↔ ∃ w ∈ ws, w.isCallOf l = true := by
  simp only [callers, List.mem_filterMap, WhisperEntry.isCallOf_iff]

theorem length_callers (ws : List WhisperEntry) : (callers ws).length = (ws.filter fun w => !w.isPrompt).length := by
  induction ws with
  | nil => rfl
  | cons w ws ih =>
    cases kind : w.kind with
    | call l =>
      rw [callers_cons_call kind, List.filter_cons_of_pos (by simp [WhisperEntry.isPrompt, kind])]
      simp [ih]
    | prompt stop tag =>
      have prompt : w.isPrompt = true := by simp [WhisperEntry.isPrompt, kind]
      rw [callers_cons_prompt prompt, List.filter_cons_of_neg (by simp [prompt]), ih]

/-- A whisper queue's law: at most four entries, none but the head begun (R164, R166). -/
def QueueLaw (ws : List WhisperEntry) : Prop := ws.length ≤ 4 ∧ ∀ w ∈ ws.tail, w.begun = false

theorem QueueLaw.sublist {ws ws' : List WhisperEntry} (h : QueueLaw ws) (part : ws'.Sublist ws) : QueueLaw ws' :=
  ⟨part.length_le.trans h.1, fun w mem => h.2 w (part.tail.subset mem)⟩

/-! ### The law of attachment with exceptions -/

/-- Legs that may be CONNECTING or ACTIVE without a position, and positions that may have a CONNECTING leg without its CALL_WHISPER: what
an operation leaves in between its parts. -/
structure Gaps where
  legs : LegId → Prop
  positions : PosId → Prop

/-- No exception. -/
def Gaps.none : Gaps := ⟨fun _ => False, fun _ => False⟩

/-- The law of attachment but for the exceptions (R35, R164). -/
structure AttachBut (gaps : Gaps) (s : State) : Prop where
  mutual_ : ∀ l p, (s.leg l).attached = some p ↔ (s.pos p).leg = some l
  busy : ∀ l, ¬ gaps.legs l → ((s.leg l).attached.isSome = true ↔ ((s.leg l).state = .connecting ∨ (s.leg l).state = .active))
  called : ∀ p l, l ∈ callers (s.pos p).whisper.entries → (s.leg l).state = .connecting ∧ (s.leg l).attached = some p
  calls : ∀ l p, ¬ gaps.positions p → (s.leg l).state = .connecting → (s.leg l).attached = some p →
    l ∈ callers (s.pos p).whisper.entries
  once : ∀ p, (callers (s.pos p).whisper.entries).length ≤ 1

theorem attachLaw_iff (s : State) : AttachLaw s ↔ AttachBut .none s := by
  constructor
  · rintro ⟨named, busy, called, calls, once⟩
    refine ⟨named, fun l _ => busy l, fun p l mem => ?_, fun l p _ state attached => mem_callers.2 (calls l p state attached),
      fun p => (length_callers _).trans_le (once p)⟩
    obtain ⟨w, mem, is⟩ := mem_callers.1 mem
    exact called p w l mem is
  · intro h
    exact ⟨h.mutual_, fun l => h.busy l id, fun p w l mem is => h.called p l (mem_callers.2 ⟨w, mem, is⟩),
      fun l p state attached => mem_callers.1 (h.calls l p id state attached), fun p => (length_callers _).symm.trans_le (h.once p)⟩

/-- Fewer exceptions: a leg's may go when its record keeps the law, a position's when no CONNECTING leg is at it. -/
theorem AttachBut.narrow {a b : Gaps} {s : State} (h : AttachBut a s)
    (legs : ∀ l, a.legs l → ¬ b.legs l → ((s.leg l).attached.isSome = true ↔ ((s.leg l).state = .connecting ∨ (s.leg l).state = .active)))
    (positions : ∀ l p, a.positions p → ¬ b.positions p → (s.leg l).state = .connecting → (s.leg l).attached = some p →
      l ∈ callers (s.pos p).whisper.entries) : AttachBut b s where
  mutual_ := h.mutual_
  busy := fun l out => by
    by_cases was : a.legs l
    · exact legs l was out
    · exact h.busy l was
  called := h.called
  calls := fun l p out => by
    by_cases was : a.positions p
    · exact positions l p was out
    · exact h.calls l p was
  once := h.once

theorem AttachBut.widen {a b : Gaps} {s : State} (h : AttachBut a s) (legs : ∀ l, a.legs l → b.legs l)
    (positions : ∀ p, a.positions p → b.positions p) : AttachBut b s :=
  h.narrow (fun l k out => absurd (legs l k) out) fun _ p k out => absurd (positions p k) out

/-! ### The relation -/

/-- A leg's part in the laws stays. -/
structure LegKept (x y : Leg) : Prop where
  state : y.state = x.state
  attached : y.attached = x.attached

/-- A position's part in the laws stays. -/
structure PosKept (x y : Position) : Prop where
  leg : y.leg = x.leg
  supervision : y.supervision = x.supervision
  callers : callers y.whisper.entries = callers x.whisper.entries
  queue : QueueLaw x.whisper.entries → QueueLaw y.whisper.entries

theorem LegKept.refl (x : Leg) : LegKept x x := ⟨rfl, rfl⟩
theorem PosKept.refl (x : Position) : PosKept x x := ⟨rfl, rfl, rfl, id⟩

/-- The three laws go from s with its exceptions to t with its own (R35, R164, R177). -/
structure CallsKept (a b : Gaps) (s t : State) : Prop where
  attach : AttachBut a s → AttachBut b t
  super : AttachBut a s → SuperLaw s → SuperLaw t
  whisper : AttachBut a s → WhisperLaw s → WhisperLaw t

theorem SuperLaw.of_same {s t : State} (h : SuperLaw s) (leg : ∀ p, (t.pos p).leg = (s.pos p).leg)
    (supervision : ∀ p, (t.pos p).supervision = (s.pos p).supervision) : SuperLaw t := by
  intro q r some_
  simp only [leg, supervision] at some_ ⊢
  exact h q r some_

theorem AttachBut.of_same {a : Gaps} {s t : State} (h : AttachBut a s) (legs : ∀ l, LegKept (s.leg l) (t.leg l))
    (leg : ∀ p, (t.pos p).leg = (s.pos p).leg) (called : ∀ p, callers (t.pos p).whisper.entries = callers (s.pos p).whisper.entries) :
    AttachBut a t where
  mutual_ := fun l p => by rw [(legs l).attached, leg]; exact h.mutual_ l p
  busy := fun l out => by rw [(legs l).attached, (legs l).state]; exact h.busy l out
  called := fun p l => by rw [(legs l).attached, (legs l).state, called]; exact h.called p l
  calls := fun l p out => by rw [(legs l).attached, (legs l).state, called]; exact h.calls l p out
  once := fun p => by rw [called]; exact h.once p

namespace CallsKept

variable {a b c : Gaps} {s t u : State}

theorem refl (a : Gaps) (s : State) : CallsKept a a s s := ⟨id, fun _ => id, fun _ => id⟩

theorem trans (h : CallsKept a b s t) (k : CallsKept b c t u) : CallsKept a c s u :=
  ⟨k.attach ∘ h.attach, fun x y => k.super (h.attach x) (h.super x y), fun x y => k.whisper (h.attach x) (h.whisper x y)⟩

theorem of_kept (legs : ∀ l, LegKept (s.leg l) (t.leg l)) (positions : ∀ p, PosKept (s.pos p) (t.pos p)) : CallsKept a a s t where
  attach := fun h => h.of_same legs (fun p => (positions p).leg) fun p => (positions p).callers
  super := fun _ h => h.of_same (fun p => (positions p).leg) fun p => (positions p).supervision
  whisper := fun _ h p => (positions p).queue (h p)

/-- Nothing of legs and positions changes. -/
theorem others (h : CallsKept a b s t) (legs : u.legs = t.legs := by rfl) (positions : u.positions = t.positions := by rfl) :
    CallsKept a b s u := by
  refine h.trans (of_kept (fun l => ?_) fun p => ?_)
  · unfold State.leg
    rw [legs]
    exact LegKept.refl _
  · unfold State.pos
    rw [positions]
    exact PosKept.refl _

theorem modPos (h : CallsKept a b s t) (p : PosId) {f : Position → Position}
    (k : ∀ x, PosKept x (f x) := by exact fun _ => ⟨rfl, rfl, rfl, id⟩) : CallsKept a b s (t.modPos p f) := by
  refine h.trans (of_kept (fun l => .refl _) fun q => ?_)
  by_cases own : p = q
  · subst own
    rw [State.pos_modPos_same]
    exact k _
  · rw [State.pos_modPos_ne _ _ _ _ own]
    exact PosKept.refl _

theorem modLeg (h : CallsKept a b s t) (l : LegId) {f : Leg → Leg} (k : ∀ x, LegKept x (f x) := by exact fun _ => ⟨rfl, rfl⟩) :
    CallsKept a b s (t.modLeg l f) := by
  refine h.trans (of_kept (fun m => ?_) fun p => .refl _)
  by_cases own : l = m
  · subst own
    rw [State.leg_modLeg_same]
    exact k _
  · rw [State.leg_modLeg_ne _ _ _ _ own]
    exact LegKept.refl _

/-- Every leg's record mapped. -/
theorem tmapLegs (h : CallsKept a b s t) {f : LegId → Leg → Leg} (k : ∀ l x, LegKept x (f l x)) :
    CallsKept a b s { t with legs := tmap f t.legs } := by
  refine h.trans (of_kept (fun l => ?_) fun p => .refl _)
  show LegKept _ (tget (tmap f t.legs) l)
  rw [tget_tmap]
  exact k l _

theorem ite {d : Prop} [Decidable d] (h : CallsKept a b s t) (k : CallsKept a b s u) : CallsKept a b s (if d then t else u) := by
  split
  · exact h
  · exact k

theorem foldl {α : Type} (f : State → α → State) (k : ∀ {v} x, CallsKept a b s v → CallsKept a b s (f v x)) (h : CallsKept a b s t)
    (xs : List α) : CallsKept a b s (xs.foldl f t) := by
  induction xs generalizing t with
  | nil => exact h
  | cons x xs ih => exact ih (k x h)

end CallsKept

/-! ### A chain of happenings keeps the laws -/

/-- A head CALL_WHISPER ends: its leg goes from CONNECTING to ACTIVE on the position that it was attached to (R42). -/
theorem CallsKept.call {a : Gaps} {s : State} {p : PosId} {w : WhisperEntry} {rest : List WhisperEntry} {l : LegId} (gap : Option Nat)
    (entries : (s.pos p).whisper.entries = w :: rest) (kind : w.kind = .call l) :
    CallsKept a a s ((s.modWhisper p fun q => { q with entries := rest, head := .none, gap := gap }).goActive l p) := by
  rw [State.goActive_eq]
  have head : callers (s.pos p).whisper.entries = l :: callers rest := by rw [entries, callers_cons_call kind]
  generalize final : State.modPos _ p _ = t
  have leg : ∀ m, t.leg m = if l = m then (s.leg m).active p else s.leg m := fun m => by
    subst final
    by_cases own : l = m
    · subst own
      simp
    · simp [own]
  have pos : ∀ q, t.pos q = if p = q then { s.pos q with leg := some l, whisper := ⟨rest, .none, gap, (s.pos q).whisper.detached⟩ } else s.pos q :=
    fun q => by
      subst final
      by_cases own : p = q
      · subst own
        simp
      · simp [own]
  have last : (callers (s.pos p).whisper.entries).length ≤ 1 → callers rest = [] := fun k => by
    rw [head] at k
    exact List.length_eq_zero_iff.1 (by simpa using k)
  have at_ : AttachBut a s → (s.leg l).state = .connecting ∧ (s.leg l).attached = some p := fun h => h.called p l (by rw [head]; simp)
  have named : AttachBut a s → ∀ q, (t.pos q).leg = (s.pos q).leg := fun h q => by
    rw [pos]
    split
    · rename_i own
      subst own
      exact ((h.mutual_ l p).1 (at_ h).2).symm
    · rfl
  have attached : AttachBut a s → ∀ m, (t.leg m).attached = (s.leg m).attached := fun h m => by
    rw [leg]
    split
    · rename_i own
      subst own
      exact (at_ h).2.symm
    · rfl
  constructor
  case attach =>
    intro h
    constructor
    case mutual_ => exact fun m q => by rw [attached h, named h]; exact h.mutual_ m q
    case busy =>
      intro m out
      rw [attached h]
      by_cases own : l = m
      · subst own
        rw [leg, if_pos rfl]
        simp [(at_ h).2, Leg.active]
      · rw [leg, if_neg own]
        exact h.busy m out
    case called =>
      intro q m mem
      have other : p ≠ q := fun own => by
        subst own
        rw [pos, if_pos rfl] at mem
        rw [last (h.once p)] at mem
        exact absurd mem List.not_mem_nil
      rw [pos, if_neg other] at mem
      have own : l ≠ m := fun own => by
        subst own
        exact other (Option.some.inj ((at_ h).2.symm.trans (h.called q l mem).2))
      rw [leg, if_neg own]
      exact h.called q m mem
    case calls =>
      intro m q out state place
      have own : l ≠ m := fun own => by
        subst own
        rw [leg, if_pos rfl] at state
        exact nomatch state
      rw [leg, if_neg own] at state place
      have other : p ≠ q := fun same => by
        subst same
        exact own (Option.some.inj (((h.mutual_ l p).1 (at_ h).2).symm.trans ((h.mutual_ m p).1 place)))
      rw [pos, if_neg other]
      exact h.calls m q out state place
    case once =>
      intro q
      rw [pos]
      split
      · rename_i own
        subst own
        rw [show callers rest = [] from last (h.once p)]
        exact Nat.zero_le 1
      · exact h.once q
  case super =>
    refine fun h k => k.of_same (named h) fun q => ?_
    rw [pos]
    split <;> rfl
  case whisper =>
    intro _ h q
    rw [pos]
    split
    · rename_i own
      subst own
      have queue : QueueLaw (s.pos p).whisper.entries := h p
      rw [entries] at queue
      exact queue.sublist (List.sublist_cons_self w rest)
    · exact h q

theorem Atom.calls {ends : LegId → Prop} {s t : State} (a : Gaps) (h : Atom ends s t) : CallsKept a a s t := by
  have r := CallsKept.refl a s
  generalize e : t = u at h
  cases h with
  | settle =>
    obtain ⟨memory, link, k⟩ := s.settlePort_frame
    rw [k]
    exact r.others
  | emptied c =>
    obtain ⟨memory, link, k⟩ := (s.emptyClip c).queueUpdate_frame c
    rw [k]
    exact r.others
  | head p head gap detached => exact r.modPos p
  | prompt p w rest entries kind =>
    refine r.trans (CallsKept.of_kept (fun l => .refl _) fun q => ?_)
    by_cases own : p = q
    · subst own
      rw [State.pos_modWhisper_same]
      refine ⟨rfl, rfl, ?_, fun k => ?_⟩
      · rw [entries, callers_cons_prompt kind]
      · rw [entries] at k
        exact k.sublist (List.sublist_cons_self w rest)
    · rw [State.pos_modWhisper_ne _ _ _ _ own]
      exact .refl _
  | call p w rest l gap entries kind => exact .call gap entries kind
  | session l f plan => exact r.modLeg l
  | ended l x k => exact r.modLeg l
  | _ => exact r.others

theorem Walk.calls {ends : LegId → Prop} {s t : State} (a : Gaps) (w : Walk ends s t) : CallsKept a a s t :=
  w.lift (CallsKept.refl a) CallsKept.trans fun k => k.calls a

/-- No happening puts a CALL_WHISPER into a queue. -/
theorem Walk.uncalled {ends : LegId → Prop} {s t : State} (w : Walk ends s t) {l : LegId} {p : PosId}
    (h : l ∉ callers (s.pos p).whisper.entries) : l ∉ callers (t.pos p).whisper.entries :=
  fun mem => h (((w.entries p).sublist.filterMap _).subset mem)

/-- A leg that no CALL_WHISPER names keeps all but its session and resume record through a chain of happenings. -/
theorem Walk.leg_uncalled {ends : LegId → Prop} {s t : State} (w : Walk ends s t) {l : LegId}
    (uncalled : ∀ p, l ∉ callers (s.pos p).whisper.entries) : ∃ session resume, t.leg l = { s.leg l with session := session, resume := resume } := by
  refine (w.keep (P := fun u => (∀ p, l ∉ callers (u.pos p).whisper.entries) ∧
    ∃ session resume, u.leg l = { s.leg l with session := session, resume := resume }) (fun {u v} k h => ?_) ⟨uncalled, _, _, rfl⟩).2
  obtain ⟨none_, session, resume, leg⟩ := h
  refine ⟨fun p => (Walk.of k).uncalled (none_ p), ?_⟩
  rcases k.leg l with e | ⟨p, w, mem, kind, _⟩ | ⟨f, _, e⟩ | ⟨_, r, e⟩
  · exact ⟨_, _, e.trans leg⟩
  · exact absurd (List.mem_filterMap.2 ⟨w, mem, WhisperEntry.caller_eq_some.2 kind⟩) (none_ p)
  · rw [leg] at e
    exact ⟨_, _, e⟩
  · rw [leg] at e
    exact ⟨_, _, e⟩

/-- A leg that no CALL_WHISPER names and whose session may not end keeps all but its session, and that on its plan. -/
theorem Walk.leg_away {ends : LegId → Prop} {s t : State} (w : Walk ends s t) {l : LegId}
    (uncalled : ∀ p, l ∉ callers (s.pos p).whisper.entries) (kept : ¬ ends l) :
    ∃ session : Option Session, t.leg l = { s.leg l with session := session } ∧
      session.map Session.plan = (s.leg l).session.map Session.plan := by
  refine (w.keep (P := fun u => (∀ p, l ∉ callers (u.pos p).whisper.entries) ∧ ∃ session : Option Session,
    u.leg l = { s.leg l with session := session } ∧ session.map Session.plan = (s.leg l).session.map Session.plan)
      (fun {u v} k h => ?_) ⟨uncalled, _, rfl, rfl⟩).2
  obtain ⟨none_, session, leg, plan⟩ := h
  refine ⟨fun p => (Walk.of k).uncalled (none_ p), ?_⟩
  rcases k.leg l with e | ⟨p, w, mem, kind, _⟩ | ⟨f, same, e⟩ | ⟨done, r, e⟩
  · exact ⟨_, e.trans leg, plan⟩
  · exact absurd (List.mem_filterMap.2 ⟨w, mem, WhisperEntry.caller_eq_some.2 kind⟩) (none_ p)
  · rw [leg] at e same
    refine ⟨_, e, ?_⟩
    dsimp only at same ⊢
    rw [← plan]
    cases session with
    | none => rfl
    | some x => exact congrArg some (same x rfl)
  · exact absurd done kept

end Sys2Proof.Machine
end

section
set_option Elab.async false
/-! ## Legs and positions naming one another, the supervisions and the whisper queues, through the operations of ports and positions
(R23, R35, R43 to R46, R164, R177 to R180) -/

namespace Sys2Proof.Machine

namespace CallsKept

variable {a b : Gaps} {s t : State}

/-! ### Small operations -/

theorem walk (h : CallsKept a b s t) {ends : LegId → Prop} {u : State} (w : Walk ends t u) : CallsKept a b s u := h.trans (w.calls b)

/-- A chain of happenings that ends no session of its own. -/
theorem run (h : CallsKept a b s t) {ts : List Task} (ok : ∀ x ∈ ts, TaskOk (fun _ => True) x) : CallsKept a b s (t.run ts) :=
  h.walk ((Walk.refl t).run (.all _) ok)

theorem runOne (h : CallsKept a b s t) {x : Task} (ok : TaskOk (fun _ => True) x := by trivial) : CallsKept a b s (t.run [x]) :=
  h.walk ((Walk.refl t).runOne (.all _) ok)

theorem report (h : CallsKept a b s t) (x : ReportBody) : CallsKept a b s (t.report x) := h.others

theorem modPort (h : CallsKept a b s t) (p : PosId) (f : Port → Port) : CallsKept a b s (t.modPort p f) := h.modPos p

theorem modEc (h : CallsKept a b s t) (l : LegId) (f : Canceller → Canceller) : CallsKept a b s (t.modEc l f) := h.modLeg l

theorem notice (h : CallsKept a b s t) (l : LegId) : CallsKept a b s (t.notice l) := h.modEc l _

theorem finish (h : CallsKept a b s t) (before : State) : CallsKept a b s (t.finish before) := by
  have noticed := h.tmapLegs (f := fun l x =>
    if before.hasSession l ∧ t.hasSession l ∧ before.musicSource l ≠ t.musicSource l
    then { x with ec := { x.ec with settle := Config.settleBlocks } } else x) fun l x => by split <;> exact ⟨rfl, rfl⟩
  exact noticed.others

/-- A whisper queue's entries replaced by others with the same CALL_WHISPERs. -/
theorem modEntries (h : CallsKept a b s t) (p : PosId) {f : WhisperQueue → WhisperQueue}
    (called : ∀ q, callers (f q).entries = callers q.entries := by exact fun _ => rfl)
    (queue : ∀ q, QueueLaw q.entries → QueueLaw (f q).entries := by exact fun _ => id) : CallsKept a b s (t.modWhisper p f) :=
  h.modPos p fun x => ⟨rfl, rfl, called x.whisper, queue x.whisper⟩

/-! ### Buttons -/

theorem setMute (h : CallsKept a b s t) (p : PosId) (value : Bool) (cause : MuteCause) : CallsKept a b s (t.setMute p value cause) := by
  unfold State.setMute
  exact ite h ((h.modPos p).report _)

theorem muteButton (h : CallsKept a b s t) (p : PosId) (pressed : Bool) : CallsKept a b s (t.muteButton p pressed) := by
  unfold State.muteButton
  split
  · exact ite (h.setMute p _ _) h
  · exact h.setMute p _ _
  · exact h

theorem buttonAct (h : CallsKept a b s t) (p : PosId) (x : Button) (pressed : Bool) : CallsKept a b s (t.buttonAct p x pressed) := by
  unfold State.buttonAct
  split
  · exact h.muteButton p pressed
  · exact ite ((h.modPos p).report _) h
  · exact ite ((h.modPos p).report _) h
  · exact h.report _

theorem debounce (h : CallsKept a b s t) (p : PosId) (x : Button) (shown : Bool) : CallsKept a b s (t.debounce p x shown) := by
  unfold State.debounce
  dsimp only
  exact ite (h.modPort p _) (ite (h.modPort p _) ((h.modPort p _).buttonAct p x shown))

theorem controlSlot (h : CallsKept a b s t) (p : PosId) (shown : Buttons Bool) : CallsKept a b s (t.controlSlot p shown) :=
  h.foldl _ (fun x k => k.debounce p x _) _

theorem releaseButton (h : CallsKept a b s t) (p : PosId) (x : Button) : CallsKept a b s (t.releaseButton p x) := by
  unfold State.releaseButton
  exact ite ((h.modPort p _).buttonAct p x false) (h.modPort p _)

theorem leaveLive (h : CallsKept a b s t) (p : PosId) : CallsKept a b s (t.leaveLive p) := by
  unfold State.leaveLive State.releaseButtons
  exact ite ((h.foldl _ (fun x k => k.releaseButton p x) _).modPos p) h

theorem enterLive (h : CallsKept a b s t) (p : PosId) : CallsKept a b s (t.enterLive p) := (h.modPos p).report _

/-! ### A leg detached and settled in another state -/

/-- A leg detached from its position: the leg's state is to follow (R35). -/
theorem detach (h : CallsKept a b s t) (l : LegId) (uncalled : AttachBut b t → ∀ p, l ∉ callers (t.pos p).whisper.entries) :
    CallsKept a ⟨fun m => b.legs m ∨ m = l, b.positions⟩ s (t.detach l) := by
  refine h.trans ?_
  unfold State.detach
  split
  · rename_i p place
    have leg : ∀ m, ((t.modLeg l fun x => { x with attached := none }).modPos p fun x => { x with leg := none }).leg m
        = if l = m then { t.leg m with attached := none } else t.leg m := fun m => by
      by_cases own : l = m
      · subst own
        simp
      · simp [own]
    have pos : ∀ q, ((t.modLeg l fun x => { x with attached := none }).modPos p fun x => { x with leg := none }).pos q
        = if p = q then { t.pos q with leg := none } else t.pos q := fun q => by
      by_cases own : p = q
      · subst own
        simp
      · simp [own]
    generalize ((t.modLeg l fun x => { x with attached := none }).modPos p fun x => { x with leg := none }) = u at leg pos ⊢
    have queue : ∀ q, (u.pos q).whisper.entries = (t.pos q).whisper.entries := fun q => by
      rw [pos]
      split <;> rfl
    constructor
    case attach =>
      intro k
      have other : ∀ m q, (t.leg m).attached = some q → (l = m ↔ p = q) := fun m q there => by
        refine ⟨fun own => ?_, fun own => ?_⟩
        · subst own
          exact Option.some.inj (place.symm.trans there)
        · subst own
          exact Option.some.inj (((k.mutual_ l p).1 place).symm.trans ((k.mutual_ m p).1 there))
      constructor
      case mutual_ =>
        intro m q
        rw [leg, pos]
        by_cases own : l = m
        · rw [if_pos own]
          subst own
          refine ⟨nofun, fun there => ?_⟩
          split at there
          · exact nomatch there
          · rename_i away
            exact absurd ((other l q ((k.mutual_ l q).2 there)).1 rfl) away
        · rw [if_neg own]
          refine ⟨fun there => ?_, fun there => ?_⟩
          · rw [if_neg fun same => own ((other m q there).2 same)]
            exact (k.mutual_ m q).1 there
          · split at there
            · exact nomatch there
            · exact (k.mutual_ m q).2 there
      case busy =>
        intro m out
        rw [leg, if_neg fun own => out (.inr own.symm)]
        exact k.busy m fun x => out (.inl x)
      case called =>
        intro q m mem
        rw [queue] at mem
        rw [leg, if_neg fun own => uncalled k q (by rw [own]; exact mem)]
        exact k.called q m mem
      case calls =>
        intro m q out state there
        rw [leg] at state there
        split at there
        · exact nomatch there
        · rename_i own
          rw [if_neg own] at state
          rw [queue]
          exact k.calls m q out state there
      case once => exact fun q => by rw [queue]; exact k.once q
    case super =>
      intro _ k q r some_
      have same : ∀ q, (u.pos q).supervision = (t.pos q).supervision := fun q => by
        rw [pos]
        split <;> rfl
      rw [same] at some_
      obtain ⟨away, free, only⟩ := k q r some_
      refine ⟨away, ?_, fun q' r' k' => only q' r' (by rwa [same] at k')⟩
      rw [pos]
      split
      · rfl
      · exact free
    case whisper => exact fun _ k q => by rw [queue]; exact k q
  · exact ⟨fun k => k.widen (fun _ => .inl) fun _ => id, fun _ => id, fun _ => id⟩

/-- A leg without a position takes a state that needs none (R35). -/
theorem settle (h : CallsKept a b s t) (l : LegId) {f : Leg → Leg} (free : AttachBut b t → (t.leg l).attached = none)
    (attached : (f (t.leg l)).attached = none ∨ (f (t.leg l)).attached = (t.leg l).attached := by exact .inr rfl)
    (idle : (f (t.leg l)).state ≠ .connecting ∧ (f (t.leg l)).state ≠ .active) :
    CallsKept a ⟨fun m => b.legs m ∧ m ≠ l, b.positions⟩ s (t.modLeg l f) := by
  refine h.trans ⟨fun k => ?_, fun _ k => k.of_same (fun _ => rfl) fun _ => rfl, fun _ => id⟩
  have same : ∀ m, ((t.modLeg l f).leg m).attached = (t.leg m).attached := fun m => by
    by_cases own : l = m
    · subst own
      rw [State.leg_modLeg_same]
      exact attached.elim (fun k' => k'.trans (free k).symm) id
    · rw [State.leg_modLeg_ne _ _ _ _ own]
  have other : ∀ m q, (t.leg m).attached = some q → (t.modLeg l f).leg m = t.leg m := fun m q there =>
    State.leg_modLeg_ne _ _ _ _ fun own => by
      subst own
      exact nomatch (free k).symm.trans there
  constructor
  case mutual_ => exact fun m q => by rw [same]; exact k.mutual_ m q
  case busy =>
    intro m out
    by_cases own : l = m
    · subst own
      rw [same, free k, State.leg_modLeg_same]
      exact ⟨nofun, fun state => state.elim (fun x => absurd x idle.1) fun x => absurd x idle.2⟩
    · rw [State.leg_modLeg_ne _ _ _ _ own]
      exact k.busy m fun x => out ⟨x, Ne.symm own⟩
  case called =>
    intro q m mem
    have was := k.called q m mem
    rw [other m q was.2]
    exact was
  case calls =>
    intro m q out state there
    rw [same] at there
    rw [other m q there] at state
    exact k.calls m q out state there
  case once => exact k.once

/-- The exceptions left after an operation are among those given. -/
theorem narrow {c : Gaps} (h : CallsKept a b s t) (k : AttachBut b t → AttachBut c t) : CallsKept a c s t :=
  ⟨k ∘ h.attach, h.super, h.whisper⟩

end CallsKept

/-- A leg that is not CONNECTING has no CALL_WHISPER. -/
theorem AttachBut.uncalled {a : Gaps} {s : State} (h : AttachBut a s) {l : LegId} (state : (s.leg l).state ≠ .connecting) (p : PosId) :
    l ∉ callers (s.pos p).whisper.entries := fun mem => state (h.called p l mem).1

/-- A detached leg has no position. -/
theorem State.detach_attached (s : State) (l : LegId) : ((s.detach l).leg l).attached = none := by
  unfold State.detach
  split
  · simp
  · assumption

/-- Detaching a leg leaves its state. -/
theorem State.detach_state (s : State) (l m : LegId) : ((s.detach l).leg m).state = (s.leg m).state := by
  unfold State.detach
  split
  · by_cases own : l = m
    · subst own
      simp
    · simp [own]
  · rfl

/-- Detaching a leg frees its position, and no other. -/
theorem State.detach_pos (s : State) (l : LegId) (p : PosId) :
    (s.detach l).pos p = if (s.leg l).attached = some p then { s.pos p with leg := none } else s.pos p := by
  unfold State.detach
  split
  · rename_i q place
    rw [place]
    by_cases own : q = p
    · subst own
      simp
    · simp [own]
  · rename_i place
    simp [place]

theorem State.abortConnect_pos (s : State) (l : LegId) (p : PosId) :
    (s.abortConnect l).pos p = if (s.leg l).attached = some p then { s.pos p with leg := none } else s.pos p := s.detach_pos l p

/-- Reports made one after the other change the link alone. -/
theorem State.foldl_report_eq {α : Type} (f : α → ReportBody) (xs : List α) (s : State) :
    xs.foldl (fun t x => t.report (f x)) s = { s with link := s.link.placeReports s.highway.period (xs.map f) } := by
  induction xs generalizing s with
  | nil => rfl
  | cons x xs ih => exact ih (s.report (f x))

/-- A flushed whisper queue holds no entry (R174). -/
theorem State.releaseWhispers_entries (s : State) (p : PosId) : ((s.releaseWhispers p).pos p).whisper.entries = [] := by
  unfold State.releaseWhispers
  split
  · assumption
  · rename_i ws _
    dsimp only
    rw [State.foldl_report_eq]
    generalize named : ({ (s.modWhisper p fun q => { q with entries := [] }) with link := _ } : State) = u
    have empty : (u.pos p).whisper.entries = [] := by
      rw [← named]
      show ((s.modWhisper p fun q => { q with entries := [] }).pos p).whisper.entries = []
      rw [State.pos_modWhisper_same]
    have rest := ((Walk.refl (ends := fun _ => True) u).headRemoved (.all _) p).entries p
    rw [empty] at rest
    exact List.suffix_nil.1 rest

theorem Leg.originState_idle (x : Leg) : x.originState ≠ .connecting ∧ x.originState ≠ .active := by
  unfold Leg.originState
  split <;> simp

namespace CallsKept

variable {a b : Gaps} {s t : State} {p : PosId}

/-- A leg returns to its origin, its position freed and no exception left at it (R43, R46). -/
theorem abortConnect (h : CallsKept a b s t) (l : LegId) (uncalled : AttachBut b t → ∀ p, l ∉ callers (t.pos p).whisper.entries) :
    CallsKept a ⟨fun m => b.legs m ∧ m ≠ l, b.positions⟩ s (t.abortConnect l) :=
  ((h.detach l uncalled).settle l (fun _ => t.detach_attached l) (idle := Leg.originState_idle _)).narrow fun k =>
    k.widen (fun _ x => ⟨x.1.resolve_right x.2, x.2⟩) fun _ => id

/-! ### Holding -/

theorem beginSession (h : CallsKept a b s t) (l : LegId) (plan : Option PlanId) : CallsKept a b s (t.beginSession l plan) := by
  have entered : ∀ {u}, CallsKept a b s u → CallsKept a b s (u.enterSession l plan) := fun {u} k => by
    obtain ⟨x, _, w⟩ := Walk.enterSession (ends := fun _ => True) u (.all _) l plan
    exact (k.modLeg l (f := fun y => { y with session := some x })).walk w
  unfold State.beginSession
  refine entered ?_
  cases plan with
  | none => exact h
  | some i => exact h.walk ((Walk.refl (ends := fun _ => True) t).planRise (.all _) i)

/-- An ACTIVE leg detached, given notice and HELD (R37, R39). -/
theorem heldActive (h : CallsKept a .none s t) (l : LegId) (active : (t.leg l).state = .active) :
    CallsKept a .none s (((t.detach l).notice l).modLeg l fun x => { x with state := .held }) := by
  have away := (h.detach l fun k => k.uncalled (by simp [active])).notice l
  exact (away.settle l (f := fun x => { x with state := .held }) (fun _ => by
    show (((t.detach l).modEc l _).leg l).attached = none
    simpa [State.modEc] using t.detach_attached l) (idle := ⟨nofun, nofun⟩)).narrow fun k =>
      k.widen (fun _ x => x.1.resolve_right x.2) fun _ => id

/-- An OPEN or ACTIVE leg goes HELD (R37, R39, R45). -/
theorem holdLeg (h : CallsKept a .none s t) (l : LegId) (plan : Option PlanId) (state : (t.leg l).state = .opened ∨ (t.leg l).state = .active) :
    CallsKept a .none s (t.holdLeg l plan) := by
  unfold State.holdLeg
  refine beginSession ?_ l plan
  split
  · exact h.heldActive l ‹_›
  · rename_i open_
    have opened := state.resolve_right open_
    exact (h.settle l (f := fun x => { x with state := .held }) (fun k => by
      have busy := k.busy l id
      rw [opened] at busy
      simpa using busy) (idle := ⟨nofun, nofun⟩)).narrow fun k => k.widen (fun _ x => x.1) fun _ => id

/-! ### The release sequence (R23) -/

/-- The whisper queue is emptied: a leg CONNECTING to the position stands without its CALL_WHISPER (R174). -/
theorem releaseWhispers (h : CallsKept a .none s t) (p : PosId) : CallsKept a ⟨fun _ => False, (· = p)⟩ s (t.releaseWhispers p) := by
  have emptied : CallsKept a ⟨fun _ => False, (· = p)⟩ s (t.modWhisper p fun q => { q with entries := [] }) := by
    refine h.trans ⟨fun k => ?_, fun _ k => ?_, fun _ k q => ?_⟩
    · have queue : ∀ q, callers ((t.modWhisper p fun q => { q with entries := [] }).pos q).whisper.entries
          = if p = q then [] else callers (t.pos q).whisper.entries := fun q => by
        by_cases own : p = q
        · subst own
          simp
        · simp [own]
      have leg : ∀ q, ((t.modWhisper p fun q => { q with entries := [] }).pos q).leg = (t.pos q).leg := fun q => by
        by_cases own : p = q
        · subst own
          simp
        · simp [own]
      constructor
      case mutual_ => exact fun l q => by rw [leg]; exact k.mutual_ l q
      case busy => exact k.busy
      case called =>
        intro q l mem
        rw [queue] at mem
        split at mem
        · exact absurd mem List.not_mem_nil
        · exact k.called q l mem
      case calls =>
        intro l q out
        rw [queue, if_neg fun own => out own.symm]
        exact k.calls l q id
      case once =>
        intro q
        rw [queue]
        split
        · exact Nat.zero_le 1
        · exact k.once q
    · refine k.of_same (fun q => ?_) fun q => ?_
      all_goals
        by_cases own : p = q
        · subst own
          simp
        · simp [own]
    · by_cases own : p = q
      · subst own
        rw [State.pos_modWhisper_same]
        exact ⟨Nat.zero_le 4, nofun⟩
      · rw [State.pos_modWhisper_ne _ _ _ _ own]
        exact k q
  unfold State.releaseWhispers
  split
  · exact h.narrow fun k => k.widen (fun _ => False.elim) fun _ => False.elim
  · rename_i ws _
    have told := emptied.foldl (fun u w => u.report (.whisperAborted (w.reportOf p (some .release)))) (fun _ k => k.report _) (t.pos p).whisper.entries
    exact told.walk ((Walk.refl (ends := fun _ => True) _).headRemoved (.all _) p)

/-- The leg CONNECTING to the position goes back to its origin: no exception is left (R46). -/
theorem releaseConnecting (h : CallsKept a ⟨fun _ => False, (· = p)⟩ s t) (empty : (t.pos p).whisper.entries = []) :
    CallsKept a .none s (t.releaseConnecting p) := by
  unfold State.releaseConnecting
  split
  · rename_i l on
    split
    · have uncalled : AttachBut ⟨fun _ => False, (· = p)⟩ t → ∀ q, l ∉ callers (t.pos q).whisper.entries := fun k q mem => by
        have own : p = q := Option.some.inj (((k.mutual_ l p).2 on).symm.trans (k.called q l mem).2)
        subst own
        rw [empty] at mem
        exact absurd mem List.not_mem_nil
      refine CallsKept.report ⟨fun k => ?_, (h.abortConnect l uncalled).super, (h.abortConnect l uncalled).whisper⟩ _
      have back := (h.abortConnect l uncalled).attach k
      refine back.narrow (fun _ x => x.1.elim) fun m q own _ _ there => ?_
      have free := (back.mutual_ m q).1 there
      rw [show q = p from own, State.abortConnect_pos, if_pos (((h.attach k).mutual_ l p).2 on)] at free
      exact nomatch free
    · rename_i other
      refine h.narrow fun k => k.narrow (fun _ x => x.elim) fun m q own _ state there => ?_
      have same : l = m := Option.some.inj (on.symm.trans ((k.mutual_ m p).1 (by rw [there, show q = p from own])))
      exact absurd (same ▸ state) other
  · rename_i free
    refine h.narrow fun k => k.narrow (fun _ x => x.elim) fun m q own _ _ there => ?_
    exact nomatch free.symm.trans ((k.mutual_ m p).1 (by rw [there, show q = p from own]))

theorem releaseActive (h : CallsKept a .none s t) (p : PosId) (cause : ReleaseCause) : CallsKept a .none s (t.releaseActive p cause) := by
  unfold State.releaseActive
  split
  · split
    · exact (h.holdLeg _ _ (.inr ‹_›)).report _
    · exact h
  · exact h

/-- A supervision ends (R179, R180). -/
theorem endSupervision (h : CallsKept a b s t) (q : PosId) : CallsKept a b s (t.endSupervision q) := by
  have ended : CallsKept a b s (t.modPos q fun x => { x with supervision := none }) := by
    have leg : ∀ p, ((t.modPos q fun x => { x with supervision := none }).pos p).leg = (t.pos p).leg := fun p => by
      by_cases own : q = p
      · subst own
        simp
      · simp [own]
    have queue : ∀ p, ((t.modPos q fun x => { x with supervision := none }).pos p).whisper = (t.pos p).whisper := fun p => by
      by_cases own : q = p
      · subst own
        simp
      · simp [own]
    have kept : ∀ p r, ((t.modPos q fun x => { x with supervision := none }).pos p).supervision = some r → (t.pos p).supervision = some r :=
      fun p r => by
        by_cases own : q = p
        · subst own
          simp
        · simp [own]
    refine h.trans ⟨fun k => k.of_same (fun _ => .refl _) leg fun p => by rw [queue], fun _ k p r some_ => ?_, fun _ k p => by rw [queue]; exact k p⟩
    obtain ⟨away, free, only⟩ := k p r (kept p r some_)
    exact ⟨away, by rw [leg]; exact free, fun p' r' some' => only p' r' (kept p' r' some')⟩
  unfold State.endSupervision
  split
  · exact h
  · dsimp only
    split
    · split
      · exact ended.notice _
      · exact ended
    · exact ended

theorem releaseRecord (h : CallsKept a b s t) (q : PosId) (cause : ReleaseCause) : CallsKept a b s (t.releaseRecord q cause) := by
  unfold State.releaseRecord
  split
  · exact h
  · exact (h.endSupervision q).report _

theorem releaseSupervision (h : CallsKept a b s t) (p : PosId) (cause : ReleaseCause) : CallsKept a b s (t.releaseSupervision p cause) := by
  unfold State.releaseSupervision
  dsimp only
  split
  · exact (h.releaseRecord p cause).releaseRecord _ cause
  · exact h.releaseRecord p cause

theorem releaseSequence (h : CallsKept a .none s t) (p : PosId) (cause : ReleaseCause) :
    CallsKept a .none s (t.releaseSequence p cause) := by
  have departed := ((h.releaseWhispers p).releaseConnecting (t.releaseWhispers_entries p)).releaseActive p cause
  unfold State.releaseSequence
  exact ((departed.releaseSupervision p cause).setMute p false .release).modPos p (f := fun x => { x with earVolume := x.config.earVolume })

/-! ### The events and requests of positions -/

theorem takeUnplug (h : CallsKept a .none s t) (p : PosId) : CallsKept a .none s (t.takeUnplug p) := by
  unfold State.takeUnplug
  dsimp only
  exact (((ite ((h.leaveLive p).releaseSequence p .unplug) (h.leaveLive p)).modPort p _).report _).finish t

theorem takeExpiry (h : CallsKept a .none s t) (p : PosId) : CallsKept a .none s (t.takeExpiry p) :=
  ((((h.modPort p fun x => { x with window := none }).releaseSequence p .linkLost).report _).modPort p _).finish t

theorem takeLockLoss (h : CallsKept a b s t) (p : PosId) : CallsKept a b s (t.takeLockLoss p) :=
  (((h.leaveLive p).modPort p fun x => { x with
    state := .lost, missing := 0, parityCount := 0, parityAlert := false, window := some 0 }).report _).finish t

theorem enterQualifying (h : CallsKept a b s t) (p : PosId) (time : Nat) : CallsKept a b s (t.enterQualifying p time) := by
  unfold State.enterQualifying
  exact ite ((h.modPort p _).enterLive p) (h.modPort p _)

theorem closeMeasurement (h : CallsKept a b s t) (p : PosId) (time elapsed : Nat) : CallsKept a b s (t.closeMeasurement p time elapsed) := by
  have closed := h.modPort p fun x => { x with
    lastOffset := measureOffset elapsed, measured := true, previous := some (measureOffset elapsed), interval := some ⟨time, 0⟩ }
  have faulted := (closed.modPort p fun x => { x with rateFault := true }).report (.rateFault p (measureOffset elapsed))
  unfold State.closeMeasurement
  dsimp only
  split
  · exact ite ((ite faulted closed).enterQualifying p time) (ite faulted closed)
  · exact ite faulted closed

theorem countFrame (h : CallsKept a b s t) (p : PosId) (time : Nat) : CallsKept a b s (t.countFrame p time) := by
  have seen := h.modPort p fun x => { x with noFrames := false, frameSeen := true }
  unfold State.countFrame
  dsimp only
  split
  · exact seen.modPort p _
  · exact ite (seen.modPort p _) (seen.closeMeasurement p time _)

theorem goodFrame (h : CallsKept a b s t) (p : PosId) (f : UpFrame) : CallsKept a b s (t.goodFrame p f) := by
  have taken := (h.modPort p fun x => { x with uplink := x.uplink.append f.samples, badRun := 0, lastGood := some f.samples }).controlSlot p f.buttons
  exact ite taken (taken.finish t)

theorem badFrame (h : CallsKept a b s t) (p : PosId) : CallsKept a b s (t.badFrame p) := by
  unfold State.badFrame
  dsimp only
  exact ite (((h.modPort p _).modPort p _).report _) (h.modPort p _)

theorem upFrame (h : CallsKept a b s t) (p : PosId) (f : UpFrame) (time : Nat) : CallsKept a b s (t.upFrame p f time) := by
  unfold State.upFrame
  split
  · exact h
  · exact h
  · exact h
  · exact h.countFrame p time
  · exact h.modPort p _
  · exact ite ((h.modPort p _).goodFrame p f) ((h.modPort p _).badFrame p)
  · exact h.modPort p _

theorem downFrame (h : CallsKept a b s t) (p : PosId) : CallsKept a b s (t.downFrame p) := by
  unfold State.downFrame
  split
  · exact h.modPort p _
  · exact h.modPort p _
  all_goals exact h

theorem frameMissed (h : CallsKept a b s t) (p : PosId) : CallsKept a b s (t.frameMissed p) := by
  unfold State.frameMissed
  dsimp only
  split
  · exact ite (h.modPort p _) (h.modPort p _)
  · exact ite (h.takeLockLoss p) (h.modPort p _)
  all_goals exact h

theorem speechOnset (h : CallsKept a b s t) (p : PosId) : CallsKept a b s (t.speechOnset p) := by
  unfold State.speechOnset
  split
  · split
    · exact ite (h.runOne.finish t) h
    · exact h
    · exact h
  · exact h

theorem putMic (h : CallsKept a b s t) (p : PosId) (x : Block) : CallsKept a b s (t.putMic p x) := h.others

theorem drawMic (h : CallsKept a b s t) (p : PosId) : CallsKept a b s (t.drawMic p) := by
  have drawn := h.modPort p fun y => { y with uplink := (t.pos p).port.uplink.draw.1, priming := false }
  unfold State.drawMic
  dsimp only
  split
  · exact h.putMic p _
  · split
    · exact ite (((drawn.modPos p).putMic p _).speechOnset p) ((drawn.modPos p).putMic p _)
    · exact drawn.putMic p _

theorem unplugIfDue (h : CallsKept a .none s t) (p : PosId) : CallsKept a .none s (t.unplugIfDue p) := ite (h.takeUnplug p) h

theorem expiryIfDue (h : CallsKept a .none s t) (p : PosId) : CallsKept a .none s (t.expiryIfDue p) := ite (h.takeExpiry p) h

theorem liveIfDue (h : CallsKept a b s t) (p : PosId) : CallsKept a b s (t.liveIfDue p) := ite (h.enterLive p) h

theorem transitions (h : CallsKept a .none s t) (p : PosId) (order : EventOrder) : CallsKept a .none s (t.transitions p order) := by
  cases order with
  | unplugFirst => exact ((h.unplugIfDue p).expiryIfDue p).liveIfDue p
  | expiryFirst => exact ((h.expiryIfDue p).unplugIfDue p).liveIfDue p
  | liveFirst => exact ((h.liveIfDue p).unplugIfDue p).expiryIfDue p

theorem portBlock (h : CallsKept a .none s t) (order : EventOrder) (p : PosId) (presence : Bool) :
    CallsKept a .none s (t.portBlock order p presence) := by
  have counted := (h.modPort p fun x => ((x.sampleUnplug presence).countBlock).judgeFrames).putMic p zeroBlock
  unfold State.portBlock
  split
  · exact h.putMic p _
  · have sampled := (h.modPort p fun x => { x with
      presence := presence, insertCount := if presence then x.insertCount + 1 else 0 }).putMic p zeroBlock
    exact ite ((sampled.modPort p _).report _) sampled
  · have sampled := (h.modPort p fun x => { (x.sampleUnplug presence) with frameSeen := false }).putMic p zeroBlock
    exact ite (sampled.takeUnplug p) (sampled.modPort p _)
  · exact counted.transitions p order
  · exact counted.transitions p order
  · exact counted.transitions p order
  · have sampled := h.modPort p fun x => (x.sampleUnplug presence).judgeFrames
    exact ite ((sampled.putMic p _).takeUnplug p) (sampled.drawMic p)

theorem enablePort (h : CallsKept a b s t) (p : PosId) : CallsKept a b s (t.enablePort p) := by
  unfold State.enablePort
  split
  · exact h.modPort p _
  · exact h

theorem disablePort (h : CallsKept a .none s t) (p : PosId) : CallsKept a .none s (t.disablePort p) := by
  unfold State.disablePort
  split
  · exact h
  · exact h.modPort p _
  · exact (((h.leaveLive p).releaseSequence p .portDisabled).modPort p _).finish t

theorem configure (h : CallsKept a b s t) (p : PosId) (c : PositionConfig) : CallsKept a b s (t.configure p c) :=
  (h.modPos p (f := fun x => { x with config := c, earVolume := c.earVolume })).finish t

end CallsKept

end Sys2Proof.Machine
end

section
set_option Elab.async false
/-! ## Legs and positions naming one another, the supervisions and the whisper queues, through the requests about legs, whispers and
supervision (R35 to R47, R164 to R181) -/

namespace Sys2Proof.Machine

namespace CallsKept

variable {a b : Gaps} {s t : State}

/-! ### A leg brought to a free position -/

/-- A leg without a position is attached to one without a leg that supervises nobody, and is ACTIVE there, or CONNECTING with its
CALL_WHISPER still to come (R40, R41). -/
theorem bring (l : LegId) (p : PosId) {leg : Leg} (gaps : Gaps) (legs : ∀ m, t.leg m = if l = m then leg else s.leg m)
    (positions : ∀ q, t.pos q = if p = q then { s.pos q with leg := some l } else s.pos q) (attached : leg.attached = some p)
    (away : (s.leg l).state = .opened ∨ (s.leg l).state = .held) (free : (s.pos p).leg = none) (idle : (s.pos p).supervision = none)
    (state : leg.state = .active ∨ (leg.state = .connecting ∧ gaps.positions p)) : CallsKept .none gaps s t := by
  have queue : ∀ q, (t.pos q).whisper = (s.pos q).whisper := fun q => by
    rw [positions]
    split <;> rfl
  have supervision : ∀ q, (t.pos q).supervision = (s.pos q).supervision := fun q => by
    rw [positions]
    split <;> rfl
  constructor
  case attach =>
    intro k
    have free_ : (s.leg l).attached = none := by
      have busy := k.busy l id
      rcases away with e | e <;> rw [e] at busy <;> simpa using busy
    have notThere : ∀ m, (s.leg m).attached ≠ some p := fun m there => nomatch free.symm.trans ((k.mutual_ m p).1 there)
    constructor
    case mutual_ =>
      intro m q
      rw [legs, positions]
      by_cases own : l = m <;> by_cases here : p = q
      · subst own here
        simp [attached]
      · subst own
        rw [if_pos rfl, if_neg here, attached]
        refine ⟨fun e => absurd (Option.some.inj e) here, fun e => ?_⟩
        exact nomatch free_.symm.trans ((k.mutual_ l q).2 e)
      · subst here
        rw [if_neg own, if_pos rfl]
        exact ⟨fun e => absurd e (notThere m), fun e => absurd (Option.some.inj e) own⟩
      · rw [if_neg own, if_neg here]
        exact k.mutual_ m q
    case busy =>
      intro m out
      rw [legs]
      by_cases own : l = m
      · rw [if_pos own, attached]
        refine ⟨fun _ => ?_, fun _ => rfl⟩
        exact state.elim .inr fun e => .inl e.1
      · rw [if_neg own]
        exact k.busy m id
    case called =>
      intro q m mem
      rw [queue] at mem
      have was := k.called q m mem
      rw [legs, if_neg fun own => by
        subst own
        exact nomatch free_.symm.trans was.2]
      exact was
    case calls =>
      intro m q out connecting there
      rw [legs] at connecting there
      rw [queue]
      by_cases own : l = m
      · rw [if_pos own] at connecting there
        have here : p = q := Option.some.inj (attached.symm.trans there)
        exact state.elim (fun e => nomatch e.symm.trans connecting) fun e => absurd (here ▸ e.2) out
      · rw [if_neg own] at connecting there
        exact k.calls m q id connecting there
    case once => exact fun q => by rw [queue]; exact k.once q
  case super =>
    intro _ k q r some_
    rw [supervision] at some_
    obtain ⟨other, leg, only⟩ := k q r some_
    refine ⟨other, ?_, fun q' r' some' => only q' r' (by rwa [supervision] at some')⟩
    rw [positions, if_neg fun own => by
      subst own
      exact nomatch idle.symm.trans some_]
    exact leg
  case whisper => exact fun _ k q => by rw [queue]; exact k q

/-! ### Connecting -/

theorem mayConnect_iff (s : State) (l : LegId) (p : PosId) : s.mayConnect l p = true ↔
    ((s.leg l).state = .opened ∨ (s.leg l).state = .held) ∧ s.isLive p = true ∧ (s.pos p).leg = none ∧ (s.pos p).supervision = none := by
  simp [State.mayConnect, State.isSupervisor, and_assoc]

/-- A connect without a whisper (R40). -/
theorem connectNow {l : LegId} {p : PosId} (may : s.mayConnect l p = true) : CallsKept .none .none s (s.connectNow l p) := by
  obtain ⟨away, _, free, idle⟩ := (mayConnect_iff s l p).1 may
  have gone : CallsKept .none .none s (s.goActive l p) := by
    rw [State.goActive_eq]
    refine bring l p (leg := (s.leg l).active p) .none (fun m => ?_) (fun q => ?_) rfl away free idle (.inl rfl)
    · by_cases own : l = m
      · subst own
        simp
      · simp [own]
    · by_cases own : p = q
      · subst own
        simp
      · simp [own]
  have first : s.run [.legActive l p] = drive 4095 [.sessionEnd l true] (s.goActive l p) := rfl
  unfold State.connectNow
  rw [first]
  refine (gone.walk (Walk.drive (.all _) _ fun x mem => ?_)).finish s
  rw [List.mem_singleton.1 mem]
  trivial

end CallsKept

/-! ### A CALL_WHISPER placed (R41, R166) -/

theorem begun_of_mem_takeWhile {ws : List WhisperEntry} (h : QueueLaw ws) :
    ws.takeWhile (·.begun) = [] ∨ ∃ w rest, ws = w :: rest ∧ ws.takeWhile (·.begun) = [w] := by
  cases ws with
  | nil => exact .inl rfl
  | cons w rest =>
    by_cases begun : w.begun = true
    · refine .inr ⟨w, rest, rfl, ?_⟩
      rw [List.takeWhile_cons_of_pos begun]
      cases rest with
      | nil => rfl
      | cons x rest => rw [List.takeWhile_cons_of_neg (by simp [h.2 x (by simp)])]
    · exact .inl (List.takeWhile_cons_of_neg begun)

/-- A CALL_WHISPER placed in a queue with room stands among entries of which none but the head has begun (R166). -/
theorem QueueLaw.placed {ws : List WhisperEntry} (h : QueueLaw ws) (room : ws.length < 4) {w : WhisperEntry} (fresh : w.begun = false) :
    QueueLaw (placeBehindBegun w ws) := by
  have parts := List.takeWhile_append_dropWhile (p := fun x : WhisperEntry => x.begun) (l := ws)
  have behind : ∀ x ∈ ws.dropWhile (·.begun), x.begun = false := by
    obtain none_ | ⟨x, rest, rfl, one⟩ := begun_of_mem_takeWhile h
    · rw [none_, List.nil_append] at parts
      rw [parts]
      cases ws with
      | nil => exact nofun
      | cons x rest =>
        intro y mem
        rcases List.mem_cons.1 mem with rfl | mem
        · by_contra begun
          rw [List.takeWhile_cons_of_pos (by simpa using begun)] at none_
          cases none_
        · exact h.2 y mem
    · rw [one] at parts
      have tail : List.dropWhile (fun y => y.begun) (x :: rest) = rest := (List.cons.inj parts).2
      rw [tail]
      exact h.2
  constructor
  · have size := congrArg List.length parts
    unfold placeBehindBegun
    simp only [List.length_append, List.length_cons] at size ⊢
    omega
  · unfold placeBehindBegun
    intro x mem
    obtain none_ | ⟨y, rest, rfl, one⟩ := begun_of_mem_takeWhile h
    · rw [none_] at mem
      exact behind x mem
    · rw [one] at mem
      rcases List.mem_cons.1 mem with rfl | mem
      · exact fresh
      · exact behind x mem

theorem callers_placed (ws : List WhisperEntry) (l : LegId) (c : ClipId) (none_ : callers ws = []) :
    callers (placeBehindBegun ⟨.call l, c, false⟩ ws) = [l] := by
  have parts := List.takeWhile_append_dropWhile (p := fun x : WhisperEntry => x.begun) (l := ws)
  rw [← parts, callers_append, List.append_eq_nil_iff] at none_
  unfold placeBehindBegun
  rw [callers_append, callers_cons_call rfl, none_.1, none_.2]
  rfl

/-- The queue without its newest waiting PROMPT (R166). -/
theorem dropNewestPrompt_sublist {ws rest : List WhisperEntry} {w : WhisperEntry} (h : dropNewestPrompt ws = some (w, rest)) :
    rest.Sublist ws ∧ rest.length + 1 = ws.length := by
  unfold dropNewestPrompt at h
  split at h
  · cases h
  · rename_i x found
    rw [← (Prod.mk.inj (Option.some.inj h)).2]
    constructor
    · have part := (List.eraseP_sublist (p := fun x : WhisperEntry => x.isPrompt && !x.begun) (l := ws.reverse)).reverse
      rwa [List.reverse_reverse] at part
    · have mem := List.mem_of_find?_eq_some found
      have size := List.length_eraseP_of_mem mem (List.find?_some found)
      have full := List.length_pos_of_mem mem
      rw [List.length_reverse] at size full ⊢
      rw [size]
      omega

/-- A full queue of PROMPTs has one that waits (R166). -/
theorem dropNewestPrompt_some {ws : List WhisperEntry} (h : QueueLaw ws) (none_ : callers ws = []) (full : 4 ≤ ws.length) :
    ∃ w rest, dropNewestPrompt ws = some (w, rest) := by
  obtain ⟨x, y, rest, rfl⟩ : ∃ x y rest, ws = x :: y :: rest := by
    match ws, full with
    | x :: y :: rest, _ => exact ⟨x, y, rest, rfl⟩
  have prompt : y.isPrompt = true := by
    rw [← WhisperEntry.caller_eq_none]
    by_contra some_
    obtain ⟨l, e⟩ := Option.ne_none_iff_exists'.1 some_
    have mem : l ∈ callers (x :: y :: rest) := List.mem_filterMap.2 ⟨y, by simp, e⟩
    rw [none_] at mem
    exact absurd mem List.not_mem_nil
  unfold dropNewestPrompt
  split
  · rename_i missing
    exact absurd (List.find?_eq_none.1 missing y (by simp)) (by simp [prompt, h.2 y (by simp)])
  · exact ⟨_, _, rfl⟩

/-- A queue's entries put back as they are. -/
theorem State.modWhisper_self (s : State) (p : PosId) : (s.modWhisper p fun q => { q with entries := (s.pos p).whisper.entries }) = s := by
  have positions : tset s.positions p (s.pos p) = s.positions := by
    apply Vector.ext
    intro i hi
    simp [tset, State.pos, tget]
  unfold State.modWhisper State.modPos
  exact congrArg (fun x => { s with positions := x }) positions

/-- What the making of room does to a queue (R41, R166). -/
theorem State.makeRoom_entries (s : State) (p : PosId) : ∃ ws link, s.makeRoom p =
    { (s.modWhisper p fun q => { q with entries := ws }) with link := link } ∧ ws.Sublist (s.pos p).whisper.entries ∧
    (callers (s.pos p).whisper.entries = [] → QueueLaw (s.pos p).whisper.entries → ws.length < 4) := by
  have same := s.modWhisper_self p
  unfold State.makeRoom
  split
  · rename_i room
    exact ⟨_, s.link, by rw [same], List.Sublist.refl _, fun _ _ => room⟩
  · rename_i full
    split
    · rename_i w rest dropped
      obtain ⟨part, size⟩ := dropNewestPrompt_sublist dropped
      refine ⟨rest, _, rfl, part, fun _ law => ?_⟩
      have most := law.1
      omega
    · rename_i missing
      refine ⟨_, s.link, by rw [same], List.Sublist.refl _, fun none_ law => ?_⟩
      obtain ⟨w, rest, some_⟩ := dropNewestPrompt_some law none_ (Nat.le_of_not_lt full)
      exact nomatch missing.symm.trans some_

namespace CallsKept

variable {a b : Gaps} {s t : State} {p : PosId}

/-- The CALL_WHISPER of a CONNECTING leg placed in a queue that holds none: the law holds without exception (R41, R166). -/
theorem placed (h : AttachBut ⟨fun _ => False, (· = p)⟩ t) {l : LegId} (c : ClipId) {ws : List WhisperEntry}
    (state : (t.leg l).state = .connecting) (there : (t.leg l).attached = some p) (none_ : callers ws = []) :
    AttachBut .none (t.modWhisper p fun q => { q with entries := placeBehindBegun ⟨.call l, c, false⟩ ws }) := by
  have queue : ∀ q, callers ((t.modWhisper p fun q => { q with entries := placeBehindBegun ⟨.call l, c, false⟩ ws }).pos q).whisper.entries
      = if p = q then [l] else callers (t.pos q).whisper.entries := fun q => by
    by_cases own : p = q
    · subst own
      rw [State.pos_modWhisper_same, if_pos rfl]
      exact callers_placed ws l c none_
    · rw [State.pos_modWhisper_ne _ _ _ _ own, if_neg own]
  have leg : ∀ q, ((t.modWhisper p fun q => { q with entries := placeBehindBegun ⟨.call l, c, false⟩ ws }).pos q).leg = (t.pos q).leg :=
    fun q => by
      by_cases own : p = q
      · subst own
        simp
      · simp [own]
  constructor
  case mutual_ => exact fun m q => by rw [leg]; exact h.mutual_ m q
  case busy => exact h.busy
  case called =>
    intro q m mem
    rw [queue] at mem
    split at mem
    · rename_i own
      subst own
      rw [List.mem_singleton.1 mem]
      exact ⟨state, there⟩
    · exact h.called q m mem
  case calls =>
    intro m q _ connecting place
    rw [queue]
    split
    · rename_i own
      subst own
      exact List.mem_singleton.2 (Option.some.inj (((h.mutual_ m p).1 place).symm.trans ((h.mutual_ l p).1 there)))
    · rename_i own
      exact h.calls m q (Ne.symm own) connecting place
  case once =>
    intro q
    rw [queue]
    split
    · exact le_refl 1
    · exact h.once q

/-- A connect with a whisper (R41). -/
theorem connectWhisper {l : LegId} {p : PosId} (may : s.mayConnect l p = true) (clip : ClipId) :
    CallsKept .none .none s (s.connectWhisper l p clip) := by
  obtain ⟨away, _, free, idle⟩ := (mayConnect_iff s l p).1 may
  have before : AttachBut .none s → callers (s.pos p).whisper.entries = [] := fun k =>
    List.eq_nil_iff_forall_not_mem.2 fun m mem => nomatch free.symm.trans ((k.mutual_ m p).1 (k.called p m mem).2)
  unfold State.connectWhisper
  dsimp only
  have legs : ∀ m, (((s.modLeg l fun x => { x with state := .connecting, origin := x.state.asOrigin }).attach l p).leg m)
      = if l = m then { s.leg l with
          state := .connecting, origin := (s.leg l).state.asOrigin, attached := some p, last := some p } else s.leg m := fun m => by
    unfold State.attach
    by_cases own : l = m
    · subst own
      simp
    · simp [own]
  have positions : ∀ q, (((s.modLeg l fun x => { x with state := .connecting, origin := x.state.asOrigin }).attach l p).pos q)
      = if p = q then { s.pos q with leg := some l } else s.pos q := fun q => by
    unfold State.attach
    by_cases own : p = q
    · subst own
      simp
    · simp [own]
  have brought := bring l p ⟨fun _ => False, (· = p)⟩ legs positions rfl away free idle (.inr ⟨rfl, rfl⟩)
  have state := congrArg Leg.state ((legs l).trans (if_pos rfl))
  have there := congrArg Leg.attached ((legs l).trans (if_pos rfl))
  have queue := congrArg Position.whisper ((positions p).trans (if_pos rfl))
  generalize (s.modLeg l fun x => { x with state := .connecting, origin := x.state.asOrigin }).attach l p = t at brought state there queue ⊢
  refine CallsKept.finish ?_ s
  obtain ⟨ws, link, room, part, short⟩ := t.makeRoom_entries p
  have queue : (t.pos p).whisper.entries = (s.pos p).whisper.entries := by rw [queue]
  rw [queue] at part short
  have unnamed : AttachBut .none s → callers ws = [] := fun k => List.sublist_nil.1 (before k ▸ part.filterMap WhisperEntry.caller)
  have joined : CallsKept .none .none s ((t.makeRoom p).modWhisper p fun q => { q with
      entries := placeBehindBegun ⟨.call l, clip, false⟩ q.entries }) := by
    have merged : (t.makeRoom p).modWhisper p (fun q => { q with entries := placeBehindBegun ⟨.call l, clip, false⟩ q.entries }) =
        { (t.modWhisper p fun q => { q with entries := placeBehindBegun ⟨.call l, clip, false⟩ ws }) with link := link } := by
      rw [room]
      show ({ ((t.modWhisper p fun q => { q with entries := ws }).modWhisper p fun q => { q with
        entries := placeBehindBegun ⟨.call l, clip, false⟩ q.entries }) with link := link } : State) = _
      unfold State.modWhisper
      rw [State.modPos_modPos]
    rw [merged]
    refine CallsKept.others ⟨fun k => placed (brought.attach k) clip state there (unnamed k), fun k law => ?_, fun k law q => ?_⟩
    · refine (brought.super k law).of_same (fun q => ?_) fun q => ?_
      all_goals
        by_cases own : p = q
        · subst own
          rw [State.pos_modWhisper_same]
        · rw [State.pos_modWhisper_ne _ _ _ _ own]
    · by_cases own : p = q
      · subst own
        rw [State.pos_modWhisper_same]
        exact ((show QueueLaw _ from law p).sublist part).placed (short (before k) (law p)) rfl
      · rw [State.pos_modWhisper_ne _ _ _ _ own]
        exact brought.whisper k law q
  unfold State.placeCallWhisper
  dsimp only
  split
  all_goals
    split
    · exact joined.runOne
    · exact (joined.walk ((Walk.refl (ends := fun _ => True) _).undoHead (.all _) p)).runOne

/-! ### A CALL_WHISPER removed (R43, R44, R174) -/

/-- A leg's CALL_WHISPER taken from its position's queue: the position stands without it (R43, R44). -/
theorem unplaced (h : CallsKept a .none s t) {ws : List WhisperEntry} (part : ws.Sublist (t.pos p).whisper.entries)
    (called : AttachBut .none t → callers ws = []) :
    CallsKept a ⟨fun _ => False, (· = p)⟩ s (t.modWhisper p fun q => { q with entries := ws }) := by
  have pos : ∀ q, (t.modWhisper p fun q => { q with entries := ws }).pos q
      = if p = q then { t.pos q with whisper := { (t.pos q).whisper with entries := ws } } else t.pos q := fun q => by
    by_cases own : p = q
    · subst own
      simp
    · simp [own]
  have leg : ∀ q, ((t.modWhisper p fun q => { q with entries := ws }).pos q).leg = (t.pos q).leg := fun q => by rw [pos]; split <;> rfl
  have queue : AttachBut .none t → ∀ q, callers ((t.modWhisper p fun q => { q with entries := ws }).pos q).whisper.entries
      = if p = q then [] else callers (t.pos q).whisper.entries := fun k q => by
    rw [pos]
    split
    · exact called k
    · rfl
  refine h.trans ⟨fun k => ?_, fun _ k => k.of_same leg fun q => by rw [pos]; split <;> rfl, fun _ k q => ?_⟩
  · constructor
    case mutual_ => exact fun m q => by rw [leg]; exact k.mutual_ m q
    case busy => exact k.busy
    case called =>
      intro q m mem
      rw [queue k] at mem
      split at mem
      · exact absurd mem List.not_mem_nil
      · exact k.called q m mem
    case calls =>
      intro m q out
      rw [queue k, if_neg (Ne.symm out)]
      exact k.calls m q id
    case once =>
      intro q
      rw [queue k]
      split
      · exact Nat.zero_le 1
      · exact k.once q
  · rw [pos]
    split
    · rename_i own
      subst own
      exact (show QueueLaw _ from k p).sublist part
    · exact k q

end CallsKept

/-- A queue without the CALL_WHISPER of a leg: the entries left, and whether the head was taken (R174). -/
def withoutCall (l : LegId) : List WhisperEntry → List WhisperEntry
  | [] => []
  | w :: rest => if w.isCallOf l then rest else w :: rest.filter fun x => !x.isCallOf l

theorem withoutCall_cons (l : LegId) (w : WhisperEntry) (rest : List WhisperEntry) : withoutCall l (w :: rest) =
    if w.isCallOf l then rest else w :: rest.filter fun x => !x.isCallOf l := rfl

theorem withoutCall_sublist (l : LegId) (ws : List WhisperEntry) : (withoutCall l ws).Sublist ws := by
  cases ws with
  | nil => exact List.Sublist.refl _
  | cons w rest =>
    rw [withoutCall_cons]
    split
    · exact List.sublist_cons_self w rest
    · exact List.Sublist.cons_cons _ List.filter_sublist

theorem callers_withoutCall {l : LegId} {ws : List WhisperEntry} (only : callers ws = [l]) : callers (withoutCall l ws) = [] := by
  cases ws with
  | nil => rfl
  | cons w rest =>
    rw [withoutCall_cons]
    split
    · rename_i call
      rw [callers_cons_call (WhisperEntry.caller_eq_some.1 (WhisperEntry.isCallOf_iff.1 call))] at only
      exact (List.cons.inj only).2
    · rename_i other
      refine List.eq_nil_iff_forall_not_mem.2 fun m mem => ?_
      have part := (withoutCall_sublist l (w :: rest)).filterMap WhisperEntry.caller
      rw [withoutCall_cons, if_neg other] at part
      have own : m = l := List.mem_singleton.1 (only ▸ part.subset mem)
      obtain ⟨x, mem, is⟩ := mem_callers.1 mem
      subst own
      rcases List.mem_cons.1 mem with rfl | mem
      · exact other is
      · simp [is] at mem

/-- A CALL_WHISPER removed: the entries left stand, and where the head went its request is undone (R43, R44, R174). -/
theorem State.removeCallWhisper_walk (s : State) (l : LegId) (p : PosId) :
    Walk (fun _ => True) (s.modWhisper p fun q => { q with entries := withoutCall l (s.pos p).whisper.entries }) (s.removeCallWhisper l p) := by
  unfold State.removeCallWhisper
  split
  · rename_i entries
    rw [entries]
    have same : (s.modWhisper p fun q => { q with entries := withoutCall l [] }) = s := by
      have kept : (s.modWhisper p fun q => { q with entries := (s.pos p).whisper.entries }) = s := State.modWhisper_self s p
      rw [entries] at kept
      exact kept
    rw [same]
    exact .refl s
  · rename_i w rest entries
    rw [entries, withoutCall_cons]
    split
    · exact (Walk.refl _).headRemoved (.all _) p
    · exact .refl _

namespace CallsKept

variable {a b : Gaps} {s t : State} {p : PosId}

/-- What is kept may rest on the law of attachment at the start. -/
theorem given (h : AttachBut a s → CallsKept a b s t) : CallsKept a b s t :=
  ⟨fun k => (h k).attach k, fun k => (h k).super k, fun k => (h k).whisper k⟩

/-- A CONNECTING leg's CALL_WHISPER alone names it. -/
theorem only_caller (h : AttachBut .none s) {l : LegId} (state : (s.leg l).state = .connecting) (there : (s.leg l).attached = some p) :
    callers (s.pos p).whisper.entries = [l] := by
  have mem := h.calls l p id state there
  obtain ⟨m, e⟩ := List.length_eq_one_iff.1 (Nat.le_antisymm (h.once p) (List.length_pos_of_mem mem))
  rw [e] at mem ⊢
  rw [List.mem_singleton.1 mem]

/-- No other position's queue names a CONNECTING leg, and its own no more once its CALL_WHISPER is taken. -/
theorem uncalled_without (h : AttachBut .none s) {l : LegId} (state : (s.leg l).state = .connecting) (there : (s.leg l).attached = some p) (q : PosId) :
    l ∉ callers ((s.modWhisper p fun q => { q with entries := withoutCall l (s.pos p).whisper.entries }).pos q).whisper.entries := by
  by_cases own : p = q
  · subst own
    rw [State.pos_modWhisper_same]
    dsimp only
    rw [callers_withoutCall (only_caller h state there)]
    exact List.not_mem_nil
  · rw [State.pos_modWhisper_ne _ _ _ _ own]
    exact fun mem => own (Option.some.inj (there.symm.trans (h.called q l mem).2))

/-- A connect cancelled (R43). -/
theorem cancelConnect {l : LegId} (state : (s.leg l).state = .connecting) : CallsKept .none .none s (s.cancelConnect l) := by
  unfold State.cancelConnect
  split
  · rename_i p there
    refine CallsKept.finish ?_ s
    have taken := (refl .none s).unplaced (withoutCall_sublist l (s.pos p).whisper.entries) fun k =>
      callers_withoutCall (only_caller k state there)
    have walk := (s.abortConnect l).removeCallWhisper_walk l p
    have entries : ((s.abortConnect l).pos p).whisper.entries = (s.pos p).whisper.entries := by
      rw [State.abortConnect_pos, if_pos there]
    rw [entries] at walk
    have swap : (s.abortConnect l).modWhisper p (fun q => { q with entries := withoutCall l (s.pos p).whisper.entries }) =
        (s.modWhisper p fun q => { q with entries := withoutCall l (s.pos p).whisper.entries }).abortConnect l := by
      have there' : ((s.modWhisper p fun q => { q with entries := withoutCall l (s.pos p).whisper.entries }).leg l).attached = some p := there
      unfold State.abortConnect State.detach
      rw [there, there']
      dsimp only
      show ((((s.modLeg l fun x => { x with attached := none }).modLeg l fun x => { x with state := x.originState, origin := none }).modPos p
          fun x => { x with leg := none }).modPos p fun x => { x with whisper := _ }) = ((((s.modLeg l fun x => { x with
          attached := none }).modLeg l fun x => { x with state := x.originState, origin := none }).modPos p
            fun x => { x with whisper := _ }).modPos p fun x => { x with leg := none })
      rw [State.modPos_modPos, State.modPos_modPos]
      rfl
    rw [swap] at walk
    refine CallsKept.walk (given fun k => ?_) walk
    refine (taken.abortConnect l fun _ => uncalled_without k state there).narrow fun back =>
      back.narrow (fun _ x => x.1.elim) fun m q own _ _ place => ?_
    have free := (back.mutual_ m q).1 place
    rw [show q = p from own, State.abortConnect_pos] at free
    rw [if_pos (show ((s.modWhisper p _).leg l).attached = some p from there)] at free
    exact nomatch free
  · exact refl .none s

/-! ### Opening, closing and holding -/

theorem poolStep (h : CallsKept a b s t) {u : State} (k : PoolStep t u) : CallsKept a b s u := by
  refine h.trans (of_kept (fun l => ?_) fun p => ?_)
  · obtain ⟨c, e, _⟩ := k.legs l
    rw [e]
    exact ⟨rfl, rfl⟩
  · rw [k.frame]
    exact .refl _

theorem topUpPass (h : CallsKept a b s t) : CallsKept a b s t.topUpPass := h.poolStep (PoolStep.topUp _ _)

theorem openEc (h : CallsKept a b s t) (l : LegId) (tail : Nat) (mode : DelayMode) (d : Nat) : CallsKept a b s (t.openEc l tail mode d) := by
  have granted := (h.modEc l fun c => c.openColumn .noTaps mode d).poolStep (PoolStep.grantSegments _ l (openGrant t.pool.free.length tail))
  unfold State.openEc
  exact ite (h.modEc l _) ((ite (others granted) granted).report _).topUpPass

theorem openLeg {l : LegId} (tail : Nat) (mode : DelayMode) (d : Nat) (idle : (s.leg l).state = .idle) :
    CallsKept .none .none s (s.openLeg l tail mode d) := by
  have opened := (refl .none s).settle l (f := fun x => { x with
      state := .opened, attached := none, origin := none, session := none, resume := none, last := none }) (fun k => by
    have busy := k.busy l id
    rw [idle] at busy
    simpa using busy) (attached := .inl rfl) (idle := ⟨nofun, nofun⟩)
  exact ((opened.narrow fun k => k.widen (fun _ x => x.1) fun _ => id).openEc l tail mode d).finish s

theorem cutSegments (h : CallsKept a b s t) (l : LegId) (n : Nat) : CallsKept a b s (t.cutSegments l n) := by
  unfold State.cutSegments
  exact (others h).modEc l _

theorem setTail (h : CallsKept a b s t) (l : LegId) (tail : Nat) : CallsKept a b s (t.setTail l tail) := by
  have lowered : CallsKept a b s ((t.cutSegments l tail).dropShortfall l) := (h.cutSegments l tail).others
  have same : CallsKept a b s (t.dropShortfall l) := h.others
  have raised : CallsKept a b s (t.setShortfall l (tail - (t.leg l).ec.segments.length)) := h.others
  have set := ite (d := tail < (t.leg l).ec.segments.length) lowered (ite (d := tail = (t.leg l).ec.segments.length) same
    (raised.modEc l fun c => if c.state = .off .disabled then { c with state := .off .noTaps } else c))
  exact (ite (set.modEc l _) set).topUpPass

theorem ecConfigure (h : CallsKept a b s t) (l : LegId) (tail : Option Nat) (delay : Option (DelayMode × Nat)) (nlp : Option Nat)
    (action : EcAction) : CallsKept a b s (t.ecConfigure l tail delay nlp action) := by
  have tailed : ∀ {u}, CallsKept a b s u → CallsKept a b s ((match tail with
      | some n => u.setTail l (min n Config.maxTail)
      | none => u).modEc l fun c => c.act action) := fun k => by
    refine modEc ?_ l _
    split
    · exact k.setTail l _
    · exact k
  unfold State.ecConfigure
  refine tailed ?_
  cases nlp <;> cases delay
  · exact h
  · exact h.modEc l _
  · exact h.modEc l _
  · exact (h.modEc l _).modEc l _

theorem ecBlock (h : CallsKept a b s t) (l : LegId) : CallsKept a b s (t.ecBlock l) := by
  have news : ∀ {u}, CallsKept a b s u → ∀ n, CallsKept a b s (u.ecNews l n) := fun k n => by
    unfold State.ecNews
    split
    · exact k
    · exact k.report _
    · exact k.report _
  unfold State.ecBlock
  exact news ((others h).modEc l _) _

/-- A leg about to close: its whisper is gone, and its position is freed (R44). -/
theorem closeFreed {u : State} (k : AttachBut .none u) (l : LegId) :
    CallsKept .none ⟨(· = l), fun _ => False⟩ u ((u.closeWhisper l).detach l) ∧
      (∀ q, l ∉ callers (((u.closeWhisper l).detach l).pos q).whisper.entries) ∧
      ∀ q, (u.leg l).attached = some q → (((u.closeWhisper l).detach l).pos q).leg = none := by
  have away : ∃ gap, CallsKept .none ⟨fun _ => False, gap⟩ u (u.closeWhisper l) ∧ (∀ q, l ∉ callers ((u.closeWhisper l).pos q).whisper.entries) ∧
      (∀ q, gap q → ((u.closeWhisper l).leg l).attached = some q) ∧ ((u.closeWhisper l).leg l).attached = (u.leg l).attached := by
    unfold State.closeWhisper
    split
    · rename_i p state there
      have walk := u.removeCallWhisper_walk l p
      have uncalled := uncalled_without k state there
      obtain ⟨session, resume, e⟩ := walk.leg_uncalled uncalled
      refine ⟨(· = p), ?_, fun q => walk.uncalled (uncalled q), fun q own => ?_, by rw [e]; rfl⟩
      · refine CallsKept.walk ?_ walk
        exact (refl .none u).unplaced (withoutCall_sublist l _) fun _ => callers_withoutCall (only_caller k state there)
      · rw [e, show q = p from own]
        exact there
    · rename_i other
      refine ⟨fun _ => False, refl .none u, fun q mem => ?_, fun _ => False.elim, rfl⟩
      exact other q (k.called q l mem).1 (k.called q l mem).2
  obtain ⟨gap, closed, uncalled, there, place⟩ := away
  generalize u.closeWhisper l = v at closed uncalled there place ⊢
  refine ⟨(closed.detach l fun _ => uncalled).narrow fun back =>
    back.narrow (fun _ x out => absurd (x.resolve_left id) out) fun m q x _ _ place => ?_, fun q => ?_, fun q on => ?_⟩
  · have free := (back.mutual_ m q).1 place
    rw [State.detach_pos, if_pos (there q x)] at free
    exact nomatch free
  · rw [State.detach_pos]
    split
    · exact uncalled q
    · exact uncalled q
  · rw [State.detach_pos, if_pos (place.trans on)]

/-- A leg closed: its whisper gone, its position freed, its record IDLE (R44). -/
theorem closeLeg (h : CallsKept .none .none s t) (l : LegId) : CallsKept .none .none s (t.closeLeg l) := by
  have dropped : CallsKept .none .none s (t.dropLegFeeds l) := h.others
  unfold State.closeLeg
  dsimp only
  generalize t.dropLegFeeds l = u at dropped ⊢
  refine dropped.trans (given fun k => ?_)
  obtain ⟨freed, bare, _⟩ := closeFreed k l
  have detached := (u.closeWhisper l).detach_attached l
  generalize (u.closeWhisper l).detach l = w at freed bare detached ⊢
  have ended := (Walk.refl w).runOne (.all _) (x := .sessionEnd l false)
  have alone : ((w.run [.sessionEnd l false]).leg l).attached = none := by
    obtain ⟨session, resume, e⟩ := ended.leg_uncalled bare
    rw [e]
    exact detached
  have closing := freed.walk ended
  generalize w.run [.sessionEnd l false] = x at alone closing ⊢
  have emptied : CallsKept .none ⟨(· = l), fun _ => False⟩ u (x.closeEc l) := by
    unfold State.closeEc
    exact (others (closing.cutSegments l 0)).modEc l _
  have still : ((x.closeEc l).leg l).attached = none := by
    simpa [State.closeEc, State.modEc, State.dropShortfall, State.cutSegments, State.leg, State.modLeg] using alone
  exact (emptied.settle l (f := fun x => { x with
    state := .idle, attached := none, origin := none, session := none, resume := none, last := none }) (fun _ => still) (attached := .inl rfl) (idle := ⟨nofun, nofun⟩)).narrow fun k =>
    k.widen (fun _ y => y.2 y.1) fun _ => id

theorem replaceSession (h : CallsKept a b s t) (l : LegId) (plan : Option PlanId) : CallsKept a b s (t.replaceSession l plan) := by
  have entered : ∀ {u}, CallsKept a b s u → CallsKept a b s (u.enterSession l plan) := fun {u} k => by
    obtain ⟨x, _, w⟩ := Walk.enterSession (ends := fun _ => True) u (.all _) l plan
    exact (k.modLeg l (f := fun y => { y with session := some x })).walk w
  unfold State.replaceSession
  split
  · exact h.beginSession l plan
  · have ended := h.modLeg l (f := fun y => { y with session := none })
    split
    · split
      · exact entered ended
      · split
        · exact entered (others ended)
        · exact entered ended.runOne
    · exact (h.walk ((Walk.refl t).runOne (.all _) (x := .sessionEnd l false))).beginSession l plan

/-! ### Whispers and supervision -/

theorem appendPrompt (h : CallsKept a b s t) (p : PosId) {w : WhisperEntry} (prompt : w.isPrompt = true) (fresh : w.begun = false)
    (room : (t.pos p).whisper.entries.length < 4) : CallsKept a b s (t.appendPrompt p w) := by
  have joined : CallsKept a b s (t.modWhisper p fun q => { q with entries := q.entries ++ [w] }) := by
    refine h.trans (of_kept (fun _ => .refl _) fun q => ?_)
    by_cases own : p = q
    · subst own
      rw [State.pos_modWhisper_same]
      refine ⟨rfl, rfl, ?_, fun k => ⟨?_, fun x mem => ?_⟩⟩
      · dsimp only
        rw [callers_append, callers_cons_prompt prompt, callers_nil, List.append_nil]
      · simpa using room
      · dsimp only at mem
        cases entries : (t.pos p).whisper.entries with
        | nil =>
          rw [entries] at mem
          exact absurd mem List.not_mem_nil
        | cons y rest =>
          rw [entries] at mem k
          rcases List.mem_append.1 mem with old | new
          · exact k.2 x old
          · rw [List.mem_singleton.1 new]
            exact fresh
    · rw [State.pos_modWhisper_ne _ _ _ _ own]
      exact .refl _
  exact joined.runOne.finish t

theorem flushPrompts (h : CallsKept a b s t) (p : PosId) : CallsKept a b s (t.flushPrompts p) := by
  have calls : ∀ ws : List WhisperEntry, callers (ws.filter fun w => !w.isPrompt) = callers ws := fun ws => by
    unfold callers
    rw [List.filterMap_filter]
    refine List.filterMap_congr fun w _ => ?_
    split
    · rfl
    · rename_i prompt
      exact (WhisperEntry.caller_eq_none.2 (by simpa using prompt)).symm
  have flushed := (h.modEntries p (f := fun q => { q with entries := q.entries.filter fun w => !w.isPrompt }) (fun q => calls q.entries)
    fun q k => k.sublist List.filter_sublist).foldl (fun u w => u.report (.whisperAborted (w.reportOf p (some .flush)))) (fun _ k => k.report _)
      ((t.pos p).whisper.entries.filter WhisperEntry.isPrompt)
  unfold State.flushPrompts
  dsimp only
  split
  · exact flushed
  · exact (ite (flushed.walk ((Walk.refl (ends := fun _ => True) _).headRemoved (.all _) p)) flushed).finish t

theorem gapBlock (h : CallsKept a b s t) (p : PosId) : CallsKept a b s (t.gapBlock p) := by
  unfold State.gapBlock
  split
  · exact h
  · exact ite ((h.modEntries p).runOne.finish t) (h.modEntries p)

theorem deadlineBlock (h : CallsKept a b s t) (p : PosId) : CallsKept a b s (t.deadlineBlock p) := by
  have withdrawn : CallsKept a b s (t.withdraw (.whisper p)) := h.others
  unfold State.deadlineBlock
  split
  · exact h
  · exact h
  · refine ite ((withdrawn.run fun x mem => ?_).finish t) (h.modEntries p)
    simp only [List.mem_cons, List.not_mem_nil, or_false] at mem
    rcases mem with rfl | rfl <;> trivial

/-- A supervision set, which the law of supervision allows (R177, R178). -/
theorem setSupervision (h : CallsKept a b s t) (q x : PosId) (mode : SuperMode) (wasBarge : Bool)
    (may : SuperLaw t → x ≠ q ∧ (t.pos q).leg = none ∧ ∀ q' r', (t.pos q').supervision = some r' → q' ≠ q →
      r'.agent ≠ q ∧ r'.agent ≠ x ∧ q' ≠ x) :
    CallsKept a b s (t.setSupervision q x mode wasBarge) := by
  have pos : ∀ p, (t.modPos q fun y => { y with supervision := some ⟨x, mode⟩ }).pos p
      = if q = p then { t.pos p with supervision := some ⟨x, mode⟩ } else t.pos p := fun p => by
    by_cases own : q = p
    · subst own
      simp
    · simp [own]
  have set : CallsKept a b s (t.modPos q fun y => { y with supervision := some ⟨x, mode⟩ }) := by
    have leg : ∀ p, ((t.modPos q fun y => { y with supervision := some ⟨x, mode⟩ }).pos p).leg = (t.pos p).leg := fun p => by
      rw [pos]
      split <;> rfl
    have queue : ∀ p, ((t.modPos q fun y => { y with supervision := some ⟨x, mode⟩ }).pos p).whisper = (t.pos p).whisper := fun p => by
      rw [pos]
      split <;> rfl
    have record : ∀ p r, ((t.modPos q fun y => { y with supervision := some ⟨x, mode⟩ }).pos p).supervision = some r →
        (p = q ∧ r = ⟨x, mode⟩) ∨ (p ≠ q ∧ (t.pos p).supervision = some r) := fun p r some_ => by
      rw [pos] at some_
      split at some_
      · exact .inl ⟨Eq.symm ‹q = p›, (Option.some.inj some_).symm⟩
      · exact .inr ⟨fun own => ‹¬ q = p› own.symm, some_⟩
    refine h.trans ⟨fun k => k.of_same (fun _ => .refl _) leg fun p => by rw [queue], fun _ k p r some_ => ?_, fun _ k p => by rw [queue]; exact k p⟩
    obtain ⟨other, free, apart⟩ := may k
    rw [leg]
    rcases record p r some_ with ⟨rfl, rfl⟩ | ⟨away, was⟩
    · refine ⟨other, free, fun p' r' some' => ?_⟩
      rcases record p' r' some' with ⟨rfl, rfl⟩ | ⟨away, some'⟩
      · exact ⟨other, fun _ => rfl⟩
      · exact ⟨(apart p' r' some' away).1, fun same => absurd same (apart p' r' some' away).2.1⟩
    · obtain ⟨there, leg_, only⟩ := k p r was
      refine ⟨there, leg_, fun p' r' some' => ?_⟩
      rcases record p' r' some' with ⟨rfl, rfl⟩ | ⟨_, some'⟩
      · exact ⟨fun same => (apart p r was away).2.2 same.symm, fun same => absurd same.symm (apart p r was away).2.1⟩
      · exact only p' r' some'
  unfold State.setSupervision
  dsimp only
  refine CallsKept.finish ?_ t
  split
  · split
    · exact set.notice _
    · exact set
  · exact set

end CallsKept

end Sys2Proof.Machine
end

section
set_option Elab.async false
/-! ## Legs and positions naming one another, the supervisions and the whisper queues, through every step (O59) -/

namespace Sys2Proof.Machine

namespace CallsKept

variable {a b : Gaps} {s t : State} {p : PosId}

/-! ### Plans and sessions -/

theorem judgeStream (h : CallsKept a b s t) (i : PlanId) : CallsKept a b s (t.judgeStream i) :=
  h.walk ((Walk.refl (ends := fun _ => True) t).judgeStream (.all _) i)

theorem setPlan (h : CallsKept a b s t) (i : PlanId) (r : PlanRecord) : CallsKept a b s (t.setPlan i r) := by
  have stopped : ∀ {u}, CallsKept a b s u → CallsKept a b s (u.stopStream i) := fun {u} k => by
    have withdrawn : ∀ {v}, CallsKept a b s v →
        CallsKept a b s (if (v.plan i).pending then (v.withdraw (.shared i)).modPlan i fun x => { x with pending := false } else v) :=
      fun k => ite k.others k
    unfold State.stopStream
    refine withdrawn ?_
    split
    · exact ite k.runOne k
    · exact k
  have set : CallsKept a b s (t.modPlan i fun x => { x with record := some r }) := h.others
  exact ((ite (stopped set) set).judgeStream i).finish t

theorem sessionBlock (h : CallsKept a b s t) (l : LegId) : CallsKept a b s (t.sessionBlock l) := by
  have put := fun y : Session => h.modLeg l (f := fun z => { z with session := some y })
  have stepped : ∀ x r, CallsKept a b s (t.stepSession l x r) := fun x r => by
    unfold State.stepSession
    dsimp only
    split
    · exact put _
    · split
      · exact (put _).runOne
      · exact put _
  unfold State.sessionBlock
  split
  · exact h
  · split
    · exact ite ((stepped _ _).finish t) (put _)
    · exact h

/-! ### Clips and the memory port -/

theorem settlePort (h : CallsKept a b s t) : CallsKept a b s t.settlePort := h.walk (.of (ends := fun _ => True) (.settle t))

theorem queueUpdate (h : CallsKept a b s t) (c : ClipId) : CallsKept a b s (t.queueUpdate c) := by
  obtain ⟨memory, link, e⟩ := t.queueUpdate_frame c
  rw [e]
  exact h.others

theorem finishWrite (h : CallsKept a b s t) : CallsKept a b s t.finishWrite := by
  unfold State.finishWrite
  split
  · split
    · have ended := fun c state => ((others h (u := { t with write := .empty }.modClip c fun x =>
        { x with state := state, sum := t.write.sum })).queueUpdate c).report (.clipState c state .closed (some t.write.sum))
      refine ite (CallsKept.finish ?_ t) (ended _ _)
      unfold State.judgePlansOn
      refine (ended _ _).foldl _ (fun i k => ?_) _
      split
      · exact ite (k.judgeStream i) k
      · exact k
    · exact h
  · exact h

theorem abandonWrite (h : CallsKept a b s t) : CallsKept a b s t.abandonWrite := by
  unfold State.abandonWrite
  split
  · exact h
  · obtain ⟨flash, ops, e, _⟩ := Keeps.abandonErase_frame t
    rw [e]
    exact h.others

theorem deleteClip (h : CallsKept a b s t) (c : ClipId) : CallsKept a b s (t.deleteClip c) := by
  unfold State.deleteClip
  split
  · exact h
  · exact h.abandonWrite.settlePort
  · exact ite (h.others (u := t.emptyClip c) |>.queueUpdate c) (queueUpdate (others h) c)
  · exact h.others (u := t.emptyClip c) |>.queueUpdate c
  · exact h

theorem programComplete (h : CallsKept a b s t) (found : Option (List Sample)) : CallsKept a b s (t.programComplete found) := by
  unfold State.programComplete
  split
  · dsimp only
    exact settlePort (ite (finishWrite h.others) h.others)
  · exact h

theorem eraseComplete (h : CallsKept a b s t) : CallsKept a b s t.eraseComplete := by
  unfold State.eraseComplete
  split
  · exact settlePort h.others
  · exact h

theorem updateComplete (h : CallsKept a b s t) : CallsKept a b s t.updateComplete := by
  unfold State.updateComplete
  split
  · exact settlePort h.others
  · exact h

/-- The head entry has begun (R167). -/
theorem beginWhisper (h : CallsKept a b s t) (e : EngId) : CallsKept a b s (t.beginWhisper e) := by
  unfold State.beginWhisper
  split
  · refine ite (h.modEntries _ (fun q => ?_) fun q k => ?_) h
    · dsimp only
      split
      · rename_i entries
        rw [entries]
        rfl
      · rename_i entries
        rw [entries]
    · dsimp only
      split
      · rename_i entries
        rw [entries] at k
        exact k
      · exact ⟨Nat.zero_le 4, nofun⟩
  · exact h

theorem fetchComplete (h : CallsKept a b s t) (found : Option (List Sample)) : CallsKept a b s (t.fetchComplete found) := by
  have started : ∀ {u} before e, CallsKept a b s u → CallsKept a b s (u.startPlaying before e) := fun before e k => by
    unfold State.startPlaying
    split
    · exact (beginWhisper k.others e).finish before
    · exact k
  have fetched : ∀ {u} e, CallsKept a b s u → CallsKept a b s (u.addFetch e) := fun e k =>
    k.walk ((Walk.refl (ends := fun _ => True) _).addFetch e)
  unfold State.fetchComplete
  split
  · refine settlePort ?_
    split
    · refine ite (fetched _ (started t _ ?_)) h.others
      exact h.others
    · exact h.others
  · exact h

theorem scanRead (h : CallsKept a b s t) (found : Option (List Byte)) : CallsKept a b s (t.scanRead found) := by
  have done : ∀ {u} before, CallsKept a b s u → CallsKept a b s (u.scanDone before) := fun {u} before k => by
    unfold State.scanDone
    extract_lets port owned judged arbiter grants heads
    have first : CallsKept a b s owned := by
      have taken : ∀ free, CallsKept a b s { u with freeSlabs := free, memory := { port with mode := .owned } } := fun free => k.others
      exact (taken u.unclaimed).report (.scanDone u.scan.ready u.scan.damaged u.scan.discarded)
    clear_value owned
    have streams : CallsKept a b s judged := first.foldl _ (fun i k => k.judgeStream i) _
    clear_value judged
    have granting : CallsKept a b s grants := streams.others
    clear_value grants
    exact ((granting.foldl _ (fun e k => k.runOne) _).settlePort).finish before
  have entry : ∀ {u : State} (c : ClipId) (bytes : List Byte) (n : Nat), CallsKept a b s u →
      CallsKept a b s { u.scanEntry c bytes with scan := { (u.scanEntry c bytes).scan with next := n } } := fun {u} c bytes n k => by
    obtain ⟨x, scan, link, e, _⟩ := u.scanEntry_cases c bytes
    rw [e]
    exact k.others
  unfold State.scanRead
  split
  · split
    · exact h
    · cases found with
      | none => exact ite (entry _ _ _ h) (done t (entry _ _ _ h))
      | some bytes =>
        have written : ∀ flash, CallsKept a b s { t with flash := flash } := fun flash => h.others
        exact ite (entry _ _ _ (written _)) (done t (entry _ _ _ (written _)))
  · exact h

theorem reclaim (h : CallsKept a b s t) : CallsKept a b s t.reclaim := by
  unfold State.reclaim
  extract_lets arbiter freed port
  have kept : CallsKept a b s freed := (h.others (u := { t with arbiter := { arbiter with scanning := true } })).walk
    ((Walk.refl (ends := fun _ => True) _).releaseAll (.all _) .interrupted)
  clear_value freed
  have begun : CallsKept a b s { freed with memory := { port with mode := .scanning, updates := [] }, scan := .start } := kept.others
  exact begun.finish t

theorem engineBlock (h : CallsKept a b s t) (e : EngId) : CallsKept a b s (t.engineBlock e) := by
  have out : ∀ x, CallsKept a b s (t.putEngine e x) := fun x => h.others
  have release : ∀ o, CallsKept a b s (t.releaseEngine e o) := fun o => (out _).runOne.finish t
  have close : CallsKept a b s (t.closingBlock e) := (out zeroBlock).others
  have fade : CallsKept a b s (t.fadeOut e) := by
    unfold State.fadeOut
    exact h.others
  have fetched : ∀ {u}, CallsKept a b s u → CallsKept a b s (u.issueFetch e) := fun k =>
    k.walk ((Walk.refl (ends := fun _ => True) _).issueFetch e)
  have play : CallsKept a b s (t.playBlock e) := by
    unfold State.playBlock
    dsimp only
    split
    · exact fetched h.others
    · exact fetched (ite (report (others h) _) h.others)
  unfold State.engineBlock
  dsimp only
  split
  · exact out _
  · exact out _
  · exact play
  · exact close
  · exact release _
  · exact fade
  · exact close
  · exact release _

/-! ### The mixes and the highway -/

theorem earBlock (h : CallsKept a b s t) (p : PosId) : CallsKept a b s (t.earBlock p) := by
  have fed : CallsKept a b s { t with ears := tset t.ears p ((mixRun Config.blockSamples (t.earLanes p)).2.map Lane.feed) } := h.others
  unfold State.earBlock
  dsimp only
  exact ite ((fed.modPos p).foldl _ (fun _ k => k.report _) _) (fed.modPos p)

theorem sendBlock (h : CallsKept a b s t) (l : LegId) : CallsKept a b s (t.sendBlock l) := by
  have mixed : ∀ sends x, CallsKept a b s { t with sends := sends, highway := x } := fun _ _ => h.others
  unfold State.sendBlock
  exact (mixed _ _).modEc l _

theorem startPeriod (h : CallsKept a b s t) : CallsKept a b s t.startPeriod := by
  refine h.trans (of_kept (fun l => ?_) fun p => ?_)
  · show LegKept _ (tget (tmap _ t.legs) l)
    rw [tget_tmap]
    exact ⟨rfl, rfl⟩
  · show PosKept _ (tget (tmap _ t.positions) p)
    rw [tget_tmap]
    exact ⟨rfl, rfl, rfl, id⟩

theorem highwayFrame (h : CallsKept a b s t) (f : HighwayFrame) (wellPlaced : Bool) : CallsKept a b s (t.highwayFrame f wellPlaced) := by
  have regained : CallsKept a b s (t.regain f) := by
    have entered : CallsKept a b s { t with highway := { t.highway with state := .inSync, pulses := 0 } } := h.others
    exact (entered.report (.highwaySync .inSync t.highway.period)).startPeriod.others
  unfold State.highwayFrame
  split
  · exact h.others
  · exact ite (ite regained h.others) h.others

/-! ### The resets -/

/-- A state without legs on positions, supervisions and whispers. -/
theorem bare (legs : ∀ l, (t.leg l).attached = none ∧ (t.leg l).state ≠ .connecting ∧ (t.leg l).state ≠ .active)
    (positions : ∀ p, (t.pos p).leg = none ∧ (t.pos p).supervision = none ∧ (t.pos p).whisper.entries = []) : AttachBut .none t ∧ SuperLaw t ∧ WhisperLaw t := by
  refine ⟨⟨fun l p => ?_, fun l _ => ?_, fun p l mem => ?_, fun l p _ state => absurd state (legs l).2.1, fun p => ?_⟩, fun q r some_ => ?_, fun p => ?_⟩
  · rw [(legs l).1, (positions p).1]
    exact ⟨nofun, nofun⟩
  · rw [(legs l).1]
    exact ⟨nofun, fun k => k.elim (fun x => absurd x (legs l).2.1) fun x => absurd x (legs l).2.2⟩
  · rw [(positions p).2.2] at mem
    exact absurd mem List.not_mem_nil
  · rw [(positions p).2.2]
    exact Nat.zero_le 1
  · exact nomatch (positions q).2.1.symm.trans some_
  · rw [(positions p).2.2]
    exact ⟨Nat.zero_le 4, nofun⟩

theorem softReset (s : State) : CallsKept .none .none s s.softReset := by
  have blocks : CallsKept .none .none s s.softResetBlocks := given fun k => by
    have legs : ∀ l, (s.softResetBlocks.leg l).attached = none ∧ (s.softResetBlocks.leg l).state ≠ .connecting ∧
        (s.softResetBlocks.leg l).state ≠ .active := fun l => by
      rw [show s.softResetBlocks.leg l = (s.leg l).softReset from tget_tmap _ _ _]
      unfold Leg.softReset
      split
      · rename_i idle
        have busy := k.busy l id
        rw [idle] at busy ⊢
        exact ⟨by simpa using busy, nofun, nofun⟩
      · exact ⟨rfl, nofun, nofun⟩
    obtain ⟨attach, super, whisper⟩ := bare legs fun p => by
      rw [show s.softResetBlocks.pos p = (s.pos p).softReset from tget_tmap _ _ _]
      exact ⟨rfl, rfl, rfl⟩
    exact ⟨fun _ => attach, fun _ _ => super, fun _ _ => whisper⟩
  exact blocks.settlePort.foldl _ (fun c k => k.queueUpdate c) _

theorem hardwareReset (s : State) : CallsKept .none .none s s.hardwareReset := by
  have kept : CallsKept .none .none State.reset s.hardwareReset := (refl .none State.reset).others
  obtain ⟨attach, super, whisper⟩ := bare (t := State.reset) (fun l => by rw [State.reset_leg]; exact ⟨rfl, nofun, nofun⟩) fun p => by
    rw [State.reset_pos]
    exact ⟨rfl, rfl, rfl⟩
  exact ⟨fun _ => kept.attach attach, fun _ _ => kept.super attach super, fun _ _ => kept.whisper attach whisper⟩

/-! ### The byte clock -/

theorem linkError (h : CallsKept a b s t) (cause : LinkCause) : CallsKept a b s (t.linkError cause) := h.others

theorem messageSent (s : State) : CallsKept .none .none s s.messageSent := by
  have r := refl .none s
  unfold State.messageSent
  split
  · exact r
  · split
    · exact r
    · rename_i x rest _
      have sent : CallsKept .none .none s { s with link := Link.endMessage { s.link with replies := rest } x.frame } := r.others
      exact (ite (d := s.link.paused ∧ x.isReset = true) (sent.trans (softReset _)) sent).others
  · split
    · exact r
    · exact r.others

theorem clock (s : State) (bytes : List Byte) : CallsKept .none .none s (s.clock bytes) := by
  have sent : ∀ s : State, CallsKept .none .none s s.sendByte := fun s => by
    obtain ⟨_, e⟩ | ⟨_, _, _, e⟩ | ⟨_, _, _, e⟩ := s.sendByte_cases <;> rw [e]
    · exact (refl .none s).others
    · exact (refl .none s).others
    · exact messageSent s
  have hunt : ∀ {u x}, CallsKept .none .none s u → CallsKept .none .none s (u.huntByte x) := fun k => by
    unfold State.huntByte
    exact ite k.others k
  have disposed : ∀ {u} r, CallsKept .none .none s u → CallsKept .none .none s (u.dispose r) := fun {u} r k => by
    obtain ⟨_, e⟩ | ⟨_, _, e⟩ | ⟨_, _, e⟩ := u.dispose_cases r <;> rw [e]
    · exact k.others
    · exact k.others
    · exact k.others
  have taken : ∀ {u} x, CallsKept .none .none s u → CallsKept .none .none s (u.takeByte x) := fun {u} x k => by
    obtain ⟨_, e⟩ | ⟨start, got, _, ⟨_, e⟩ | ⟨_, e⟩⟩ := u.takeByte_cases x <;> rw [e]
    · exact hunt k
    · exact hunt k.others
    · unfold State.judgeBytes
      split
      · exact k.others
      · exact k.others
      · exact (disposed _ k).others
  unfold State.clock
  exact (refl .none s).foldl _ (fun x k => taken x (k.trans (sent _))) _

theorem timeoutFrame (h : CallsKept a b s t) : CallsKept a b s t.timeoutFrame := by
  unfold State.timeoutFrame
  split
  · exact h
  · exact ite h.others h

/-! ### The owners of the requests -/

theorem iteHandled {c : Prop} [Decidable c] {x y : Handled} (h : c → CallsKept a b s x.state) (k : ¬ c → CallsKept a b s y.state) :
    CallsKept a b s (if c then x else y).state := by
  split
  · exact h ‹_›
  · exact k ‹_›

/-- A request command keeps the laws when its owner does. -/
theorem serve {α : Type} [DecidableEq α] {owner : α → State → Handled} (kept : ∀ f s, CallsKept .none .none s (owner f s).state)
    (code tag : Byte) (fields : Parser α) (q : Payload α) (s : State) : CallsKept .none .none s (serve code tag fields q owner s) := by
  have r := refl .none s
  have responded : ∀ t, CallsKept .none .none s t → CallsKept .none .none s (respond code tag q owner t) := fun t k => by
    cases q with
    | malformed => exact k.others
    | fields f => exact (k.trans (kept f t)).others
  obtain e | ⟨_, _, _, e⟩ | ⟨_, _, _, e⟩ | ⟨_, _, e⟩ := serve_cases code tag fields q owner s <;> rw [e]
  · exact r
  · exact r.others
  · exact responded s r
  · exact responded _ r.others

theorem unknownRequest (s : State) (tag code : Byte) : CallsKept .none .none s (s.unknownRequest tag code) := by
  have r := refl .none s
  unfold State.unknownRequest
  refine ite r ?_
  split
  · exact ite r.others r.others
  · exact ite r.others r

end CallsKept

end Sys2Proof.Machine
end

section
set_option Elab.async false
/-! ## The law of attachment, the law of supervision and the law of the whisper queues through every step (O59) -/

namespace Sys2Proof.Machine

/-! ### The owners of the requests -/

namespace CallsKept

variable {s : State}

theorem withPosition {n : Nat} {f : PosId → Handled} (h : ∀ p, CallsKept .none .none s (f p).state) :
    CallsKept .none .none s (withPosition n s f).state := by
  unfold Machine.withPosition
  split
  · exact h _
  · exact refl .none s

theorem withLeg {n : Nat} {f : LegId → Handled} (h : ∀ l, CallsKept .none .none s (f l).state) : CallsKept .none .none s (withLeg n s f).state := by
  unfold Machine.withLeg
  split
  · exact h _
  · exact refl .none s

theorem withPlan {n : Nat} {f : PlanId → Handled} (h : ∀ i, CallsKept .none .none s (f i).state) : CallsKept .none .none s (withPlan n s f).state := by
  unfold Machine.withPlan
  split
  · exact h _
  · exact refl .none s

theorem withClip {n : Nat} {f : ClipId → Handled} (h : ∀ c, CallsKept .none .none s (f c).state) : CallsKept .none .none s (withClip n s f).state := by
  unfold Machine.withClip
  split
  · exact iteHandled (fun _ => refl .none s) fun _ => h _
  · exact refl .none s

end CallsKept

open CallsKept (iteHandled)

theorem ownPositionConfig_calls (f : ConfigFields) (s : State) : CallsKept .none .none s (ownPositionConfig f s).state := by
  unfold ownPositionConfig
  split
  · exact .withPosition fun _ => (CallsKept.refl .none s).configure _ _
  · exact .withPosition fun _ => .refl .none s

theorem ownPositionMute_calls (f : MuteFields) (s : State) : CallsKept .none .none s (ownPositionMute f s).state := by
  unfold ownPositionMute
  split
  · exact .withPosition fun _ => (CallsKept.refl .none s).setMute _ _ _
  · exact .withPosition fun _ => .refl .none s

theorem ownLegOpen_calls (f : OpenFields) (s : State) : CallsKept .none .none s (ownLegOpen f s).state := by
  unfold ownLegOpen
  split
  · exact iteHandled (fun idle => CallsKept.openLeg _ _ _ idle) fun _ => CallsKept.refl .none s
  · exact CallsKept.refl .none s

theorem ownLegHold_calls (f : HoldFields) (s : State) : CallsKept .none .none s (ownLegHold f s).state :=
  CallsKept.withLeg fun l => by
    have r := CallsKept.refl .none s
    split
    · exact CallsKept.refl .none s
    · split
      · exact CallsKept.refl .none s
      · exact CallsKept.refl .none s
      · exact (r.holdLeg l _ (.inl ‹_›)).finish s
      · exact (r.holdLeg l _ (.inr ‹_›)).finish s
      · exact (r.replaceSession l _).finish s

theorem ownLegConnect_calls (f : ConnectFields) (s : State) : CallsKept .none .none s (ownLegConnect f s).state := by
  unfold ownLegConnect
  split
  · split
    · rename_i may
      split
      · exact .connectNow may
      · exact .connectWhisper may _
    · exact CallsKept.refl .none s
  · exact CallsKept.refl .none s

theorem ownEcConfig_calls (f : EcFields) (s : State) : CallsKept .none .none s (ownEcConfig f s).state := by
  have decided : ∀ l action delay, CallsKept .none .none s (ownEcConfig.decide' f s l action delay).state := fun l action delay => by
    unfold ownEcConfig.decide'
    exact iteHandled (fun _ => CallsKept.refl .none s) fun _ => iteHandled (fun _ => CallsKept.refl .none s) fun _ => (CallsKept.refl .none s).ecConfigure _ _ _ _ _
  unfold ownEcConfig
  split
  · split
    · exact CallsKept.refl .none s
    · exact decided _ _ _
    · exact decided _ _ _
  · exact CallsKept.refl .none s

theorem ownPlanSet_calls (f : PlanFields) (s : State) : CallsKept .none .none s (ownPlanSet f s).state := by
  unfold ownPlanSet
  split
  · exact iteHandled (fun _ => CallsKept.refl .none s) fun _ => (CallsKept.refl .none s).setPlan _ _
  · exact CallsKept.refl .none s

theorem ownPlanDelete_calls (n : Nat) (s : State) : CallsKept .none .none s (ownPlanDelete n s).state :=
  CallsKept.withPlan fun i => iteHandled (fun _ => .refl .none s) fun _ => iteHandled (fun _ => CallsKept.refl .none s) fun _ => (CallsKept.refl .none s).others

theorem ownClipCreate_calls (f : CreateFields) (s : State) : CallsKept .none .none s (ownClipCreate f s).state := by
  refine CallsKept.withClip fun c => iteHandled (fun _ => CallsKept.refl .none s) fun _ => iteHandled (fun _ => CallsKept.refl .none s) fun _ =>
    iteHandled (fun _ => CallsKept.refl .none s) fun _ => iteHandled (fun _ => CallsKept.refl .none s) fun _ => ?_
  have held : ∀ clips free write, CallsKept .none .none s { s with clips := clips, freeSlabs := free, write := write } :=
    fun _ _ _ => (CallsKept.refl .none s).others
  exact (held _ _ _).settlePort

theorem ownClipData_calls (f : DataFields) (s : State) : CallsKept .none .none s (ownClipData f s).state :=
  CallsKept.withClip fun c => iteHandled (fun _ => CallsKept.refl .none s) fun _ => iteHandled (fun _ => CallsKept.refl .none s) fun _ =>
    iteHandled (fun _ => CallsKept.refl .none s) fun _ => iteHandled (fun _ => CallsKept.refl .none s) fun _ => iteHandled (fun _ => CallsKept.refl .none s) fun _ => by
      have joined : ∀ write, CallsKept .none .none s { s with write := write } := fun _ => (CallsKept.refl .none s).others
      exact (joined _).settlePort

theorem ownClipClose_calls (f : CloseFields) (s : State) : CallsKept .none .none s (ownClipClose f s).state :=
  CallsKept.withClip fun c => iteHandled (fun _ => CallsKept.refl .none s) fun _ => iteHandled (fun _ => CallsKept.refl .none s) fun _ => by
    have closing : ∀ write, CallsKept .none .none s { s with write := write } := fun _ => (CallsKept.refl .none s).others
    exact (closing _).finishWrite

theorem ownClipInfo_calls (n : Nat) (s : State) : CallsKept .none .none s (ownClipInfo n s).state := by
  unfold ownClipInfo
  split
  · exact iteHandled (fun _ => CallsKept.refl .none s) fun _ => .refl .none s
  · exact CallsKept.refl .none s

theorem ownMemoryRelease_calls (u : Unit) (s : State) : CallsKept .none .none s (ownMemoryRelease u s).state := by
  have left := (CallsKept.refl .none s).abandonWrite
  unfold ownMemoryRelease
  split
  · dsimp only
    split
    · rename_i c _
      exact (left.report (.clipState c .empty .abandoned none)).others
    · exact left.others
  all_goals exact .refl .none s

theorem ownMemoryReclaim_calls (u : Unit) (s : State) : CallsKept .none .none s (ownMemoryReclaim u s).state := by
  unfold ownMemoryReclaim
  split
  · exact (CallsKept.refl .none s).reclaim
  all_goals exact .refl .none s

theorem ownWhisperPrompt_calls (f : PromptFields) (s : State) : CallsKept .none .none s (ownWhisperPrompt f s).state := by
  unfold ownWhisperPrompt
  split
  · refine iteHandled (fun _ => CallsKept.refl .none s) fun _ => iteHandled (fun _ => CallsKept.refl .none s) fun room => ?_
    exact (CallsKept.refl .none s).appendPrompt _ rfl rfl (Nat.lt_of_not_le room)
  · exact CallsKept.refl .none s

/-- A supervisor that takes another mode, or a position that R178 lets supervise, may have the record (R177, R178). -/
theorem ownSupervise_calls (f : SuperviseFields) (s : State) : CallsKept .none .none s (ownSupervise f s).state := by
  have r := CallsKept.refl .none s
  have supervisor : ∀ {x q}, s.supervisorOf x = none → ∀ r', (s.pos q).supervision = some r' → r'.agent ≠ x := fun {x q} none_ r' some_ same => by
    have missing := List.find?_eq_none.1 none_ q (List.mem_finRange q)
    rw [some_] at missing
    exact missing (by simpa using same)
  unfold ownSupervise
  split
  · rename_i q x mode _ _ _
    split
    · rename_i record stands
      refine iteHandled (fun own => iteHandled (fun _ => r) fun _ => ?_) fun _ => CallsKept.refl .none s
      refine r.setSupervision q x mode _ fun law => ?_
      obtain ⟨other, leg, only⟩ := law q record stands
      rw [own] at other only
      refine ⟨other, leg, fun q' r' some' away => ⟨(only q' r' some').1, fun same => away ((only q' r' some').2 same), fun same => ?_⟩⟩
      subst same
      exact ((law q' r' some').2.2 q record stands).1 own
    · rename_i idle
      refine iteHandled (fun may => ?_) fun _ => CallsKept.refl .none s
      simp only [State.maySupervise, State.isSupervised, State.isSupervisor, Bool.and_eq_true, Bool.not_eq_true', decide_eq_true_eq,
        Option.isSome_eq_false_iff, Option.isNone_iff_eq_none] at may
      obtain ⟨⟨⟨⟨⟨⟨_, _⟩, apart⟩, free⟩, unsupervised⟩, alone⟩, fresh⟩ := may
      refine r.setSupervision q x mode _ fun _ => ⟨Ne.symm apart, free, fun q' r' some' away => ⟨supervisor unsupervised r' some',
        supervisor fresh r' some', fun same => ?_⟩⟩
      subst same
      exact nomatch alone.symm.trans some'
  · exact CallsKept.refl .none s

/-! ### The commands -/

/-- Every command keeps the laws of attachment, of supervision and of the whisper queues. -/
theorem exec_calls (i : Instr) (s : State) : ∃ t, exec i s = .next t ∧ CallsKept .none .none s t := by
  have same := CallsKept.refl .none s
  have port := fun order p presence => same.portBlock order p presence
  have handled := fun {α : Type} [DecidableEq α] {owner : α → State → Handled} (kept : ∀ f s, CallsKept .none .none s (owner f s).state)
    (code tag : Byte) (fields : Parser α) (q : Payload α) => CallsKept.serve kept code tag fields q s
  have unchanged := fun {α : Type} [DecidableEq α] {owner : α → State → Handled} (kept : ∀ f s, (owner f s).state.legs = s.legs)
    (kept' : ∀ f s, (owner f s).state.positions = s.positions) (code tag : Byte) (fields : Parser α) (q : Payload α) =>
      CallsKept.serve (fun f s => (CallsKept.refl .none s).others (kept f s) (kept' f s)) code tag fields q s
  cases i with
  | hardwareReset => exact ⟨_, rfl, .hardwareReset s⟩
  | softReset => exact ⟨_, rfl, .ite (.clock s _) same⟩
  | portEnable tag q => exact ⟨_, rfl, handled (fun n s => .withPosition fun p => (CallsKept.refl .none s).enablePort p) _ _ _ _⟩
  | portDisable tag q => exact ⟨_, rfl, handled (fun n s => .withPosition fun p => (CallsKept.refl .none s).disablePort p) _ _ _ _⟩
  | positionConfig tag q => exact ⟨_, rfl, handled ownPositionConfig_calls _ _ _ _⟩
  | positionMute tag q => exact ⟨_, rfl, handled ownPositionMute_calls _ _ _ _⟩
  | positionStatus tag q => exact ⟨_, rfl, handled (fun n s => .withPosition fun p => .refl .none s) _ _ _ _⟩
  | positionStats tag q => exact ⟨_, rfl, handled (fun n s => .withPosition fun p => (CallsKept.refl .none s).modPos p) _ _ _ _⟩
  | upFrame p frame time => exact ⟨_, rfl, same.upFrame p frame time⟩
  | downFrame p => exact ⟨_, rfl, same.downFrame p⟩
  | expectedFrameMissed p => exact ⟨_, rfl, same.frameMissed p⟩
  | lockLoss p => exact ⟨_, rfl, .ite (same.frameMissed p) same⟩
  | portBlockEvent p presence => exact ⟨_, rfl, port _ _ _⟩
  | headsetInserted p => exact ⟨_, rfl, .ite (port _ _ _) same⟩
  | acquisitionStart p presence => exact ⟨_, rfl, .ite (port _ _ _) same⟩
  | unplug p => exact ⟨_, rfl, .ite (port _ _ _) same⟩
  | portLive p presence => exact ⟨_, rfl, .ite (port _ _ _) same⟩
  | recoveryWindowExpiry p presence =>
    refine ⟨_, rfl, ?_⟩
    split
    · exact .ite (port _ _ _) same
    · exact same
  | periodStart => exact ⟨_, rfl, same.startPeriod⟩
  | syncLost => exact ⟨_, rfl, .ite same.others same⟩
  | syncRegained frame => exact ⟨_, rfl, .ite (same.highwayFrame frame true) same⟩
  | legOpen tag q => exact ⟨_, rfl, handled ownLegOpen_calls _ _ _ _⟩
  | legHold tag q => exact ⟨_, rfl, handled ownLegHold_calls _ _ _ _⟩
  | legConnect tag q => exact ⟨_, rfl, handled ownLegConnect_calls _ _ _ _⟩
  | legCancelConnect tag q =>
    exact ⟨_, rfl, handled (fun n s => .withLeg fun l => iteHandled (fun state => .cancelConnect state) fun _ => CallsKept.refl .none s) _ _ _ _⟩
  | legClose tag q =>
    exact ⟨_, rfl, handled (fun n s => .withLeg fun l => .ite (.refl .none s) (((CallsKept.refl .none s).closeLeg l).topUpPass.finish s)) _ _ _ _⟩
  | legStatus tag q => exact ⟨_, rfl, handled (fun n s => .withLeg fun _ => .refl .none s) _ _ _ _⟩
  | earBlockEvent p => exact ⟨_, rfl, same.earBlock p⟩
  | sendBlockEvent l => exact ⟨_, rfl, same.sendBlock l⟩
  | hangoverEnd p presence => exact ⟨_, rfl, .ite (port _ _ _) same⟩
  | ecBlockEvent l => exact ⟨_, rfl, same.ecBlock l⟩
  | searchWindowEnd l => exact ⟨_, rfl, .ite (same.ecBlock l) same⟩
  | erleWindowEnd l => exact ⟨_, rfl, .ite (same.ecBlock l) same⟩
  | ecConfig tag q => exact ⟨_, rfl, handled ownEcConfig_calls _ _ _ _⟩
  | planSet tag q => exact ⟨_, rfl, handled ownPlanSet_calls _ _ _ _⟩
  | planDelete tag q => exact ⟨_, rfl, handled ownPlanDelete_calls _ _ _ _⟩
  | planInfo tag q => exact ⟨_, rfl, handled (fun n s => .withPlan fun _ => .refl .none s) _ _ _ _⟩
  | announcementStep l => exact ⟨_, rfl, same.sessionBlock l⟩
  | clipCreate tag q => exact ⟨_, rfl, handled ownClipCreate_calls _ _ _ _⟩
  | clipData tag q => exact ⟨_, rfl, handled ownClipData_calls _ _ _ _⟩
  | clipClose tag q => exact ⟨_, rfl, handled ownClipClose_calls _ _ _ _⟩
  | clipDelete tag q => exact ⟨_, rfl, handled (fun n s => .withClip fun c => (CallsKept.refl .none s).deleteClip c) _ _ _ _⟩
  | clipInfo tag q => exact ⟨_, rfl, handled ownClipInfo_calls _ _ _ _⟩
  | memoryRelease tag q =>
    have released := handled ownMemoryRelease_calls 0x38 tag noFields q
    refine ⟨_, rfl, ?_⟩
    unfold State.afterRelease
    exact .ite released.settlePort released
  | memoryReclaim tag q => exact ⟨_, rfl, handled ownMemoryReclaim_calls _ _ _ _⟩
  | scanEntryRead found => exact ⟨_, rfl, same.scanRead found⟩
  | fetchComplete found => exact ⟨_, rfl, same.fetchComplete found⟩
  | programComplete found => exact ⟨_, rfl, same.programComplete found⟩
  | eraseComplete => exact ⟨_, rfl, same.eraseComplete⟩
  | directoryUpdateComplete => exact ⟨_, rfl, same.updateComplete⟩
  | engineBlockEvent e => exact ⟨_, rfl, same.engineBlock e⟩
  | whisperPrompt tag q => exact ⟨_, rfl, handled ownWhisperPrompt_calls _ _ _ _⟩
  | whisperFlush tag q => exact ⟨_, rfl, handled (fun n s => .withPosition fun p => (CallsKept.refl .none s).flushPrompts p) _ _ _ _⟩
  | gapEnd p => exact ⟨_, rfl, same.gapBlock p⟩
  | whisperDeadlineExpiry p => exact ⟨_, rfl, same.deadlineBlock p⟩
  | supervise tag q => exact ⟨_, rfl, handled ownSupervise_calls _ _ _ _⟩
  | superviseEnd tag q =>
    exact ⟨_, rfl, handled (fun n s => .withPosition fun p => .ite (((CallsKept.refl .none s).endSupervision p).finish s) (.refl .none s)) _ _ _ _⟩
  | requestFrameReceived frame => exact ⟨_, rfl, .clock s _⟩
  | frameDiscarded frame => exact ⟨_, rfl, .clock s _⟩
  | frameTimeout => exact ⟨_, rfl, same.timeoutFrame⟩
  | unknown tag code => exact ⟨_, rfl, .unknownRequest s tag code⟩
  | messageSent => exact ⟨_, rfl, .clock s _⟩
  | deviceStatus tag q => exact ⟨_, rfl, unchanged (fun _ _ => rfl) (fun _ _ => rfl) _ _ _ _⟩
  | deviceReset tag q => exact ⟨_, rfl, unchanged (fun _ _ => rfl) (fun _ _ => rfl) _ _ _ _⟩
  | highwayFrame frame wellPlaced => exact ⟨_, rfl, same.highwayFrame frame wellPlaced⟩
  | startMarker => exact ⟨_, rfl, .clock s _⟩

theorem step_calls {s t : State} (h : step s = .next t) : CallsKept .none .none s t := by
  unfold step at h
  split at h
  · rw [← Host.Outcome.next.inj h]
    exact .refl .none s
  · rename_i c rest _
    obtain ⟨u, e, kept⟩ := exec_calls c { s with pending := rest }
    rw [← Host.Outcome.next.inj (e.symm.trans h)]
    exact CallsKept.trans (CallsKept.others (.refl .none s)) kept

/-- Settles O59: each command keeps the laws (`exec_calls`). A chain of happenings keeps them small change by small change (`Atom.calls`),
and an operation in parts keeps the law of attachment with the exceptions that it leaves in between (`Gaps`). -/
theorem attachAndSuperLawsKept : Obligations.AttachAndSuperLawsKept := by
  unfold Obligations.AttachAndSuperLawsKept
  simp only [attachLaw_iff]
  exact ⟨fun s t k h => (step_calls h).attach k, fun s t k law h => (step_calls h).super k law, fun s t k law h => (step_calls h).whisper k law⟩

end Sys2Proof.Machine
end

section
set_option Elab.async false
/-! ## The release sequence (R23): what it leaves and what it reports -/

namespace Sys2Proof.Machine

/-! ### Steps that leave ports, records and the highway alone -/

/-- What chains of happenings and departures can change, and the reports that they make: of a position only its leg, its supervision and its
whisper queue, of a plan not its record. -/
structure Passage (s t : State) (made : List ReportBody) : Prop where
  frame : t = { s with
    positions := t.positions, legs := t.legs, ears := t.ears, sends := t.sends, plans := t.plans, clips := t.clips
    freeSlabs := t.freeSlabs, memory := t.memory, engines := t.engines, arbiter := t.arbiter, link := t.link }
  link : t.link = s.link.placeReports s.highway.period made
  pos : ∀ q, ∃ leg supervision whisper, t.pos q = { s.pos q with leg := leg, supervision := supervision, whisper := whisper }
  records : ∀ h, (t.plan h).record = (s.plan h).record

namespace Passage
variable {s t u : State} {a b : List ReportBody}

theorem refl (s : State) : Passage s s [] := ⟨rfl, rfl, fun _ => ⟨_, _, _, rfl⟩, fun _ => rfl⟩

theorem trans (h : Passage s t a) (k : Passage t u b) : Passage s u (a ++ b) := by
  refine ⟨?_, ?_, fun q => ?_, fun i => (k.records i).trans (h.records i)⟩
  · rw [k.frame, h.frame]
  · rw [k.link, h.link, Link.placeReports_append, h.frame]
  · obtain ⟨leg, supervision, whisper, e⟩ := h.pos q
    obtain ⟨leg', supervision', whisper', e'⟩ := k.pos q
    rw [e] at e'
    exact ⟨_, _, _, e'⟩

theorem report (h : Passage s t a) (x : ReportBody) : Passage s (t.report x) (a ++ [x]) :=
  h.trans ⟨rfl, rfl, fun _ => ⟨_, _, _, rfl⟩, fun _ => rfl⟩

theorem silent (h : Passage s t a) (k : Passage t u []) : Passage s u a := by
  have both := h.trans k
  rwa [List.append_nil] at both

theorem modLeg (s : State) (l : LegId) (f : Leg → Leg) : Passage s (s.modLeg l f) [] := ⟨rfl, rfl, fun _ => ⟨_, _, _, rfl⟩, fun _ => rfl⟩

/-- A position's leg, supervision or whisper queue changed. -/
theorem modPos (s : State) (p : PosId) {f : Position → Position}
    (k : ∀ x, ∃ leg supervision whisper, f x = { x with leg := leg, supervision := supervision, whisper := whisper } := by
      exact fun _ => ⟨_, _, _, rfl⟩) : Passage s (s.modPos p f) [] := by
  refine ⟨rfl, rfl, fun q => ?_, fun _ => rfl⟩
  by_cases own : p = q
  · subst own
    rw [State.pos_modPos_same]
    exact k _
  · rw [State.pos_modPos_ne _ _ _ _ own]
    exact ⟨_, _, _, rfl⟩

theorem config (h : Passage s t a) (q : PosId) : (t.pos q).config = (s.pos q).config := by
  obtain ⟨_, _, _, e⟩ := h.pos q
  rw [e]

theorem detach (s : State) (l : LegId) : Passage s (s.detach l) [] := by
  unfold State.detach
  split
  · exact (modLeg s l _).silent (modPos _ _)
  · exact refl s

theorem notice (s : State) (l : LegId) : Passage s (s.notice l) [] := by
  unfold State.notice State.modEc
  exact modLeg s l _

theorem modWhisper (s : State) (p : PosId) (f : WhisperQueue → WhisperQueue) : Passage s (s.modWhisper p f) [] := modPos s p

theorem fallback (h : Passage s t a) (p : PosId) : t.fallbackPlan p = s.fallbackPlan p := by
  unfold State.fallbackPlan
  simp only [h.config, h.records]

end Passage

/-! ### Chains of happenings -/

/-- The memory port settles with at most one report, that the lines are released (R133). -/
theorem State.settlePort_passage (s : State) : ∃ made, made.filter ReportBody.ofRelease = [] ∧ Passage s s.settlePort made := by
  rcases s.settlePort_cases with ⟨m, e, _⟩ | ⟨_, e⟩
  · exact ⟨[], rfl, by rw [e]; exact ⟨rfl, rfl, fun _ => ⟨_, _, _, rfl⟩, fun _ => rfl⟩⟩
  · exact ⟨[.memoryReleased], rfl, by rw [e]; exact ⟨rfl, rfl, fun _ => ⟨_, _, _, rfl⟩, fun _ => rfl⟩⟩

theorem Atom.passage {ends : LegId → Prop} {s t : State} (h : Atom ends s t) :
    ∃ made, made.filter ReportBody.ofRelease = [] ∧ Passage s t made := by
  generalize e : t = u at h
  cases h with
  | records ears sends plans engines arbiter kept => exact ⟨[], rfl, ⟨rfl, rfl, fun _ => ⟨_, _, _, rfl⟩, kept⟩⟩
  | settle => exact s.settlePort_passage
  | emptied c =>
    unfold State.queueUpdate
    split
    · exact ⟨[], rfl, ⟨rfl, rfl, fun _ => ⟨_, _, _, rfl⟩, fun _ => rfl⟩⟩
    · obtain ⟨made, none_, k⟩ := State.settlePort_passage { s.emptyClip c with
        memory := { (s.emptyClip c).memory with updates := (s.emptyClip c).memory.updates ++ [c] } }
      have first : Passage s { s.emptyClip c with
          memory := { (s.emptyClip c).memory with updates := (s.emptyClip c).memory.updates ++ [c] } } [] :=
        ⟨rfl, rfl, fun _ => ⟨_, _, _, rfl⟩, fun _ => rfl⟩
      exact ⟨[] ++ made, none_, first.trans k⟩
  | report b other => exact ⟨[b], by simp [other], (Passage.refl s).report b⟩
  | head p => exact ⟨[], rfl, Passage.modPos s p⟩
  | prompt p => exact ⟨[], rfl, Passage.modPos s p⟩
  | call p w rest l gap =>
    refine ⟨[], rfl, ?_⟩
    rw [State.goActive_eq]
    exact ((Passage.modWhisper s p _).silent (Passage.modLeg _ l _)).silent (Passage.modPos _ p)
  | session l f => exact ⟨[], rfl, Passage.modLeg s l _⟩
  | ended l r => exact ⟨[], rfl, Passage.modLeg s l _⟩
  | _ => exact ⟨[], rfl, ⟨rfl, rfl, fun _ => ⟨_, _, _, rfl⟩, fun _ => rfl⟩⟩

/-- A chain of happenings makes none of the reports that a release sequence makes of its own. -/
theorem Walk.passage {ends : LegId → Prop} {s t : State} (w : Walk ends s t) :
    ∃ made, made.filter ReportBody.ofRelease = [] ∧ Passage s t made := by
  refine w.lift (R := fun u v => ∃ made, made.filter ReportBody.ofRelease = [] ∧ Passage u v made) (fun u => ⟨[], rfl, .refl u⟩) ?_ Atom.passage
  rintro u v x ⟨a, none_, h⟩ ⟨b, none', k⟩
  exact ⟨a ++ b, by rw [List.filter_append, none_, none']; rfl, h.trans k⟩

/-- A small change leaves every supervision, and under the law of attachment every position's leg. -/
theorem Atom.pos {ends : LegId → Prop} {s t : State} (h : Atom ends s t) (q : PosId) :
    (t.pos q).supervision = (s.pos q).supervision ∧ ∀ gaps, AttachBut gaps s → (t.pos q).leg = (s.pos q).leg := by
  generalize e : t = u at h
  cases h with
  | settle =>
    obtain ⟨memory, link, k⟩ := s.settlePort_frame
    rw [k]
    exact ⟨rfl, fun _ _ => rfl⟩
  | emptied c =>
    obtain ⟨memory, link, k⟩ := (s.emptyClip c).queueUpdate_frame c
    rw [k]
    exact ⟨rfl, fun _ _ => rfl⟩
  | head p =>
    by_cases own : p = q
    · subst own
      simp
    · simp [own]
  | prompt p =>
    by_cases own : p = q
    · subst own
      simp
    · simp [own]
  | call p w rest l gap entries kind =>
    rw [State.goActive_eq]
    by_cases own : p = q
    · subst own
      refine ⟨by simp, fun gaps law => ?_⟩
      have there := (law.called p l (by rw [entries, callers_cons_call kind]; simp)).2
      simpa using ((law.mutual_ l p).1 there).symm
    · simp [own]
  | _ => exact ⟨rfl, fun _ _ => rfl⟩

theorem Walk.supervision {ends : LegId → Prop} {s t : State} (w : Walk ends s t) (q : PosId) : (t.pos q).supervision = (s.pos q).supervision :=
  w.lift (R := fun u v => (v.pos q).supervision = (u.pos q).supervision) (fun _ => rfl) (fun h k => k.trans h) fun k => (k.pos q).1

theorem Walk.pos_leg {ends : LegId → Prop} {s t : State} (w : Walk ends s t) {gaps : Gaps} (law : AttachBut gaps s) (q : PosId) :
    (t.pos q).leg = (s.pos q).leg :=
  (w.keep (P := fun u => AttachBut gaps u ∧ (u.pos q).leg = (s.pos q).leg) (fun k h =>
    ⟨(k.calls gaps).attach h.1, ((k.pos q).2 gaps h.1).trans h.2⟩) ⟨law, rfl⟩).2

/-! ### The whisper queue and the leg of a position that departs (R45, R46, R174) -/

/-- The reports of a flushed whisper queue (R174). -/
def State.abortedReports (s : State) (p : PosId) : List ReportBody :=
  (s.pos p).whisper.entries.map fun w => .whisperAborted (w.reportOf p (some .release))

/-- The report of the leg of a position that departs (R45, R46). -/
def State.legReports (s : State) (p : PosId) (cause : ReleaseCause) : List ReportBody :=
  (s.pos p).leg.elim [] fun l =>
    if (s.leg l).state = .connecting then [.connectAborted l p]
    else if (s.leg l).state = .active then [.legState l .held cause (s.leg l).last (s.fallbackPlan p)] else []

theorem State.abortedReports_filter (s : State) (p : PosId) : (s.abortedReports p).filter ReportBody.ofRelease = s.abortedReports p := by
  refine List.filter_eq_self.2 fun b mem => ?_
  obtain ⟨w, _, rfl⟩ := List.mem_map.1 mem
  rfl

theorem State.legReports_filter (s : State) (p : PosId) (cause : ReleaseCause) :
    (s.legReports p cause).filter ReportBody.ofRelease = s.legReports p cause := by
  unfold State.legReports
  cases (s.pos p).leg with
  | none => rfl
  | some l =>
    show List.filter _ (if _ then _ else _) = if _ then _ else _
    split
    · rfl
    · split <;> rfl

/-- A flushed queue: its entries reported, and then a chain of happenings (R174). -/
theorem State.releaseWhispers_walk {ends : LegId → Prop} (s : State) (p : PosId)
    (c : Calling ends (s.modWhisper p fun q => { q with entries := [] })) :
    Walk ends { (s.modWhisper p fun q => { q with entries := [] }) with link := s.link.placeReports s.highway.period (s.abortedReports p) }
      (s.releaseWhispers p) := by
  unfold State.releaseWhispers State.abortedReports
  split
  · rename_i entries
    have same := s.modWhisper_self p
    rw [entries] at same ⊢
    rw [same]
    exact .refl s
  · dsimp only
    rw [State.foldl_report_eq]
    refine Walk.headRemoved ?_ ?_ p
    · exact .refl _
    · exact c

/-- What the departure of a position from its queue and its leg leaves (R45, R46, R174). -/
structure LegParted (s t : State) (p : PosId) : Prop where
  entries : (t.pos p).whisper.entries = []
  leg : (t.pos p).leg = none
  supervision : ∀ q, (t.pos q).supervision = (s.pos q).supervision
  active : ∀ l, (s.pos p).leg = some l → (s.leg l).state = .active →
    (t.leg l).state = .held ∧ (t.leg l).attached = none ∧ (t.leg l).last = (s.leg l).last ∧ (t.leg l).resume = (s.leg l).resume
      ∧ (t.leg l).ec = { (s.leg l).ec with settle := 25 }
      ∧ (t.leg l).session.map Session.plan = some (s.fallbackPlan p)
      ∧ (s.fallbackPlan p = none → (t.leg l).session = some ⟨none, .background, none, 0, none⟩)
  connecting : ∀ l, (s.pos p).leg = some l → (s.leg l).state = .connecting →
    (t.leg l).state = (if (s.leg l).origin = some .held then .held else .opened) ∧ (t.leg l).attached = none
      ∧ (t.leg l).origin = none ∧ (t.leg l).last = (s.leg l).last ∧ (t.leg l).resume = (s.leg l).resume
      ∧ (t.leg l).session.map Session.plan = (s.leg l).session.map Session.plan

section Depart
variable {s : State} {p : PosId}

/-- A position's leg through the flush of its whisper queue: only its session may move on, on its plan. -/
theorem State.releaseWhispers_parts (law : AttachLaw s) :
    ∃ made, made.filter ReportBody.ofRelease = s.abortedReports p ∧ Passage s (s.releaseWhispers p) made ∧
      (∀ q, ((s.releaseWhispers p).pos q).supervision = (s.pos q).supervision) ∧
      (∀ q, ((s.releaseWhispers p).pos q).leg = (s.pos q).leg) ∧
      (∀ q l, (s.pos p).leg = some l → l ∉ callers ((s.releaseWhispers p).pos q).whisper.entries) ∧
      ∀ l, (s.pos p).leg = some l → ∃ session : Option Session, (s.releaseWhispers p).leg l = { s.leg l with session := session } ∧
        session.map Session.plan = (s.leg l).session.map Session.plan := by
  rw [attachLaw_iff] at law
  have pos : ∀ q, (s.modWhisper p fun q => { q with entries := [] }).pos q
      = if p = q then { s.pos q with whisper := { (s.pos q).whisper with entries := [] } } else s.pos q := fun q => by
    by_cases own : p = q
    · subst own
      simp
    · simp [own]
  generalize named : ({ (s.modWhisper p fun q => { q with entries := [] }) with
    link := s.link.placeReports s.highway.period (s.abortedReports p) } : State) = u
  have upos : ∀ q, u.pos q = (s.modWhisper p fun q => { q with entries := [] }).pos q := fun q => by rw [← named]; rfl
  have uleg : ∀ l, u.leg l = s.leg l := fun l => by rw [← named]; rfl
  have walk := s.releaseWhispers_walk (ends := fun l => ∃ q, l ∈ callers (u.pos q).whisper.entries) p fun q l w mem kind =>
    ⟨q, mem_callers.2 ⟨w, by rw [upos]; exact mem, by rw [WhisperEntry.isCallOf_iff, WhisperEntry.caller_eq_some]; exact kind⟩⟩
  rw [named] at walk
  obtain ⟨made, none_, passage⟩ := walk.passage
  have first : Passage s u (s.abortedReports p) := by
    rw [← named]
    refine ⟨rfl, rfl, fun q => ?_, fun _ => rfl⟩
    obtain ⟨leg, supervision, whisper, e⟩ := (Passage.modWhisper s p fun q => { q with entries := [] }).pos q
    exact ⟨leg, supervision, whisper, e⟩
  have flushed : AttachBut ⟨fun _ => False, (· = p)⟩ u := by
    rw [← named]
    exact ((CallsKept.refl .none s).unplaced (List.nil_sublist _) fun _ => rfl).attach law |>.of_same (fun _ => .refl _) (fun _ => rfl) fun _ => rfl
  have uncalled : ∀ l, (s.pos p).leg = some l → ∀ q, l ∉ callers (u.pos q).whisper.entries := fun l on q mem => by
    have there := (flushed.called q l mem).2
    rw [uleg, (law.mutual_ l p).2 on] at there
    have own : p = q := Option.some.inj there
    rw [upos, pos, if_pos own] at mem
    exact absurd mem List.not_mem_nil
  refine ⟨_, ?_, first.trans passage, fun q => ?_, fun q => ?_, fun q l on => walk.uncalled (uncalled l on q), fun l on => ?_⟩
  · rw [List.filter_append, State.abortedReports_filter, none_, List.append_nil]
  · rw [walk.supervision, upos, pos]
    split <;> rfl
  · rw [walk.pos_leg flushed, upos, pos]
    split <;> rfl
  · obtain ⟨session, e, plan⟩ := walk.leg_away (uncalled l on) fun ⟨q, mem⟩ => uncalled l on q mem
    rw [uleg] at e plan
    exact ⟨session, e, plan⟩

theorem State.detach_leg (s : State) (l m : LegId) : (s.detach l).leg m = if l = m then { s.leg m with attached := none } else s.leg m := by
  unfold State.detach
  split
  · by_cases own : l = m
    · subst own
      simp
    · simp [own]
  · rename_i none_
    split
    · rename_i own
      subst own
      rw [← none_]
    · rfl

/-- An ACTIVE leg put on hold: detached, with notice, and then the session's begin (R37, R45). -/
theorem State.holdLeg_active {l : LegId} (plan : Option PlanId) (active : (s.leg l).state = .active) (there : (s.leg l).attached = some p)
    (law : AttachBut .none s) :
    ∃ made, made.filter ReportBody.ofRelease = [] ∧ Passage s (s.holdLeg l plan) made ∧
      (∀ q, ((s.holdLeg l plan).pos q).supervision = (s.pos q).supervision) ∧
      (∀ q, (((s.holdLeg l plan).pos q).whisper.entries) <:+ (s.pos q).whisper.entries) ∧
      ((s.holdLeg l plan).pos p).leg = none ∧
      ∃ session : Option Session, (s.holdLeg l plan).leg l = { s.leg l with
          state := .held, attached := none, session := session, ec := { (s.leg l).ec with settle := 25 } } ∧
        session.map Session.plan = some plan ∧ (plan = none → session = some ⟨none, .background, none, 0, none⟩) := by
  have hold : s.holdLeg l plan = (((s.detach l).notice l).modLeg l fun x => { x with state := .held }).beginSession l plan := by
    unfold State.holdLeg
    rw [if_pos active]
  rw [hold]
  have lawHeld := ((CallsKept.refl .none s).heldActive l active).attach law
  have first : Passage s (((s.detach l).notice l).modLeg l fun x => { x with state := .held }) [] :=
    ((Passage.detach s l).silent (Passage.notice _ l)).silent (Passage.modLeg _ l _)
  have leg : (((s.detach l).notice l).modLeg l fun x => { x with state := .held }).leg l = { s.leg l with
      state := .held, attached := none, ec := { (s.leg l).ec with settle := 25 } } := by
    rw [State.leg_modLeg_same]
    unfold State.notice
    rw [State.leg_modEc_same, State.detach_leg, if_pos rfl]
    rfl
  have pos : ∀ q, (((s.detach l).notice l).modLeg l fun x => { x with state := .held }).pos q
      = if p = q then { s.pos q with leg := none } else s.pos q := fun q => by
    show (s.detach l).pos q = _
    rw [State.detach_pos, there]
    simp
  generalize ((s.detach l).notice l).modLeg l (fun x => { x with state := .held }) = h at lawHeld first leg pos ⊢
  have uncalled : ∀ q, l ∉ callers (h.pos q).whisper.entries := lawHeld.uncalled (by rw [leg]; nofun)
  have calling : Calling (fun m => ∃ q, m ∈ callers (h.pos q).whisper.entries) h := fun q m w mem kind =>
    ⟨q, mem_callers.2 ⟨w, mem, by rw [WhisperEntry.isCallOf_iff, WhisperEntry.caller_eq_some]; exact kind⟩⟩
  have kept : ¬ ∃ q, l ∈ callers (h.pos q).whisper.entries := fun ⟨q, mem⟩ => uncalled q mem
  have risen : Walk (fun m => ∃ q, m ∈ callers (h.pos q).whisper.entries) h (plan.elim h h.planRise) := by
    cases plan with
    | none => exact .refl h
    | some i => exact (Walk.refl h).planRise calling i
  have begins : h.beginSession l plan = (plan.elim h h.planRise).enterSession l plan := by cases plan <;> rfl
  rw [begins]
  obtain ⟨session, leg', _⟩ := risen.leg_away uncalled kept
  obtain ⟨made, none_, passage⟩ := risen.passage
  have supervision := risen.supervision
  have entries := risen.entries
  have named := risen.pos_leg lawHeld
  have lawRisen := (risen.calls .none).attach lawHeld
  have calling' := calling.along risen
  have uncalled' : ∀ q, l ∉ callers ((plan.elim h h.planRise).pos q).whisper.entries := fun q => risen.uncalled (uncalled q)
  generalize plan.elim h h.planRise = y at leg' passage supervision entries named lawRisen calling' uncalled' ⊢
  obtain ⟨x, planned, begun⟩ := Walk.enterSession y calling' l plan
  obtain ⟨session', leg'', plan''⟩ := begun.leg_away (l := l) uncalled' kept
  obtain ⟨made', none', passage'⟩ := begun.passage
  have lawBegun : AttachBut .none (y.modLeg l fun y => { y with session := some x }) :=
    (CallsKept.modLeg (.refl .none y) l (f := fun y => { y with session := some x })).attach lawRisen
  rw [State.leg_modLeg_same, leg', leg] at leg''
  rw [State.leg_modLeg_same] at plan''
  refine ⟨_, ?_, (first.trans passage).trans ((Passage.modLeg y l _).trans passage'), fun q => ?_, fun q => ?_, ?_, session', leg'', ?_, fun none_ => ?_⟩
  · rw [List.nil_append, List.nil_append, List.filter_append, none_, none']
    rfl
  · rw [begun.supervision, show (y.modLeg l _).pos q = y.pos q from rfl, supervision, pos]
    split <;> rfl
  · refine (begun.entries q).trans ((entries q).trans ?_)
    rw [pos]
    split <;> exact List.suffix_refl _
  · rw [begun.pos_leg lawBegun, show (y.modLeg l _).pos p = y.pos p from rfl, named, pos, if_pos rfl]
  · rw [plan'']
    exact congrArg some planned
  · subst none_
    have exact_ : (y.enterSession l none).leg l = { y.leg l with session := some ⟨none, .background, none, 0, none⟩ } :=
      State.leg_modLeg_same y l _
    rw [leg''] at exact_
    exact congrArg Leg.session exact_

/-- The departure of a position from its queue and its leg (R45, R46, R174). -/
theorem State.legParted (law : AttachLaw s) (cause : ReleaseCause) :
    ∃ made, made.filter ReportBody.ofRelease = s.abortedReports p ++ s.legReports p cause ∧
      Passage s (((s.releaseWhispers p).releaseConnecting p).releaseActive p cause) made ∧
      LegParted s (((s.releaseWhispers p).releaseConnecting p).releaseActive p cause) p := by
  obtain ⟨made, filtered, passage, supervision, named, uncalled, kept⟩ := s.releaseWhispers_parts (p := p) law
  have entries := s.releaseWhispers_entries p
  have lawConnecting := ((CallsKept.refl .none s).releaseWhispers p).attach ((attachLaw_iff s).1 law)
  have lawParted := (((CallsKept.refl .none s).releaseWhispers p).releaseConnecting entries).attach ((attachLaw_iff s).1 law)
  generalize s.releaseWhispers p = v at passage supervision named uncalled kept entries lawConnecting lawParted ⊢
  unfold State.legReports
  cases on : (s.pos p).leg with
  | none =>
    have same : (v.releaseConnecting p).releaseActive p cause = v := by
      have off : (v.pos p).leg = none := (named p).trans on
      unfold State.releaseConnecting
      rw [off]
      unfold State.releaseActive
      rw [off]
    rw [same]
    exact ⟨made, by rw [filtered]; simp, passage, entries, (named p).trans on, supervision, fun l here => (nomatch on.symm.trans here),
      fun l here => nomatch on.symm.trans here⟩
  | some l =>
    obtain ⟨session, leg, plan⟩ := kept l on
    have here : (v.pos p).leg = some l := (named p).trans on
    have there : (v.leg l).attached = some p := (lawConnecting.mutual_ l p).2 here
    have busy : (s.leg l).state = .connecting ∨ (s.leg l).state = .active :=
      (law.2.1 l).1 (by rw [(law.1 l p).2 on]; rfl)
    have only : ∀ m, (s.pos p).leg = some m → m = l := fun m k => (Option.some.inj (on.symm.trans k)).symm
    rcases busy with connecting | active
    · have state : (v.leg l).state = .connecting := by rw [leg]; exact connecting
      have back : v.releaseConnecting p = (v.abortConnect l).report (.connectAborted l p) := by
        unfold State.releaseConnecting
        rw [here]
        exact if_pos state
      have free : ((v.abortConnect l).pos p).leg = none := by rw [State.abortConnect_pos, if_pos there]
      have done : (v.releaseConnecting p).releaseActive p cause = (v.abortConnect l).report (.connectAborted l p) := by
        rw [back]
        unfold State.releaseActive
        rw [show (((v.abortConnect l).report (.connectAborted l p)).pos p).leg = none from free]
      rw [done]
      have aborted : (v.abortConnect l).leg l = { s.leg l with
          attached := none, session := session, state := (s.leg l).originState, origin := none } := by
        unfold State.abortConnect
        rw [State.leg_modLeg_same, State.detach_leg, if_pos rfl, leg]
        rfl
      refine ⟨made ++ [.connectAborted l p], ?_, ?_, ?_⟩
      · rw [List.filter_append, filtered]
        show _ = _ ++ (if _ then _ else _)
        rw [if_pos connecting]
        rfl
      · exact (passage.silent ((Passage.detach v l).silent (Passage.modLeg _ l _))).report _
      · refine ⟨?_, free, fun q => ?_, fun m k active => ?_, fun m k _ => ?_⟩
        · show ((v.abortConnect l).pos p).whisper.entries = []
          rw [State.abortConnect_pos, if_pos there]
          exact entries
        · show ((v.abortConnect l).pos q).supervision = _
          rw [State.abortConnect_pos]
          split
          · exact supervision q
          · exact supervision q
        · rw [only m k] at active
          exact nomatch connecting.symm.trans active
        · rw [only m k]
          show ((v.abortConnect l).leg l).state = _ ∧ ((v.abortConnect l).leg l).attached = _ ∧ ((v.abortConnect l).leg l).origin = _ ∧
            ((v.abortConnect l).leg l).last = _ ∧ ((v.abortConnect l).leg l).resume = _ ∧ ((v.abortConnect l).leg l).session.map Session.plan = _
          rw [aborted]
          refine ⟨?_, rfl, rfl, rfl, rfl, plan⟩
          show (s.leg l).originState = _
          unfold Leg.originState
          cases (s.leg l).origin with
          | none => rfl
          | some o => cases o <;> rfl
    · have state : (v.leg l).state = .active := by rw [leg]; exact active
      have stays : v.releaseConnecting p = v := by
        unfold State.releaseConnecting
        rw [here]
        exact if_neg (by rw [state]; nofun)
      rw [stays] at lawParted ⊢
      have goes : v.releaseActive p cause = (v.holdLeg l (v.fallbackPlan p)).report (.legState l .held cause (v.leg l).last (v.fallbackPlan p)) := by
        unfold State.releaseActive
        rw [here]
        exact if_pos state
      rw [goes, passage.fallback]
      obtain ⟨made', none_, passage', supervision', entries', free, session', leg', plan', exact_⟩ :=
        v.holdLeg_active (p := p) (s.fallbackPlan p) state there lawParted
      refine ⟨(made ++ made') ++ [.legState l .held cause (v.leg l).last (s.fallbackPlan p)], ?_, (passage.trans passage').report _, ?_⟩
      · rw [List.filter_append, List.filter_append, filtered, none_, List.append_nil, leg]
        show _ = _ ++ (if _ then _ else _)
        rw [if_neg (by rw [active]; nofun), if_pos active]
        rfl
      · refine ⟨?_, free, fun q => (supervision' q).trans (supervision q), fun m k _ => ?_, fun m k connecting => ?_⟩
        · have part := entries' p
          rw [entries] at part
          exact List.suffix_nil.1 part
        · rw [only m k]
          show ((v.holdLeg l (s.fallbackPlan p)).leg l).state = _ ∧ ((v.holdLeg l (s.fallbackPlan p)).leg l).attached = _ ∧
            ((v.holdLeg l (s.fallbackPlan p)).leg l).last = _ ∧ ((v.holdLeg l (s.fallbackPlan p)).leg l).resume = _ ∧
            ((v.holdLeg l (s.fallbackPlan p)).leg l).ec = _ ∧ ((v.holdLeg l (s.fallbackPlan p)).leg l).session.map Session.plan = _ ∧
            (_ → ((v.holdLeg l (s.fallbackPlan p)).leg l).session = _)
          rw [leg', leg]
          exact ⟨rfl, rfl, rfl, rfl, rfl, plan', exact_⟩
        · rw [only m k] at connecting
          exact nomatch active.symm.trans connecting

end Depart

end Sys2Proof.Machine
end

section
set_option Elab.async false
/-! ## The release sequence whole: PORT_DISABLE, UNPLUG and RECOVERY_WINDOW_EXPIRY (O5, O13, O15) -/

namespace Sys2Proof.Machine

/-! ### Supervisions that end (R180) -/

/-- Legs stand as they were, but for a notice to a canceller (R101). -/
def Noticed (s t : State) : Prop := ∀ l, t.leg l = s.leg l ∨ t.leg l = { s.leg l with ec := { (s.leg l).ec with settle := 25 } }

theorem Noticed.refl (s : State) : Noticed s s := fun _ => .inl rfl

theorem Noticed.trans {s t u : State} (h : Noticed s t) (k : Noticed t u) : Noticed s u := fun l => by
  rcases h l with e | e <;> rcases k l with e' | e' <;> rw [e'] <;> rw [e]
  · exact .inl rfl
  · exact .inr rfl
  · exact .inr rfl
  · exact .inr rfl

theorem State.finish_noticed (s before : State) : Noticed s (s.finish before) := s.finish_leg before

theorem State.supervisorOf_congr {s t : State} {p : PosId}
    (h : ∀ q, (t.pos q).supervision.map Supervision.agent = some p ↔ (s.pos q).supervision.map Supervision.agent = some p) :
    t.supervisorOf p = s.supervisorOf p := by
  have names : ∀ u : State, u.supervisorOf p
      = (List.finRange 32).find? fun q => decide ((u.pos q).supervision.map Supervision.agent = some p) := fun u => by
    unfold State.supervisorOf
    refine congrArg (fun f => (List.finRange 32).find? f) (funext fun q => ?_)
    cases (u.pos q).supervision with
    | none => rfl
    | some r => exact decide_eq_decide.2 ⟨fun k => congrArg some k, fun k => Option.some.inj k⟩
  rw [names t, names s]
  exact congrArg (fun f => (List.finRange 32).find? f) (funext fun q => decide_eq_decide.2 (h q))

theorem State.supervisorOf_some {s : State} {p q : PosId} (h : s.supervisorOf p = some q) :
    ∃ r, (s.pos q).supervision = some r ∧ r.agent = p := by
  have named := List.find?_some h
  split at named
  · rename_i r some_
    exact ⟨r, some_, of_decide_eq_true named⟩
  · exact nomatch named

theorem State.supervisorOf_none {s : State} {p : PosId} : s.supervisorOf p = none ↔ ∀ q r, (s.pos q).supervision = some r → r.agent ≠ p := by
  constructor
  · intro none_ q r some_ own
    have no := List.find?_eq_none.1 none_ q (List.mem_finRange q)
    rw [some_] at no
    exact no (decide_eq_true own)
  · intro none_
    cases found : s.supervisorOf p with
    | none => rfl
    | some q =>
      obtain ⟨r, some_, own⟩ := State.supervisorOf_some found
      exact absurd own (none_ q r some_)

/-- The report of a supervision that ends with a release sequence (R180). -/
def State.recordReports (s : State) (q : PosId) (cause : ReleaseCause) : List ReportBody :=
  (s.pos q).supervision.elim [] fun r => [.supervisionEnded q r.agent r.mode cause]

theorem State.recordReports_filter (s : State) (q : PosId) (cause : ReleaseCause) :
    (s.recordReports q cause).filter ReportBody.ofRelease = s.recordReports q cause := by
  unfold State.recordReports
  cases (s.pos q).supervision <;> rfl

section Supervisions
variable {s : State}

theorem Passage.noticeAgent (s : State) (a : PosId) (due : Bool) : Passage s (s.noticeAgent a due) [] := by
  unfold State.noticeAgent
  split
  · cases s.activeLeg a with
    | none => exact .refl s
    | some l => exact .notice s l
  · exact .refl s

theorem Noticed.noticeAgent (s : State) (a : PosId) (due : Bool) : Noticed s (s.noticeAgent a due) := fun l => by
  rw [State.noticeAgent_leg]
  split
  · exact .inr rfl
  · exact .inl rfl

/-- A supervision's end: the record absent, with notice, and reported (R179, R180). -/
theorem State.releaseRecord_parts (q : PosId) (cause : ReleaseCause) :
    Passage s (s.releaseRecord q cause) (s.recordReports q cause) ∧ Noticed s (s.releaseRecord q cause) ∧
      ∀ x, (s.releaseRecord q cause).pos x = if q = x then { s.pos x with supervision := none } else s.pos x := by
  unfold State.releaseRecord State.recordReports
  cases e : (s.pos q).supervision with
  | none =>
    refine ⟨.refl s, .refl s, fun x => ?_⟩
    by_cases own : q = x
    · subst own
      rw [if_pos rfl]
      exact show s.pos q = { s.pos q with supervision := none } by rw [← e]
    · rw [if_neg own]
  | some r =>
    dsimp only
    rw [State.endSupervision_eq e]
    refine ⟨((Passage.noticeAgent s r.agent (decide (r.mode = .barge))).silent (.modPos _ q)).report _,
      Noticed.noticeAgent s r.agent (decide (r.mode = .barge)), fun x => ?_⟩
    have pos : ∀ x, (s.noticeAgent r.agent (decide (r.mode = .barge))).pos x = s.pos x := fun x => by
      rw [State.noticeAgent_frame]
      rfl
    show ((s.noticeAgent r.agent (decide (r.mode = .barge))).modPos q fun y => { y with supervision := none }).pos x = _
    by_cases own : q = x
    · subst own
      rw [State.pos_modPos_same, pos, if_pos rfl]
    · rw [State.pos_modPos_ne _ _ _ _ own, pos, if_neg own]

/-- The supervisions of a position that departs: its own ends, and that in which it is the agent (R180). -/
theorem State.releaseSupervision_parts (law : SuperLaw s) (p : PosId) (cause : ReleaseCause) :
    Passage s (s.releaseSupervision p cause)
        (s.recordReports p cause ++ (s.supervisorOf p).elim [] fun q => s.recordReports q cause) ∧
      Noticed s (s.releaseSupervision p cause) ∧
      (∀ x, ∃ supervision, (s.releaseSupervision p cause).pos x = { s.pos x with supervision := supervision }) ∧
      ((s.releaseSupervision p cause).pos p).supervision = none ∧ (s.releaseSupervision p cause).supervisorOf p = none := by
  obtain ⟨passage, noticed, pos⟩ := s.releaseRecord_parts p cause
  unfold State.releaseSupervision
  generalize s.releaseRecord p cause = t at passage noticed pos
  have same : t.supervisorOf p = s.supervisorOf p := State.supervisorOf_congr fun q => by
    rw [pos]
    split
    · rename_i own
      subst own
      refine ⟨nofun, fun named => ?_⟩
      obtain ⟨r, some_, agent⟩ := Option.map_eq_some_iff.1 named
      exact absurd agent (law p r some_).1
    · rfl
  dsimp only
  rw [same]
  cases found : s.supervisorOf p with
  | none =>
    refine ⟨?_, noticed, fun x => ?_, ?_, same.trans found⟩
    · rw [Option.elim_none, List.append_nil]
      exact passage
    · rw [pos]
      split
      · exact ⟨none, rfl⟩
      · exact ⟨_, rfl⟩
    · rw [pos, if_pos rfl]
  | some q =>
    obtain ⟨r, some_, agent⟩ := State.supervisorOf_some found
    have other : p ≠ q := fun own => (law q r some_).1 (agent.trans own)
    obtain ⟨passage', noticed', pos'⟩ := t.releaseRecord_parts q cause
    dsimp only
    generalize t.releaseRecord q cause = u at passage' noticed' pos'
    have record : t.recordReports q cause = s.recordReports q cause := by
      unfold State.recordReports
      rw [pos, if_neg other]
    rw [record] at passage'
    refine ⟨passage.trans passage', noticed.trans noticed', fun x => ?_, ?_, ?_⟩
    · rw [pos', pos]
      split
      · split <;> exact ⟨none, rfl⟩
      · split
        · exact ⟨none, rfl⟩
        · exact ⟨_, rfl⟩
    · rw [pos', if_neg other.symm, pos, if_pos rfl]
    · rw [State.supervisorOf_none]
      intro x r' some' agent'
      rw [pos', pos] at some'
      split at some'
      · exact nomatch some'
      · rename_i away
        split at some'
        · exact nomatch some'
        · exact away (((law q r some_).2.2 x r' some').2 (agent'.trans agent.symm)).symm

end Supervisions

/-! ### The sequence (R23) -/

section Sequence
variable {s : State} {p : PosId}

/-- The report of a mute flag that a release sequence clears (R23). -/
def State.muteReports (s : State) (p : PosId) : List ReportBody := if (s.pos p).mute = true then [.muteChanged p .release false] else []

/-- The reports of the release sequence's five steps, in order (R23). -/
def State.sequenceReports (s : State) (p : PosId) (cause : ReleaseCause) : List ReportBody :=
  s.abortedReports p ++ s.legReports p cause ++ s.recordReports p cause
    ++ ((s.supervisorOf p).elim [] fun q => s.recordReports q cause) ++ s.muteReports p

/-- The last of a release sequence: the mute flag clear and the ear volume the configured one (R23). -/
def Position.quiet (x : Position) : Position := { x with mute := false, earVolume := x.config.earVolume }

/-- A release sequence carried out: what it leaves, and what it reports (R23). -/
structure Departed (s t : State) (p : PosId) (made : List ReportBody) : Prop where
  released : Released s t p
  port : (t.pos p).port = (s.pos p).port
  sources : t.sources = s.sources
  link : t.link = s.link.placeReports s.highway.period made

/-- The five steps in order (R23). -/
theorem State.releaseSequence_departed (attach : AttachLaw s) (super : SuperLaw s) (cause : ReleaseCause) :
    ∃ made, made.filter ReportBody.ofRelease = s.sequenceReports p cause ∧ Departed s (s.releaseSequence p cause) p made := by
  obtain ⟨made, filtered, first, parted⟩ := State.legParted (p := p) attach cause
  have superParted := (((CallsKept.refl .none s).releaseWhispers p).releaseConnecting (s.releaseWhispers_entries p)).releaseActive p cause
    |>.super ((attachLaw_iff s).1 attach) super
  unfold State.releaseSequence
  dsimp only
  generalize ((s.releaseWhispers p).releaseConnecting p).releaseActive p cause = t at first parted superParted ⊢
  obtain ⟨second, noticed, pos, supervision, supervisor⟩ := State.releaseSupervision_parts superParted p cause
  have records : ∀ q, t.recordReports q cause = s.recordReports q cause := fun q => by
    unfold State.recordReports
    rw [parted.supervision]
  have supervisors : t.supervisorOf p = s.supervisorOf p := State.supervisorOf_congr fun q => by rw [parted.supervision]
  simp only [records, supervisors] at second
  generalize t.releaseSupervision p cause = u at second noticed pos supervision supervisor ⊢
  have both := first.trans second
  obtain ⟨leg, sup, whisper, old⟩ := both.pos p
  have mute : (u.pos p).mute = (s.pos p).mute := by rw [old]
  have settled : ∀ l, (t.leg l).ec.settle = 25 → u.leg l = t.leg l := fun l k => by
    rcases noticed l with e | e
    · exact e
    · rw [e, ← k]
  rw [State.setMute_eq_reporting, State.modPos_eq_reporting, State.reporting_reporting, List.append_nil, mute]
  refine ⟨(made ++ (s.recordReports p cause ++ (s.supervisorOf p).elim [] fun q => s.recordReports q cause)) ++ s.muteReports p, ?_, ?_⟩
  · have last : (s.muteReports p).filter ReportBody.ofRelease = s.muteReports p := by
      unfold State.muteReports
      split <;> rfl
    have agent : ((s.supervisorOf p).elim [] fun q => s.recordReports q cause).filter ReportBody.ofRelease
        = (s.supervisorOf p).elim [] fun q => s.recordReports q cause := by
      cases s.supervisorOf p with
      | none => rfl
      | some q => exact s.recordReports_filter q cause
    rw [List.filter_append, List.filter_append, List.filter_append, filtered, last, agent, State.recordReports_filter]
    unfold State.sequenceReports
    simp only [List.append_assoc]
  · have reports : (if false = (s.pos p).mute then [] else [ReportBody.muteChanged p .release false]) = s.muteReports p := by
      unfold State.muteReports
      cases (s.pos p).mute <;> rfl
    rw [reports]
    show Departed s (u.reporting p Position.quiet (s.muteReports p)) p _
    have own : (u.reporting p Position.quiet (s.muteReports p)).pos p
        = { u.pos p with mute := false, earVolume := (u.pos p).config.earVolume } := u.reporting_pos_same p Position.quiet (s.muteReports p)
    have other := fun q => u.reporting_pos_ne (p := p) (q := q) Position.quiet (s.muteReports p)
    have leg : ∀ l, (u.reporting p Position.quiet (s.muteReports p)).leg l = u.leg l :=
      fun _ => rfl
    have link : (u.reporting p Position.quiet (s.muteReports p)).link
        = u.link.placeReports u.highway.period (s.muteReports p) := rfl
    have frame : u.reporting p Position.quiet (s.muteReports p) = { u with
        positions := (u.reporting p Position.quiet (s.muteReports p)).positions
        link := (u.reporting p Position.quiet (s.muteReports p)).link } := rfl
    generalize u.reporting p Position.quiet (s.muteReports p) = v
      at own other leg link frame ⊢
    obtain ⟨supervision', here⟩ := pos p
    refine ⟨⟨?_, ?_, ?_, ?_, ?_, ?_, fun l on active => ?_, fun l on connecting => ?_, fun q => ?_, fun q => ?_, fun q away => ?_, fun h => ?_, ?_⟩,
      ?_, ?_, ?_⟩
    · rw [own, here]
      exact parted.entries
    · rw [own, here]
      exact parted.leg
    · rw [own]
      exact supervision
    · refine (State.supervisorOf_congr fun q => ?_).trans supervisor
      by_cases same : q = p
      · rw [same, own]
      · rw [other q same]
    · rw [own]
    · rw [own, old]
    · rw [leg, settled l (by rw [(parted.active l on active).2.2.2.2.1])]
      exact parted.active l on active
    · have kept := parted.connecting l on connecting
      rw [leg]
      rcases noticed l with e | e <;> rw [e] <;> exact kept
    · obtain ⟨_, _, _, e⟩ := both.pos q
      by_cases same : q = p
      · rw [same, own, old]
      · rw [other q same, e]
    · obtain ⟨_, _, _, e⟩ := both.pos q
      by_cases same : q = p
      · rw [same, own, old]
      · rw [other q same, e]
    · obtain ⟨_, _, _, e⟩ := both.pos q
      rw [other q away, e]
      exact ⟨rfl, rfl, rfl, rfl⟩
    · have plan : v.plan h = u.plan h := by rw [frame]; rfl
      rw [plan]
      exact both.records h
    · rw [frame, both.frame]
    · rw [own, old]
    · rw [frame, both.frame]
    · have period : u.highway = s.highway := by rw [both.frame]
      rw [link, both.link, period, Link.placeReports_append (b := s.muteReports p)]

/-! ### Around the sequence -/

/-- A sequence carried out from a state in which the port, the reports, the mute flag or the suppressor of the position had moved on before. -/
theorem Released.before {u t : State} (h : Released u t p) (others : ∀ q, q ≠ p → u.pos q = s.pos q)
    (own : ∃ port mute ear ns, u.pos p = { s.pos p with port := port, mute := mute, earVolume := ear, ns := ns })
    (frame : u = { s with positions := u.positions, sources := u.sources, link := u.link }) : Released s t p := by
  obtain ⟨port, mute, ear, ns, e⟩ := own
  have config : ∀ q, (u.pos q).config = (s.pos q).config := fun q => by
    by_cases same : q = p
    · rw [same, e]
    · rw [others q same]
  have fallback : u.fallbackPlan p = s.fallbackPlan p := by
    have plan : ∀ i, u.plan i = s.plan i := fun i => by rw [frame]; rfl
    unfold State.fallbackPlan
    rw [config]
    cases (s.pos p).config.fallback with
    | none => rfl
    | some i => exact congrArg (fun x : Plan => if x.record.isSome then some i else none) (plan i)
  have leg : ∀ l, u.leg l = s.leg l := fun l => by rw [frame]; rfl
  have named : (u.pos p).leg = (s.pos p).leg := by rw [e]
  obtain ⟨entries, gone, supervises, supervised, quiet, volume, active, connecting, configs, limiter, kept, records, rest⟩ := h
  simp only [named, leg, fallback] at active connecting
  refine ⟨entries, gone, supervises, supervised, quiet, volume.trans (by rw [config]), active, connecting, fun q => (configs q).trans (config q),
    fun q => (limiter q).trans ?_, fun q away => ?_, fun i => (records i).trans ?_, ?_⟩
  · by_cases same : q = p
    · rw [same, e]
    · rw [others q same]
  · rw [← others q away]
    exact kept q away
  · rw [frame]
    rfl
  · rw [rest, frame]

/-- A sequence carried out, after which only the position's port, the legs' settle counts, the sources, the feeds and the reports move on. -/
theorem Released.after {t v : State} (h : Released s t p) (others : ∀ q, q ≠ p → v.pos q = t.pos q)
    (own : ∃ port, v.pos p = { t.pos p with port := port }) (noticed : Noticed t v)
    (frame : v = { t with
      positions := v.positions, legs := v.legs, sources := v.sources, ears := v.ears, sends := v.sends, link := v.link }) : Released s v p := by
  obtain ⟨port, e⟩ := own
  obtain ⟨entries, gone, supervises, supervised, quiet, volume, active, connecting, configs, limiter, kept, records, rest⟩ := h
  have same : ∀ q, ∃ port, v.pos q = { t.pos q with port := port } := fun q => by
    by_cases same : q = p
    · exact ⟨port, by rw [same, e]⟩
    · exact ⟨_, others q same⟩
  refine ⟨by rw [e]; exact entries, by rw [e]; exact gone, by rw [e]; exact supervises, ?_, by rw [e]; exact quiet, by rw [e]; exact volume,
    fun l on state => ?_, fun l on state => ?_, fun q => ?_, fun q => ?_, fun q away => ?_, fun i => ?_, ?_⟩
  · refine (State.supervisorOf_congr fun q => ?_).trans supervised
    obtain ⟨_, e'⟩ := same q
    rw [e']
  · have k := active l on state
    have settled : v.leg l = t.leg l := by
      rcases noticed l with e' | e'
      · exact e'
      · rw [e', ← show (t.leg l).ec.settle = 25 by rw [k.2.2.2.2.1]]
    rw [settled]
    exact k
  · have k := connecting l on state
    rcases noticed l with e' | e' <;> rw [e'] <;> exact k
  · obtain ⟨_, e'⟩ := same q
    rw [e']
    exact configs q
  · obtain ⟨_, e'⟩ := same q
    rw [e']
    exact limiter q
  · rw [others q away]
    exact kept q away
  · rw [frame]
    exact records i
  · rw [frame, rest]

/-! ### The reports in order -/

/-- The reports of a release sequence are those that the manual's list gives (R18, R23). -/
theorem State.releaseReports_eq (s : State) (p : PosId) (cause : ReleaseCause) : s.releaseReports p cause =
    (if (s.pos p).mutePushed then [.muteChanged p .button false] else [])
      ++ (if (s.pos p).port.state = .live ∧ (s.pos p).port.buttons.talk.pressed then [.talkButton p false] else [])
      ++ (s.abortedReports p ++ s.legReports p cause ++ s.recordReports p cause
        ++ ((s.supervisorOf p).elim [] fun q => s.recordReports q cause)
        ++ (if (s.pos p).mute && !(s.pos p).mutePushed then [.muteChanged p .release false] else [])) := by
  unfold State.releaseReports State.abortedReports State.legReports State.recordReports
  simp only [List.append_assoc]
  refine congrArg₂ _ rfl (congrArg₂ _ rfl (congrArg₂ _ rfl (congrArg₂ _ ?_ (congrArg₂ _ ?_ (congrArg₂ _ ?_ rfl)))))
  · cases (s.pos p).leg <;> rfl
  · cases (s.pos p).supervision <;> rfl
  · cases s.supervisorOf p with
    | none => rfl
    | some q =>
      rw [Option.elim_some]
      dsimp only
      cases (s.pos q).supervision <;> rfl

/-- A position's port, mute flag, volume and suppressor play no part in the reports of what it departs from. -/
theorem State.departReports_congr {u : State} (cause : ReleaseCause)
    (pos : ∀ q, ∃ port mute ear ns, u.pos q = { s.pos q with port := port, mute := mute, earVolume := ear, ns := ns })
    (legs : u.legs = s.legs) (plans : u.plans = s.plans) : u.abortedReports p = s.abortedReports p ∧ u.legReports p cause = s.legReports p cause ∧
      (∀ q, u.recordReports q cause = s.recordReports q cause) ∧ u.supervisorOf p = s.supervisorOf p := by
  have supervision : ∀ q, (u.pos q).supervision = (s.pos q).supervision := fun q => by
    obtain ⟨_, _, _, _, e⟩ := pos q
    rw [e]
  obtain ⟨_, _, _, _, e⟩ := pos p
  have fallback : u.fallbackPlan p = s.fallbackPlan p := by
    unfold State.fallbackPlan State.plan
    rw [e, plans]
  refine ⟨?_, ?_, fun q => ?_, State.supervisorOf_congr fun q => by rw [supervision]⟩
  · unfold State.abortedReports
    rw [e]
  · unfold State.legReports State.leg
    rw [e, legs, fallback]
  · unfold State.recordReports
    rw [supervision]

/-- A port's record plays no part in a release sequence's reports but by its state and its buttons. -/
theorem State.releaseReports_modPort {f : Port → Port} (cause : ReleaseCause) (state : (f (s.pos p).port).state = (s.pos p).port.state)
    (buttons : (f (s.pos p).port).buttons = (s.pos p).port.buttons) : (s.modPort p f).releaseReports p cause = s.releaseReports p cause := by
  have own : (s.modPort p f).pos p = { s.pos p with port := f (s.pos p).port } := State.pos_modPos_same s p _
  obtain ⟨aborted, leg, record, supervisor⟩ := State.departReports_congr (s := s) (u := s.modPort p f) (p := p) cause (fun q => by
    by_cases same : p = q
    · rw [← same, own]
      exact ⟨_, _, _, _, rfl⟩
    · exact ⟨_, _, _, _, State.pos_modPos_ne s p q _ same⟩) rfl rfl
  have pushed : ((s.modPort p f).pos p).mutePushed = (s.pos p).mutePushed := by
    rw [own]
    unfold Position.mutePushed
    rw [← state, ← buttons]
  rw [State.releaseReports_eq, State.releaseReports_eq, aborted, leg, supervisor, pushed, own]
  simp only [record]
  rw [← state, ← buttons]

/-- Of the reports of a port that leaves LIVE the sequence's list names those of the MUTE button in PUSH and of TALK (R18, R19, R21). -/
theorem Position.leaveReports_filter {x : Position} (live : x.port.state = .live) (p : PosId) :
    (x.leaveReports p).filter ReportBody.ofRelease = (if x.mutePushed then [.muteChanged p .button false] else [])
      ++ (if x.port.state = .live ∧ x.port.buttons.talk.pressed then [.talkButton p false] else []) := by
  have pushed : x.mutePushed = (x.port.buttons.mute.pressed && (decide (x.config.muteMode = .push) && x.mute)) := by
    unfold Position.mutePushed
    rw [decide_eq_true live, Bool.true_and, Bool.and_assoc]
  unfold Position.leaveReports Position.effectReports
  have quiet : ∀ c : Prop, ∀ _ : Decidable c, ∀ r : Position × List ReportBody, (if c then (r.1, r.2) else r) = r := fun c _ r => by split <;> rfl
  have button : x.actReports p .mute false
      = if (decide (x.config.muteMode = .push) && x.mute) = true then [.muteChanged p .button false] else [] := by
    unfold Position.actReports Position.muteAfter
    cases x.config.muteMode <;> cases x.mute <;> rfl
  have whole : ∀ c : Bool, (if c = true then [ReportBody.muteChanged p .button false] else []).filter ReportBody.ofRelease
      = if c = true then [.muteChanged p .button false] else [] := fun c => by cases c <;> rfl
  have up : ∀ y : Position, y.acted .volUp false = y ∧ y.actReports p .volUp false = [] := fun _ => ⟨rfl, rfl⟩
  have down : ∀ y : Position, y.acted .volDown false = y ∧ y.actReports p .volDown false = [] := fun _ => ⟨rfl, rfl⟩
  have spoken : ∀ y : Position, y.actReports p .talk false = [.talkButton p false] := fun _ => rfl
  simp only [List.foldl_cons, List.foldl_nil, buttonOf, nonePressed, up, down, spoken, button, List.append_nil, quiet]
  rw [pushed]
  by_cases mute : x.port.buttons.mute.pressed = true <;> by_cases talk : x.port.buttons.talk.pressed = true
  · simp only [mute, talk, if_true, live, and_self, Bool.true_and, List.nil_append, List.filter_append, whole]
    rfl
  · simp only [mute, talk, if_true, Bool.false_eq_true, and_false, if_false, Bool.true_and, List.nil_append, List.append_nil, whole]
  · simp only [mute, talk, if_true, live, and_self, Bool.false_and, Bool.false_eq_true, if_false, List.nil_append]
    rfl
  · simp only [mute, talk, and_false, Bool.false_and, Bool.false_eq_true, if_false, List.nil_append]
    rfl

/-- The mute flag as the port leaves LIVE (R18, R19). -/
theorem Position.leaveLive_mute {x : Position} (live : x.port.state = .live) : x.leaveLive.mute = (x.mute && !x.mutePushed) := by
  show (x.effect (fun b => (buttonOf x.port.buttons b).pressed) nonePressed).mute = _
  rw [Position.effect_mute]
  unfold Position.mutePushed Position.muteAfter nonePressed
  rw [decide_eq_true live]
  show (if x.port.buttons.mute.pressed = true then _ else _) = _
  cases x.port.buttons.mute.pressed <;> cases x.config.muteMode <;> cases x.mute <;> rfl

theorem Position.leaveLive_frame (x : Position) :
    ∃ port mute ear ns, x.leaveLive = { x with port := port, mute := mute, earVolume := ear, ns := ns } := by
  unfold Position.leaveLive
  dsimp only
  rw [Position.effect_frame]
  exact ⟨_, _, _, _, rfl⟩

/-- A position departs: its port leaves LIVE where it is LIVE, and then the release sequence (R18, R23). -/
theorem State.departs (attach : AttachLaw s) (super : SuperLaw s) (p : PosId) (cause : ReleaseCause) :
    ∃ made, made.filter ReportBody.ofRelease = s.releaseReports p cause ∧
      Released s ((s.leaveLive p).releaseSequence p cause) p ∧ ((s.leaveLive p).releaseSequence p cause).sources = s.sources ∧
      (((s.leaveLive p).releaseSequence p cause).pos p).port = ((s.leaveLive p).pos p).port ∧
      ((s.leaveLive p).releaseSequence p cause).link = s.link.placeReports s.highway.period made := by
  have kept := (CallsKept.refl .none s).leaveLive p
  have attach' := (attachLaw_iff _).2 (kept.attach ((attachLaw_iff s).1 attach))
  have super' := kept.super ((attachLaw_iff s).1 attach) super
  obtain ⟨made, filtered, departed⟩ := State.releaseSequence_departed (p := p) attach' super' cause
  by_cases live : (s.pos p).port.state = .live
  · rw [State.leaveLive_of_live live] at filtered departed ⊢
    obtain ⟨released, port, sources, link⟩ := departed
    generalize (s.reporting p Position.leaveLive ((s.pos p).leaveReports p)).releaseSequence p cause = t at released port sources link ⊢
    have own := s.reporting_pos_same p Position.leaveLive ((s.pos p).leaveReports p)
    have others := fun q => s.reporting_pos_ne (p := p) (q := q) Position.leaveLive ((s.pos p).leaveReports p)
    refine ⟨(s.pos p).leaveReports p ++ made, ?_, ?_, sources, port, ?_⟩
    · obtain ⟨aborted, leg, record, supervisor⟩ := State.departReports_congr (s := s) (p := p)
        (u := s.reporting p Position.leaveLive ((s.pos p).leaveReports p)) cause (fun q => by
        by_cases same : q = p
        · rw [same, own]
          exact (s.pos p).leaveLive_frame
        · exact ⟨_, _, _, _, others q same⟩) rfl rfl
      rw [List.filter_append, filtered, State.releaseReports_eq, Position.leaveReports_filter live]
      unfold State.sequenceReports State.muteReports
      rw [aborted, leg, supervisor, own, Position.leaveLive_mute live]
      simp only [record]
    · refine released.before others ?_ rfl
      rw [own]
      exact (s.pos p).leaveLive_frame
    · rw [link, Link.placeReports_append]
      rfl
  · rw [State.leaveLive_of_not_live live] at filtered departed ⊢
    obtain ⟨released, port, sources, link⟩ := departed
    refine ⟨made, ?_, released, sources, port, link⟩
    have pushed : (s.pos p).mutePushed = false := by
      unfold Position.mutePushed
      rw [decide_eq_false live]
      rfl
    rw [filtered, State.releaseReports_eq, pushed, if_neg nofun, if_neg fun k => live k.1, List.nil_append, List.nil_append]
    unfold State.sequenceReports State.muteReports
    rw [Bool.not_false, Bool.and_true]

/-- A position departs, its port takes its next state, and what follows is reported (R3, R5, R11). -/
theorem State.departs_finished (attach : AttachLaw s) (super : SuperLaw s) (p : PosId) (cause : ReleaseCause) (f : Port → Port)
    (last : List ReportBody) :
    ∃ v made, v = (((s.leaveLive p).releaseSequence p cause).reporting p (fun x => { x with port := f x.port }) last).finish s ∧
      made.filter ReportBody.ofRelease = s.releaseReports p cause ∧ Released s v p ∧ v.sources = s.sources ∧
      (v.pos p).port = f ((s.leaveLive p).pos p).port ∧ v.link = s.link.placeReports s.highway.period (made ++ last) := by
  obtain ⟨made, filtered, released, sources, port, link⟩ := State.departs attach super p cause
  refine ⟨_, made, rfl, filtered, ?_⟩
  generalize (s.leaveLive p).releaseSequence p cause = t at released sources port link ⊢
  have own := t.reporting_pos_same p (fun x => { x with port := f x.port }) last
  have others := fun q => t.reporting_pos_ne (p := p) (q := q) (fun x => { x with port := f x.port }) last
  have period : t.highway = s.highway := by rw [released.rest]
  have frame : t.reporting p (fun x => { x with port := f x.port }) last = { t with
    positions := (t.reporting p (fun x => { x with port := f x.port }) last).positions
    link := t.link.placeReports t.highway.period last } := rfl
  generalize t.reporting p (fun x => { x with port := f x.port }) last = u at own others frame ⊢
  have leg : ∀ l, u.leg l = t.leg l := fun l => by rw [frame]; rfl
  refine ⟨released.after others ⟨_, own⟩ (fun l => ?_) ?_, ?_, ?_, ?_⟩
  · rw [← leg]
    exact u.finish_noticed s l
  · rw [u.finish_frame s, frame]
  · rw [u.finish_frame s, frame]
    exact sources
  · exact (congrArg Position.port own).trans (congrArg f port)
  · rw [u.finish_frame s, frame, Link.placeReports_append, ← link, period]

/-- The same from a block event's sampling: the port's record has moved on, and MIC(p) is a zero block (R5, R11, R13). -/
theorem State.sampled_departs (attach : AttachLaw s) (super : SuperLaw s) (p : PosId) (cause : ReleaseCause) (f : Port → Port)
    (last : List ReportBody) {g : Port → Port} (state : (g (s.pos p).port).state = (s.pos p).port.state)
    (buttons : (g (s.pos p).port).buttons = (s.pos p).port.buttons) {u : State} (e : u = (s.modPort p g).putMic p zeroBlock) :
    ∃ v made, v = (((u.leaveLive p).releaseSequence p cause).reporting p (fun x => { x with port := f x.port }) last).finish u ∧
      made.filter ReportBody.ofRelease = s.releaseReports p cause ∧ Released s v p ∧ tget v.sources.mic p = zeroBlock ∧
      (v.pos p).port = f ((u.leaveLive p).pos p).port ∧ v.link = s.link.placeReports s.highway.period (made ++ last) := by
  subst e
  have kept := ((CallsKept.refl .none s).modPort p g).putMic p zeroBlock
  obtain ⟨v, made, e, filtered, released, sources, port, link⟩ := State.departs_finished
    ((attachLaw_iff _).2 (kept.attach ((attachLaw_iff s).1 attach))) (kept.super ((attachLaw_iff s).1 attach) super) p cause f last
  refine ⟨v, made, e, filtered.trans (State.releaseReports_modPort cause state buttons), ?_, ?_, port, link⟩
  · refine released.before (fun q away => ?_) ?_ rfl
    · rw [State.putMic_pos, State.pos_modPort_ne _ _ _ _ away.symm]
    · rw [State.putMic_pos, State.pos_modPort_same]
      exact ⟨_, _, _, _, rfl⟩
  · rw [sources]
    exact tget_tset_same _ _ _

/-! ### PORT_ENABLE and PORT_DISABLE (R3) -/

theorem State.disablePort_of_other (other : (s.pos p).port.state ≠ .disabled) (there : (s.pos p).port.state ≠ .absent) :
    s.disablePort p = (((s.leaveLive p).releaseSequence p .portDisabled).modPort p Port.enterDisabled).finish s := by
  unfold State.disablePort
  split
  · exact absurd ‹_› other
  · exact absurd ‹_› there
  · rfl

end Sequence

/-- Settles O5: each request by the port's state; a headset's port departs first (`State.departs_finished`). -/
theorem portEnableAndDisable : Obligations.PortEnableAndDisable := by
  refine ⟨fun s p tag ready => ⟨fun state => ?_, fun other => ?_⟩, fun s p tag ready => ⟨fun state => ?_, fun state => ?_, fun other there attach super => ?_⟩⟩
  · rw [exec_portEnable_ready ready]
    unfold ownPortEnable State.enablePort
    rw [withPosition_val, if_pos state]
    rfl
  · rw [exec_portEnable_ready ready]
    unfold ownPortEnable State.enablePort
    rw [withPosition_val, if_neg other]
    rfl
  · rw [exec_portDisable_ready ready]
    unfold ownPortDisable State.disablePort
    rw [withPosition_val, state]
    rfl
  · rw [exec_portDisable_ready ready]
    unfold ownPortDisable State.disablePort
    rw [withPosition_val, state]
    rfl
  · rw [exec_portDisable_ready ready]
    unfold ownPortDisable
    rw [withPosition_val, State.disablePort_of_other other there, State.modPort_eq_reporting]
    obtain ⟨v, made, e, filtered, released, sources, port, link⟩ := State.departs_finished attach super p .portDisabled Port.enterDisabled []
    rw [← e]
    rw [List.append_nil] at link
    refine ⟨v.ok 0x02 tag, made, rfl, ?_, ?_⟩
    · exact released.after (fun _ _ => rfl) ⟨_, rfl⟩ (.refl v) rfl
    · show (v.pos p).port.state = _ ∧ (v.pos p).port.window = _ ∧ (v.pos p).port.insertCount = _ ∧ (v.pos p).port.unplugCount = _ ∧ _ ∧
        v.link.placeReply _ = _ ∧ v.sources = _
      rw [port, link]
      exact ⟨rfl, rfl, rfl, rfl, filtered, rfl, sources⟩

/-! ### UNPLUG and RECOVERY_WINDOW_EXPIRY (R5, R10, R11) -/

/-- A port's record after a block event's sampling and counts (R5, R7, R8, R10). -/
def Port.sampled (x : Port) (presence : Bool) : Port := (x.sampleUnplug presence).countBlock.judgeFrames

theorem Port.judgeFrames_frame (x : Port) : ∃ noFrames interval previous, x.judgeFrames = { x with
    noFrames := noFrames, interval := interval, previous := previous, frameSeen := false } := by
  unfold Port.judgeFrames
  dsimp only
  split <;> exact ⟨_, _, _, rfl⟩

theorem Port.sampled_frame (x : Port) (presence : Bool) : ∃ noFrames interval previous qualCount, x.sampled presence = { x with
    presence := presence, unplugCount := if presence then 0 else x.unplugCount + 1, window := x.window.map (· + 1), qualCount := qualCount
    noFrames := noFrames, interval := interval, previous := previous, frameSeen := false } := by
  obtain ⟨noFrames, interval, previous, e⟩ := (x.sampleUnplug presence).countBlock.judgeFrames_frame
  exact ⟨noFrames, interval, previous, _, e⟩

section Events
variable {s : State} {p : PosId}

/-- A block event in LOST, ACQUIRING or QUALIFYING: its sampling and counts, and then its transitions. -/
theorem State.portBlock_between (order : EventOrder) (presence : Bool)
    (between : (s.pos p).port.state = .lost ∨ (s.pos p).port.state = .acquiring ∨ (s.pos p).port.state = .qualifying) :
    s.portBlock order p presence = ((s.modPort p fun x => x.sampled presence).putMic p zeroBlock).transitions p order := by
  unfold State.portBlock
  rcases between with state | state | state <;> rw [state] <;> rfl

/-- A port that the unplug has taken to ABSENT has nothing more to do at the event. -/
theorem State.transitions_unplugged {t : State} (due : s.unplugDue p = true) (e : s.takeUnplug p = t) (state : (t.pos p).port.state = .absent)
    (window : (t.pos p).port.window = none) : s.transitions p .unplugFirst = t := by
  show ((s.unplugIfDue p).expiryIfDue p).liveIfDue p = t
  have goes : s.unplugIfDue p = t := (if_pos due).trans e
  rw [goes, State.expiryIfDue_of_none window, State.liveIfDue_of_other (by rw [state]; nofun)]

theorem State.unplugDue_of_count (count : 2 ≤ (s.pos p).port.unplugCount) (absent : (s.pos p).port.state ≠ .absent)
    (disabled : (s.pos p).port.state ≠ .disabled) : s.unplugDue p = true := by
  unfold State.unplugDue
  rw [decide_eq_true (show Config.unplugBlocks ≤ _ from count), decide_eq_true absent, decide_eq_true disabled]
  rfl

/-- The unplug of a port whose headset's calls end with it: the departure, ABSENT and HEADSET_REMOVED (R5). -/
theorem State.takeUnplug_runs (runs : (s.pos p).port.state = .live ∨ (s.pos p).port.state = .lost
      ∨ (((s.pos p).port.state = .acquiring ∨ (s.pos p).port.state = .qualifying) ∧ (s.pos p).port.window.isSome = true)) :
    s.takeUnplug p = (((s.leaveLive p).releaseSequence p .unplug).reporting p (fun x => { x with port := x.port.enterAbsent })
      [.headsetRemoved p]).finish s := by
  unfold State.takeUnplug
  dsimp only
  rw [if_pos runs, State.modPort_eq_reporting, State.report_eq_reporting _ p, State.reporting_reporting]
  rfl

/-- The unplug during a first acquisition: ABSENT and HEADSET_REMOVED alone (R5). -/
theorem State.takeUnplug_plain (between : (s.pos p).port.state = .acquiring ∨ (s.pos p).port.state = .qualifying)
    (window : (s.pos p).port.window = none) :
    s.takeUnplug p = ((s.modPort p Port.enterAbsent).report (.headsetRemoved p)).rederiveAll := by
  unfold State.takeUnplug
  dsimp only
  have live : (s.pos p).port.state ≠ .live := fun k => by rcases between with e | e <;> exact nomatch k.symm.trans e
  have lost : (s.pos p).port.state ≠ .lost := fun k => by rcases between with e | e <;> exact nomatch k.symm.trans e
  have runs : ¬ ((s.pos p).port.state = .live ∨ (s.pos p).port.state = .lost
      ∨ (((s.pos p).port.state = .acquiring ∨ (s.pos p).port.state = .qualifying) ∧ (s.pos p).port.window.isSome = true)) := by
    rw [window]
    exact fun k => k.elim live fun k => k.elim lost fun k => nomatch k.2
  rw [if_neg runs, State.leaveLive_of_not_live live]
  exact State.finish_of_records (s := (s.modPort p Port.enterAbsent).report (.headsetRemoved p)) (before := s) rfl rfl rfl

end Events

/-- Settles O13: at the second sampling the unplug is due; the port's headset departs (`State.sampled_departs`), or goes alone. -/
theorem unplug : Obligations.Unplug := by
  intro s p count
  have watched : ∀ x, (s.pos p).port.state = x → x ≠ .absent → x ≠ .disabled → exec (.unplug p) s = .next (s.portBlock .unplugFirst p false) :=
    fun x state absent disabled => congrArg Host.Outcome.next (if_pos ⟨by
      unfold Port.watched
      rw [state, decide_eq_true absent, decide_eq_true disabled]
      rfl, show 2 ≤ _ from count.ge⟩)
  have two : 2 ≤ (s.pos p).port.unplugCount + 1 := count.ge
  refine ⟨fun runs attach super => ?_, fun between window => ?_⟩
  · have goes : ∃ (g : Port → Port) (u : State), u = (s.modPort p g).putMic p zeroBlock ∧ (g (s.pos p).port).state = (s.pos p).port.state ∧
        (g (s.pos p).port).buttons = (s.pos p).port.buttons ∧
        ((s.pos p).port.window ≠ none → (g (s.pos p).port).window.isSome = true) ∧ ∀ t, u.takeUnplug p = t → (t.pos p).port.state = .absent → (t.pos p).port.window = none → s.portBlock .unplugFirst p false = t := by
      by_cases live : (s.pos p).port.state = .live
      · refine ⟨fun x => (x.sampleUnplug false).judgeFrames, _, rfl, ?_⟩
        obtain ⟨noFrames, interval, previous, e⟩ := ((s.pos p).port.sampleUnplug false).judgeFrames_frame
        dsimp only
        have due : (s.modPort p fun x => (x.sampleUnplug false).judgeFrames).unplugDue p = true := by
          refine State.unplugDue_of_count ?_ ?_ ?_ <;> rw [State.pos_modPort_same] <;> dsimp only <;> rw [e]
          · exact two
          · exact fun k => nomatch live.symm.trans k
          · exact fun k => nomatch live.symm.trans k
        rw [e]
        refine ⟨rfl, rfl, Option.isSome_iff_ne_none.2, fun t goes _ _ => ?_⟩
        unfold State.portBlock
        rw [live]
        dsimp only
        rw [if_pos due]
        exact goes
      · have between : (s.pos p).port.state = .lost ∨ (s.pos p).port.state = .acquiring ∨ (s.pos p).port.state = .qualifying := by
          rcases runs with k | k | ⟨k, _⟩
          · exact absurd k live
          · exact .inl k
          · exact .inr k
        refine ⟨fun x => x.sampled false, _, rfl, ?_⟩
        have here : (((s.modPort p fun x => x.sampled false).putMic p zeroBlock).pos p).port = (s.pos p).port.sampled false := by
          rw [State.putMic_pos, State.pos_modPort_same]
        obtain ⟨noFrames, interval, previous, qualCount, e⟩ := (s.pos p).port.sampled_frame false
        dsimp only
        rw [e] at here ⊢
        refine ⟨rfl, rfl, fun k => ?_, fun t goes state window => ?_⟩
        · rw [Option.isSome_map]
          exact Option.isSome_iff_ne_none.2 k
        · rw [State.portBlock_between _ _ between]
          refine State.transitions_unplugged (State.unplugDue_of_count ?_ ?_ ?_) goes state window <;> rw [here]
          · exact two
          · exact fun k => by rcases between with e | e | e <;> exact nomatch k.symm.trans e
          · exact fun k => by rcases between with e | e | e <;> exact nomatch k.symm.trans e
    obtain ⟨g, u, e, state, buttons, window, block⟩ := goes
    have here : (u.pos p).port = g (s.pos p).port := by
      rw [e, State.putMic_pos, State.pos_modPort_same]
    obtain ⟨v, made, e', filtered, released, mic, port, link⟩ := State.sampled_departs attach super p .unplug Port.enterAbsent [.headsetRemoved p]
      state buttons e
    have taken : u.takeUnplug p = v := by
      rw [e']
      refine State.takeUnplug_runs ?_
      rw [here, state]
      exact runs.imp_right fun k => k.imp_right fun ⟨k, k'⟩ => ⟨k, window k'⟩
    have whole := block v taken (by rw [port]; rfl) (by rw [port]; rfl)
    refine ⟨v, made, ?_, congrArg Host.Outcome.next whole, released, ?_⟩
    · rw [watched _ rfl (fun k => ?_) fun k => ?_, whole]
      · rcases runs with e | e | ⟨e | e, _⟩ <;> exact nomatch k.symm.trans e
      · rcases runs with e | e | ⟨e | e, _⟩ <;> exact nomatch k.symm.trans e
    · rw [port]
      exact ⟨rfl, rfl, rfl, rfl, mic, filtered, link⟩
  · have goes : s.portBlock .unplugFirst p false = ((((s.modPort p fun x => x.sampled false).putMic p zeroBlock).modPort p Port.enterAbsent).report
        (.headsetRemoved p)).rederiveAll := by
      rw [State.portBlock_between _ _ (.inr between)]
      obtain ⟨noFrames, interval, previous, qualCount, e⟩ := (s.pos p).port.sampled_frame false
      have here : (((s.modPort p fun x => x.sampled false).putMic p zeroBlock).pos p).port = (s.pos p).port.sampled false := by
        rw [State.putMic_pos, State.pos_modPort_same]
      rw [e] at here
      refine State.transitions_unplugged (State.unplugDue_of_count ?_ ?_ ?_) (State.takeUnplug_plain ?_ ?_) ?_ ?_
      · rw [here]
        exact two
      · rw [here]
        exact fun k => by rcases between with e | e <;> exact nomatch k.symm.trans e
      · rw [here]
        exact fun k => by rcases between with e | e <;> exact nomatch k.symm.trans e
      · rw [here]
        exact between
      · rw [here, window]
        rfl
      · rw [State.rederiveAll_pos, State.report_pos, State.pos_modPort_same]
        rfl
      · rw [State.rederiveAll_pos, State.report_pos, State.pos_modPort_same]
        rfl
    have event : exec (.unplug p) s = .next (s.portBlock .unplugFirst p false) :=
      watched _ rfl (fun k => by rcases between with e | e <;> exact nomatch k.symm.trans e)
        fun k => by rcases between with e | e <;> exact nomatch k.symm.trans e
    have own : (s.portBlock .unplugFirst p false).pos p = { s.pos p with port := ((s.pos p).port.sampled false).enterAbsent } := by
      rw [goes, State.rederiveAll_pos, State.report_pos, State.pos_modPort_same, State.putMic_pos, State.pos_modPort_same]
    refine ⟨_, event, rfl, fun q away => ?_, ?_⟩
    · rw [goes, State.rederiveAll_pos, State.report_pos, State.pos_modPort_ne _ _ _ _ away.symm, State.putMic_pos,
        State.pos_modPort_ne _ _ _ _ away.symm]
    · rw [own]
      refine ⟨rfl, rfl, rfl, rfl, rfl, rfl, rfl, ?_, ?_⟩ <;> rw [goes] <;> rfl

/-- The end of an event compares with the legs, the plans and the engines before it alone (R153). -/
theorem State.finish_congr (s : State) {a b : State} (legs : a.legs = b.legs) (plans : a.plans = b.plans) (engines : a.engines = b.engines) :
    s.finish a = s.finish b := by
  have music : a.musicSource = b.musicSource := funext (State.musicSource_congr legs plans engines)
  have session : a.hasSession = b.hasSession := funext fun l => by
    unfold State.hasSession State.leg
    rw [legs]
  unfold State.finish State.noticeMusic
  rw [music, session]

/-- Settles O15: the window's count reaches R, and the departure comes before the new acquisition (`State.sampled_departs`). -/
theorem recoveryWindowExpiry : Obligations.RecoveryWindowExpiry := by
  intro s p c window due between attach super
  obtain ⟨noFrames, interval, previous, qualCount, e⟩ := (s.pos p).port.sampled_frame true
  have here : (((s.modPort p fun x => x.sampled true).putMic p zeroBlock).pos p).port = (s.pos p).port.sampled true := by
    rw [State.putMic_pos, State.pos_modPort_same]
  obtain ⟨v, made, e', filtered, released, mic, port, link⟩ := State.sampled_departs (g := fun x => { x.sampled true with window := none })
    attach super p .linkLost Port.acquire [.portRecoveryExpired p] (by dsimp only; rw [e]) (by dsimp only; rw [e]) rfl
  rw [e] at here
  have ended : (s.modPort p fun x => { x.sampled true with window := none }).putMic p zeroBlock
      = ((s.modPort p fun x => x.sampled true).putMic p zeroBlock).modPort p fun x => { x with window := none } := by
    show _ = ((s.modPort p fun x => x.sampled true).modPort p fun x => { x with window := none }).putMic p zeroBlock
    rw [State.modPort_modPort]
  rw [ended] at e' port
  have block := s.portBlock_between (p := p) .expiryFirst true between
  have event : exec (.recoveryWindowExpiry p true) s = .next (s.portBlock .expiryFirst p true) := by
    show execRecoveryWindowExpiry p true s = _
    unfold execRecoveryWindowExpiry
    rw [window]
    exact congrArg Host.Outcome.next (if_pos due)
  have config : (((s.modPort p fun x => x.sampled true).putMic p zeroBlock).pos p).config = (s.pos p).config := by
    rw [State.putMic_pos, State.pos_modPort_same]
  generalize (s.modPort p fun x => x.sampled true).putMic p zeroBlock = u at here e' port block config
  have notLive : ((u.modPort p fun x => { x with window := none }).pos p).port.state ≠ .live := by
    rw [State.pos_modPort_same]
    dsimp only
    rw [here]
    exact fun k => by rcases between with e | e | e <;> exact nomatch k.symm.trans e
  rw [State.leaveLive_of_not_live notLive] at e' port
  have expired : u.takeExpiry p = v := by
    rw [e', State.finish_congr _ (a := u.modPort p fun x => { x with window := none }) (b := u) rfl rfl rfl]
    unfold State.takeExpiry
    dsimp only
    rw [State.modPort_eq_reporting _ _ Port.acquire, State.report_eq_reporting _ p, State.reporting_reporting]
    rfl
  rw [State.pos_modPort_same] at port
  dsimp only at port
  rw [here] at port
  have whole : s.portBlock .expiryFirst p true = v := by
    rw [block]
    show ((u.expiryIfDue p).unplugIfDue p).liveIfDue p = v
    have goes : u.expiryIfDue p = v := by
      refine (if_pos ?_).trans expired
      unfold State.expiryDue
      rw [here, window]
      exact decide_eq_true (by rw [config]; exact due)
    rw [goes, State.unplugIfDue_of_present (by rw [port]; rfl), State.liveIfDue_of_other (by rw [port]; nofun)]
  refine ⟨v, made, by rw [event, whole], released, ?_⟩
  rw [port]
  exact ⟨rfl, rfl, rfl, rfl, rfl, filtered, link⟩

end Sys2Proof.Machine
end

section
set_option Elab.async false
/-! ## The clip store's requests, the release of the memory and its reclaim (O34, O35, O37, O39) -/

namespace Sys2Proof.Machine

section Port
variable {s : State}

/-! ### What the port does when it settles (R130, R131, R133) -/

/-- A port with an operation in progress starts nothing: an erase alone steps aside, and only for a fetch. -/
theorem State.settlePort_busy {o : MemOp} (op : s.memory.op = some o) (stays : s.memory.fetches = [] ∨ ∀ slab, o ≠ .erase slab) :
    s.settlePort = s := by
  have kept : s.suspendErase = s := by
    rcases stays with none_ | other
    · exact State.suspendErase_of_noFetch none_
    · unfold State.suspendErase
      rw [op]
      split
      · rename_i slab e
        exact absurd (Option.some.inj e) (other slab)
      · rfl
  have under : s.memory.op ≠ none := by rw [op]; exact Option.some_ne_none o
  unfold State.settlePort
  rw [kept]
  split
  · exact if_neg under
  · exact if_neg under
  · rfl
  · rfl

/-- An owned port with nothing in progress and nothing queued goes on to the write's next erase, or to its next program. -/
theorem State.settlePort_idle (port : s.memory = ⟨.owned, none, none, [], []⟩) :
    s.settlePort = s.nextErase.elim
      (s.readyProgram.elim s fun x => { s with memory := { s.memory with op := some (.program x.1 x.2.1 x.2.2 true) } })
      fun slab => { s with memory := { s.memory with op := some (.erase slab) } } := by
  have fetch : s.nextFetch = none := by
    unfold State.nextFetch
    rw [port]
    rfl
  unfold State.settlePort
  rw [State.suspendErase_of_noFetch (by rw [port]), port]
  dsimp only
  unfold State.chooseOp
  rw [fetch, port]
  dsimp only
  cases s.nextErase with
  | some slab => rfl
  | none =>
    cases s.readyProgram with
    | none => rfl
    | some x => rfl

/-- A program is ready when its samples are there and its slab is erased (R125). -/
theorem State.readyProgram_of {c : ClipId} {slab : Nat} (clip : s.write.clip = some c)
    (here : (s.clip c).slabs[s.write.programmed / 32768]? = some slab) (positive : 0 < min 64 ((s.clip c).length - s.write.programmed))
    (waits : min 64 ((s.clip c).length - s.write.programmed) ≤ s.write.waiting.length) (erased : s.write.programmed / 32768 < s.write.erased) :
    s.readyProgram = some (slab, s.write.programmed % 32768, s.write.waiting.take (min 64 ((s.clip c).length - s.write.programmed))) := by
  have there : (s.clip c).slabs[s.write.programmed / Config.slabSamples]? = some slab := here
  unfold State.readyProgram
  rw [clip]
  dsimp only
  rw [there]
  exact if_pos ⟨positive, waits, erased⟩

/-- Without a write the idle port stays idle. -/
theorem State.settlePort_quiet (port : s.memory = ⟨.owned, none, none, [], []⟩) (clip : s.write.clip = none) : s.settlePort = s := by
  have erase : s.nextErase = none := by
    unfold State.nextErase
    rw [clip]
  have program : s.readyProgram = none := by
    unfold State.readyProgram
    rw [clip]
  rw [State.settlePort_idle port, erase, program]
  rfl

/-- An owned port keeps the memory, whatever it chooses. -/
theorem State.settlePort_owned (owned : s.memory.mode = .owned) : ∃ m, s.settlePort = { s with memory := m } := by
  rcases s.settlePort_cases with ⟨m, e, _⟩ | ⟨mode, _⟩
  · exact ⟨m, e⟩
  · exact nomatch owned.symm.trans mode

/-- A RELEASING port with nothing left releases the lines (R133). -/
theorem State.settlePort_releases (mode : s.memory.mode = .releasing) (op : s.memory.op = none) (updates : s.memory.updates = []) :
    s.settlePort = { s with memory := { s.memory with mode := .released } }.report .memoryReleased := by
  unfold State.settlePort
  rw [mode]
  dsimp only
  rw [if_pos op, updates]

/-! ### Queued directory updates (R132) -/

theorem UpdateQueued.of_same {t : State} {c : ClipId} (h : UpdateQueued s c) (updates : ∀ d ∈ s.memory.updates, d ∈ t.memory.updates)
    (op : s.memory.op = t.memory.op) (clip : t.clip c = s.clip c) : UpdateQueued t c :=
  h.imp (updates c) fun k => by rw [← op, clip]; exact k

/-- The port's choice takes an update with the clip's record as it is. -/
theorem UpdateQueued.settlePort {c : ClipId} (h : UpdateQueued s c) : UpdateQueued s.settlePort c := by
  rcases h with queued | begun
  · have choose : ∀ u : State, c ∈ u.memory.updates → UpdateQueued u.chooseOp c := fun u queued => by
      unfold State.chooseOp
      split
      · exact .inl queued
      · split
        · exact .inl queued
        · split
          · rename_i d rest e
            rw [e] at queued
            rcases List.mem_cons.1 queued with own | later
            · subst own
              exact .inr rfl
            · exact .inl later
          · rename_i e
            rw [e] at queued
            exact absurd queued List.not_mem_nil
    have aside : c ∈ s.suspendErase.memory.updates := by
      unfold State.suspendErase
      split
      · split <;> exact queued
      · exact queued
    unfold State.settlePort
    split
    · dsimp only
      split
      · exact choose _ aside
      · exact .inl aside
    · split
      · split
        · rename_i d rest e
          rw [e] at queued
          rcases List.mem_cons.1 queued with own | later
          · subst own
            exact .inr rfl
          · exact .inl later
        · rename_i e
          rw [e] at queued
          exact absurd queued List.not_mem_nil
      · exact .inl queued
    · exact .inl queued
    · exact .inl queued
  · rw [State.settlePort_busy begun (.inr nofun)]
    exact .inr begun

theorem State.queueUpdate_queued (s : State) (c : ClipId) : UpdateQueued (s.queueUpdate c) c := by
  unfold State.queueUpdate
  split
  · exact .inl ‹_›
  · exact UpdateQueued.settlePort (.inl (List.mem_append_right _ (List.mem_singleton.2 rfl)))

/-- With the memory owned a queued update changes the port's record alone. -/
theorem State.queueUpdate_owned (owned : s.memory.mode = .owned) (c : ClipId) : ∃ m, s.queueUpdate c = { s with memory := m } := by
  unfold State.queueUpdate
  split
  · exact ⟨_, rfl⟩
  · obtain ⟨m, e⟩ := State.settlePort_owned (s := { s with memory := { s.memory with updates := s.memory.updates ++ [c] } }) owned
    exact ⟨m, e⟩

end Port

/-! ### CLIP_CREATE (R123) -/

theorem goodShape_iff (length : Nat) (loopStart : Option Nat) :
    goodShape length loopStart = true ↔ 1 ≤ length ∧ length ≤ 2097152 ∧ ∀ y, loopStart = some y → y < length := by
  unfold goodShape
  cases loopStart with
  | none => simp [show Config.maxClip = 2097152 from rfl]
  | some y => simp [show Config.maxClip = 2097152 from rfl, and_assoc]

theorem slabsFor_eq (n : Nat) : slabsFor n = (n + 32767) / 32768 := rfl

theorem slabsFor_bounds {n : Nat} (h : 1 ≤ n) : (slabsFor n - 1) * 32768 < n ∧ n ≤ slabsFor n * 32768 := by
  have bounds : ((n + 32767) / 32768 - 1) * 32768 < n ∧ n ≤ (n + 32767) / 32768 * 32768 := ⟨by omega, by omega⟩
  simpa only [slabsFor_eq] using bounds

/-- A clip created on an idle port: its first slab's erase begins (R123, R130). -/
theorem State.createClip_idle {s : State} {c : ClipId} {n : Nat} {x : Option Nat} (port : s.memory = ⟨.owned, none, none, [], []⟩)
    (some_ : 1 ≤ slabsFor n) (room : slabsFor n ≤ s.freeSlabs.length) : s.createClip c n x = { s with
      freeSlabs := s.freeSlabs.drop (slabsFor n)
      write := ⟨some c, 0, 0, 0, 0, [], none⟩
      clips := tset s.clips c ⟨.writing, n, x, s.freeSlabs.take (slabsFor n), 0, 0⟩
      memory := { s.memory with op := s.freeSlabs.head?.map .erase } } := by
  unfold State.createClip
  dsimp only
  generalize slabsFor n = k at some_ room
  have first : ∃ slab, s.freeSlabs.head? = some slab ∧ (s.freeSlabs.take k)[0]? = some slab := by
    cases e : s.freeSlabs with
    | nil =>
      rw [e] at room
      exact absurd (some_.trans room) (by simp)
    | cons slab rest =>
      obtain ⟨j, rfl⟩ : ∃ j, k = j + 1 := ⟨k - 1, by omega⟩
      exact ⟨slab, rfl, rfl⟩
  obtain ⟨slab, head, taken⟩ := first
  rw [State.settlePort_idle (by exact port), head]
  have erase : State.nextErase (({ s with freeSlabs := s.freeSlabs.drop k, write := { WriteContext.empty with clip := some c } } : State).modClip c
      fun _ => { state := .writing, length := n, loopStart := x, slabs := s.freeSlabs.take k, sum := 0, useCount := 0 }) = some slab := by
    unfold State.nextErase
    show ((State.modClip _ c _).clip c).slabs[0]? = _
    rw [State.clip_modClip_same]
    exact taken
  rw [erase]
  rfl

/-- Settles O34: the checks in their order, and the clip created on an idle port (`State.createClip_idle`). -/
theorem clipCreate : Obligations.ClipCreate := by
  intro s c tag n x ready
  have own : s.memory.mode = .owned → ownClipCreate ⟨c.val, n, x⟩ s = if s.write.clip ≠ none then refuse s .busy
      else if (s.clip c).state ≠ .empty then refuse s .inUse
      else if goodShape n x = false then refuse s .range
      else if s.freeSlabs.length < slabsFor n then refuse s .noResource
      else accept (s.createClip c n x) := fun owned => withClip_val owned c _
  refine ⟨fun k beyond => ?_, fun busy => ?_, fun owned free => ⟨fun used => ?_, fun empty bad => ?_, fun empty low high loop => ⟨fun full => ?_, fun room port => ?_⟩⟩⟩
  all_goals rw [exec_clipCreate_ready ready]
  · exact congrArg (fun h : Handled => Host.Outcome.next (h.replied 0x30 tag)) (withClip_beyond beyond s _)
  · by_cases owned : s.memory.mode = .owned
    · rw [own owned, if_pos (busy.resolve_left fun k => k owned)]
      rfl
    · exact congrArg (fun h : Handled => Host.Outcome.next (h.replied 0x30 tag)) (withClip_away owned c _)
  · rw [own owned, if_neg (not_not.2 free), if_pos used]
    rfl
  · have shape : goodShape n x = false := by
      refine Bool.eq_false_iff.2 fun k => ?_
      obtain ⟨low, high, loop⟩ := (goodShape_iff n x).1 k
      obtain h | h | ⟨y, e, h⟩ := bad
      · omega
      · omega
      · exact absurd (loop y e) (not_lt.2 h)
    rw [own owned, if_neg (not_not.2 free), if_neg (not_not.2 empty), if_pos shape]
    rfl
  · have shape : ¬ goodShape n x = false := by rw [(goodShape_iff n x).2 ⟨low, high, loop⟩]; nofun
    have lacks : s.freeSlabs.length < slabsFor n := by rw [slabsFor_eq]; omega
    rw [own owned, if_neg (not_not.2 free), if_neg (not_not.2 empty), if_neg shape, if_pos lacks]
    rfl
  · have shape : ¬ goodShape n x = false := by rw [(goodShape_iff n x).2 ⟨low, high, loop⟩]; nofun
    have fits : slabsFor n ≤ s.freeSlabs.length := by rw [slabsFor_eq]; omega
    rw [own owned, if_neg (not_not.2 free), if_neg (not_not.2 empty), if_neg shape, if_neg (not_lt.2 fits),
      State.createClip_idle port (by rw [slabsFor_eq]; omega) fits]
    obtain ⟨least, enough⟩ := slabsFor_bounds low
    generalize slabsFor n = k at least enough
    exact ⟨k, least, enough, rfl⟩

/-! ### CLIP_DATA (R124, R125) -/

/-- Settles O35: the checks in their order; the message joins the buffer, and the port settles (`State.settlePort_idle`). -/
theorem clipData : Obligations.ClipData := by
  intro s c tag at' data ready
  have own : s.memory.mode = .owned → ownClipData ⟨c.val, at', data⟩ s = if (s.clip c).state ≠ .writing then refuse s .busy
      else if data = [] ∨ Config.dataSamples < data.length then refuse s .length
      else if at' ≠ s.write.expected then refuse s .sequence
      else if (s.clip c).length < at' + data.length then refuse s .range
      else if Config.writeMessages ≤ s.write.buffer.length then refuse s .busy
      else accept (s.acceptData data) := fun owned => withClip_val owned c _
  refine ⟨fun busy => ?_, fun owned writing => ⟨fun bad => ?_, fun some_ short => ⟨fun place => ?_, fun place long => ?_, fun place fits full => ?_,
    fun place fits room => ?_⟩⟩⟩
  all_goals rw [exec_clipData_ready ready]
  · by_cases owned : s.memory.mode = .owned
    · rw [own owned, if_pos (busy.resolve_left fun k => k owned)]
      rfl
    · exact congrArg (fun h : Handled => Host.Outcome.next (h.replied 0x31 tag)) (withClip_away owned c _)
  · rw [own owned, if_neg (not_not.2 writing), if_pos (show data = [] ∨ Config.dataSamples < data.length from bad)]
    rfl
  · rw [own owned, if_neg (not_not.2 writing), if_neg (show ¬ (data = [] ∨ Config.dataSamples < data.length) from fun k => k.elim some_ (not_lt.2 short)),
      if_pos place]
    rfl
  · rw [own owned, if_neg (not_not.2 writing), if_neg (show ¬ (data = [] ∨ Config.dataSamples < data.length) from fun k => k.elim some_ (not_lt.2 short)),
      if_neg (not_not.2 place), if_pos long]
    rfl
  · rw [own owned, if_neg (not_not.2 writing), if_neg (show ¬ (data = [] ∨ Config.dataSamples < data.length) from fun k => k.elim some_ (not_lt.2 short)),
      if_neg (not_not.2 place), if_neg (not_lt.2 fits), if_pos (show Config.writeMessages ≤ s.write.buffer.length from full)]
    rfl
  · rw [own owned, if_neg (not_not.2 writing), if_neg (show ¬ (data = [] ∨ Config.dataSamples < data.length) from fun k => k.elim some_ (not_lt.2 short)),
      if_neg (not_not.2 place), if_neg (not_lt.2 fits), if_neg (show ¬ Config.writeMessages ≤ s.write.buffer.length from not_le.2 room)]
    unfold State.acceptData
    rw [← place]
    obtain ⟨m, e⟩ := State.settlePort_owned
      (s := { s with write := { s.write with buffer := s.write.buffer ++ [data], expected := at' + data.length } }) owned
    have busy : (∃ slab offset block stands, s.memory.op = some (.program slab offset block stands)) → m = s.memory := by
      rintro ⟨slab, offset, block, stands, op⟩
      have same := State.settlePort_busy
        (s := { s with write := { s.write with buffer := s.write.buffer ++ [data], expected := at' + data.length } }) op (.inr nofun)
      exact congrArg State.memory (e.symm.trans same)
    refine ⟨_, rfl, ?_⟩
    rw [e]
    refine ⟨rfl, rfl, rfl, busy, fun slab port holds empty done erased last here size => ?_⟩
    show m = _
    have next : State.nextErase { s with write := { s.write with buffer := s.write.buffer ++ [data], expected := at' + data.length } } = none := by
      unfold State.nextErase
      rw [show State.write { s with write := { s.write with buffer := s.write.buffer ++ [data], expected := at' + data.length } }
        = { s.write with buffer := s.write.buffer ++ [data], expected := at' + data.length } from rfl]
      dsimp only
      rw [holds]
      exact last
    have waiting : WriteContext.waiting { s.write with buffer := s.write.buffer ++ [data], expected := at' + data.length } = data := by
      unfold WriteContext.waiting
      dsimp only
      rw [empty, done]
      simp
    have program : State.readyProgram { s with write := { s.write with buffer := s.write.buffer ++ [data], expected := at' + data.length } }
        = some (slab, at' % 32768, data.take (min 64 ((s.clip c).length - at'))) := by
      have positive : 0 < min 64 ((s.clip c).length - at') := by
        have := List.length_pos_of_ne_nil some_
        omega
      have found := State.readyProgram_of
        (s := { s with write := { s.write with buffer := s.write.buffer ++ [data], expected := at' + data.length } }) (c := c) (slab := slab)
        holds (by exact done ▸ here) (by exact done ▸ positive) (by rw [waiting]; exact done ▸ size) (by exact done ▸ erased)
      rw [waiting] at found
      exact found.trans (by exact done ▸ rfl)
    have settled := e.symm.trans (State.settlePort_idle port)
    rw [next, program] at settled
    refine (congrArg State.memory settled).trans ?_
    show ({ s.memory with op := _ } : MemoryPort) = _
    rw [port]

end Sys2Proof.Machine
end

section
set_option Elab.async false
/-! ## CLIP_DELETE, MEMORY_RELEASE and MEMORY_RECLAIM (O37, O39) -/

namespace Sys2Proof.Machine

section Abandon
variable {s : State} {c : ClipId}

/-! ### A write abandoned (R128) -/

/-- What an abandonment leaves of the store and the write context (R128). -/
def State.abandoned (s : State) (c : ClipId) : State :=
  { s with
    clips := tset s.clips c ⟨.empty, 0, none, [], 0, 0⟩, freeSlabs := returnNumbers (s.clip c).slabs s.freeSlabs
    write := ⟨none, 0, 0, 0, 0, [], none⟩ }

theorem State.abandonWrite_of {u : State} (clip : s.write.clip = some c) (erase : s.abandonErase = u) : s.abandonWrite = { u.emptyClip c with
    write := .empty, memory := { s.memory with op := s.memory.op.bind MemOp.abandon, suspended := none } } := by
  unfold State.abandonWrite
  rw [clip, erase]

theorem State.emptyClip_flash (s : State) (c : ClipId) (m : List Host.Cell) (n : Nat) :
    ({ s with flash := m, unfinishedOps := n } : State).emptyClip c = { s.emptyClip c with flash := m, unfinishedOps := n } := rfl

theorem State.abandonWrite_none (clip : s.write.clip = none) : s.abandonWrite = s := by
  unfold State.abandonWrite
  rw [clip]

/-- An abandonment that finds no erase of its own. -/
theorem State.abandonWrite_plain (clip : s.write.clip = some c) (erase : s.memory.erasing = none) :
    s.abandonWrite = { s.abandoned c with memory := { s.memory with op := s.memory.op.bind MemOp.abandon, suspended := none } } := by
  have same : s.abandonErase = s := by
    unfold State.abandonErase
    rw [erase]
  unfold State.abandonWrite
  rw [clip, same]
  rfl

theorem State.leaveUnfinished_partly (law : FlashLaw s) (slab : Nat) :
    PartlyErased s.flash (s.leaveUnfinished (slabAddresses slab)).flash slab s.unfinishedOps := by
  have read := fun a => s.leaveUnfinished_read (slabAddresses slab) a law
  have wf := s.leaveUnfinished_wf (slabAddresses slab) law
  have mem := mem_slabAddresses slab
  generalize slabAddresses slab = places at read wf mem ⊢
  refine ⟨wf, fun a low high => ?_, fun a out => ?_⟩
  · rw [read, if_pos ((mem a).2 ⟨low, high⟩)]
  · rw [read, if_neg fun k => by
      obtain ⟨low, high⟩ := (mem a).1 k
      omega]

theorem State.leaveUnfinished_frame (s : State) (places : List Nat) :
    s.leaveUnfinished places = { s with flash := (s.leaveUnfinished places).flash, unfinishedOps := s.unfinishedOps + 1 } := rfl

/-- An abandonment that drops an erase: its slab is left partly erased (log 41). -/
theorem State.abandonWrite_erase (law : FlashLaw s) (clip : s.write.clip = some c) {slab : Nat} (erase : s.memory.erasing = some slab) :
    ∃ m, PartlyErased s.flash m slab s.unfinishedOps ∧ s.abandonWrite = { s.abandoned c with
      flash := m, unfinishedOps := s.unfinishedOps + 1
      memory := { s.memory with op := s.memory.op.bind MemOp.abandon, suspended := none } } := by
  have partly := State.leaveUnfinished_partly law slab
  have left : s.abandonErase = s.leaveUnfinished (slabAddresses slab) := by
    unfold State.abandonErase
    rw [erase]
  rw [State.leaveUnfinished_frame] at left
  generalize (s.leaveUnfinished (slabAddresses slab)).flash = m at left partly
  refine ⟨m, partly, ?_⟩
  have whole := State.abandonWrite_of clip left
  rw [State.emptyClip_flash] at whole
  exact whole

end Abandon

/-- Settles O37: the entry's state decides; a WRITING one is abandoned by what the port has in progress (`State.abandonWrite_erase`). -/
theorem clipDelete : Obligations.ClipDelete := by
  intro s c tag ready
  refine ⟨fun away => ?_, fun owned => ?_⟩
  · rw [exec_clipDelete_ready ready]
    exact congrArg (fun h : Handled => Host.Outcome.next (h.replied 0x33 tag)) (withClip_away away c _)
  have own : exec (.clipDelete tag (.fields c.val)) s = .next ((s.deleteClip c).ok 0x33 tag) := by
    rw [exec_clipDelete_ready ready]
    exact congrArg (fun h : Handled => Host.Outcome.next (h.replied 0x33 tag)) (withClip_val owned c _)
  have emptied : s.deleteClip c = (s.emptyClip c).queueUpdate c → ∃ t, exec (.clipDelete tag (.fields c.val)) s = .next t ∧
      t.clip c = ⟨.empty, 0, none, [], 0, 0⟩ ∧ t.freeSlabs = returnNumbers (s.clip c).slabs s.freeSlabs ∧ UpdateQueued t c ∧
      (∀ d, d ≠ c → t.clip d = s.clip d) ∧ t.link = (s.ok 0x33 tag).link ∧
      t = { s with clips := t.clips, freeSlabs := t.freeSlabs, memory := t.memory, link := t.link } := fun e => by
    have queued := (s.emptyClip c).queueUpdate_queued c
    obtain ⟨m, e'⟩ := State.queueUpdate_owned (s := s.emptyClip c) owned c
    rw [e'] at queued
    refine ⟨_, own, ?_⟩
    rw [e, e']
    refine ⟨show (s.emptyClip c).clip c = Clip.empty from State.clip_modClip_same _ _ _, rfl, queued.of_same (fun _ => id) rfl rfl,
      fun d other => ?_, rfl, rfl⟩
    exact show (s.emptyClip c).clip d = s.clip d from State.clip_modClip_ne _ _ _ _ other.symm
  refine ⟨fun still => ?_, fun gone => ?_, fun state used => ?_, fun state clip fetches updates => ?_⟩
  · have same : s.deleteClip c = s := by
      unfold State.deleteClip
      rcases still with e | e <;> rw [e]
    rw [own, same]
  · refine emptied ?_
    unfold State.deleteClip
    rcases gone with ⟨e, none_⟩ | e
    · rw [e]
      exact if_pos none_
    · rw [e]
  · have retires : s.deleteClip c = (s.modClip c fun x => { x with state := .retiring }).queueUpdate c := by
      unfold State.deleteClip
      rw [state]
      exact if_neg used.ne'
    have queued := (s.modClip c fun x => { x with state := .retiring }).queueUpdate_queued c
    obtain ⟨m, e⟩ := State.queueUpdate_owned (s := s.modClip c fun x => { x with state := .retiring }) owned c
    rw [e] at queued
    refine ⟨_, own, ?_⟩
    rw [retires, e]
    refine ⟨show (s.modClip c fun x => { x with state := .retiring }).clip c = _ from State.clip_modClip_same _ _ _,
      queued.of_same (fun _ => id) rfl rfl, fun d other => ?_, rfl, rfl⟩
    exact show (s.modClip c fun x => { x with state := .retiring }).clip d = s.clip d from State.clip_modClip_ne _ _ _ _ other.symm
  · have goes : s.deleteClip c = s.abandonWrite.settlePort := by
      unfold State.deleteClip
      rw [state]
    have port : s.memory = ⟨.owned, s.memory.op, s.memory.suspended, [], []⟩ := by
      rw [← owned, ← fetches, ← updates]
    have settles : ∀ (u : State) (op : Option MemOp), u.memory = ⟨.owned, op, none, [], []⟩ → u.write.clip = none → u.settlePort = u :=
      fun u op port none_ => by
        cases op with
        | none => exact State.settlePort_quiet port none_
        | some o => exact State.settlePort_busy (by rw [port]) (.inl (by rw [port]))
    have left : ∀ op, ({ s.memory with op := op, suspended := none } : MemoryPort) = ⟨.owned, op, none, [], []⟩ := fun op => by rw [port]
    refine ⟨fun op suspended => ?_, fun slab op which law => ?_, fun slab offset block stands op suspended => ?_⟩
    · have erase : s.memory.erasing = none := by
        unfold MemoryPort.erasing
        rcases op with e | ⟨d, g, e⟩ <;> rw [e] <;> exact suspended
      have stays : s.memory.op.bind MemOp.abandon = s.memory.op := by
        rcases op with e | ⟨d, g, e⟩ <;> rw [e] <;> rfl
      rw [own, goes, State.abandonWrite_plain clip erase, stays, left, settles _ s.memory.op rfl rfl]
      rfl
    · have erase : s.memory.erasing = some slab ∧ s.memory.op.bind MemOp.abandon = op := by
        unfold MemoryPort.erasing
        rcases which with ⟨e, rfl⟩ | ⟨suspended, e, d, g, e'⟩
        · rw [e]
          exact ⟨rfl, rfl⟩
        · rw [← e, e']
          exact ⟨suspended, rfl⟩
      obtain ⟨m, partly, e⟩ := State.abandonWrite_erase law clip erase.1
      refine ⟨m, partly, ?_⟩
      rw [own, goes, e, erase.2, left, settles _ op rfl rfl]
      rfl
    · have erase : s.memory.erasing = none := by
        unfold MemoryPort.erasing
        rw [op]
        exact suspended
      have drops : s.memory.op.bind MemOp.abandon = some (.program slab offset block false) := by
        rw [op]
        rfl
      rw [own, goes, State.abandonWrite_plain clip erase, drops, left, settles _ _ rfl rfl]
      rfl

/-- A release with a write in hand: abandoned and reported ahead of the reply (R128, R133). -/
theorem ownMemoryRelease_write {s : State} {c : ClipId} (mode : s.memory.mode = .owned) (clip : s.write.clip = some c) :
    ownMemoryRelease () s = accept { s.abandonWrite.report (.clipState c .empty .abandoned none) with
      memory := { s.abandonWrite.memory with mode := .releasing } } := by
  unfold ownMemoryRelease
  rw [mode, clip]
  rfl

/-- After the reply to a release from OWNED the port settles (R133). -/
theorem State.afterRelease_owned {s before : State} (owned : before.memory.mode = .owned) (releasing : s.memory.mode = .releasing) :
    s.afterRelease before = s.settlePort := if_pos ⟨owned, releasing⟩

/-- Settles O39: the release by the port's state, what a write leaves (`State.abandonWrite_erase`), and the reclaim's releases. -/
theorem memoryReleaseAndReclaim : Obligations.MemoryReleaseAndReclaim := by
  intro s tag ready
  refine ⟨fun mode => ?_, fun mode => ?_, fun mode op updates clip => ?_, fun c e g mode op clip => ⟨fun suspended => ?_, fun slab suspended law => ?_⟩,
    fun c slab mode op updates clip law => ?_, fun mode => ?_, fun mode => ?_⟩
  · rw [exec_memoryRelease_ready ready]
    unfold ownMemoryRelease State.afterRelease
    rw [mode]
    exact congrArg Host.Outcome.next (if_neg fun k => nomatch k.1)
  · rw [exec_memoryRelease_ready ready]
    unfold ownMemoryRelease State.afterRelease
    rcases mode with mode | mode <;> rw [mode] <;> exact congrArg Host.Outcome.next (if_neg fun k => nomatch k.1)
  · have left : ownMemoryRelease () s = accept { s with memory := { s.memory with mode := .releasing } } := by
      unfold ownMemoryRelease
      rw [mode, State.abandonWrite_none clip, clip]
    rw [exec_memoryRelease_ready ready, left, State.afterRelease_owned mode rfl]
    exact congrArg Host.Outcome.next (State.settlePort_releases rfl op updates)
  · have left := ownMemoryRelease_write mode clip
    have erase : s.memory.erasing = none := by
      unfold MemoryPort.erasing
      rw [op]
      exact suspended
    have stays : s.memory.op.bind MemOp.abandon = s.memory.op := by rw [op]; rfl
    have same : ({ s.memory with op := s.memory.op, suspended := none } : MemoryPort) = s.memory := by rw [← suspended]
    rw [State.abandonWrite_plain clip erase, stays, same] at left
    rw [exec_memoryRelease_ready ready, left, State.afterRelease_owned mode rfl]
    exact congrArg Host.Outcome.next (State.settlePort_busy (o := .fetch e g) op (.inr nofun))
  · have left := ownMemoryRelease_write mode clip
    have erase : s.memory.erasing = some slab := by
      unfold MemoryPort.erasing
      rw [op]
      exact suspended
    have stays : s.memory.op.bind MemOp.abandon = s.memory.op := by rw [op]; rfl
    obtain ⟨m, partly, abandons⟩ := State.abandonWrite_erase law clip erase
    rw [abandons, stays] at left
    refine ⟨m, partly, ?_⟩
    rw [exec_memoryRelease_ready ready, left, State.afterRelease_owned mode rfl]
    exact congrArg Host.Outcome.next (State.settlePort_busy (o := .fetch e g) op (.inr nofun))
  · have left := ownMemoryRelease_write mode clip
    have erase : s.memory.erasing = some slab := by
      unfold MemoryPort.erasing
      rw [op]
    have drops : s.memory.op.bind MemOp.abandon = none := by rw [op]; rfl
    obtain ⟨m, partly, abandons⟩ := State.abandonWrite_erase law clip erase
    rw [abandons, drops] at left
    refine ⟨m, partly, ?_⟩
    rw [exec_memoryRelease_ready ready, left, State.afterRelease_owned mode rfl]
    exact congrArg Host.Outcome.next (State.settlePort_releases rfl rfl updates)
  · rw [exec_memoryReclaim_ready ready]
    unfold ownMemoryReclaim
    cases e : s.memory.mode with
    | released => exact absurd e mode
    | _ => rfl
  · rw [exec_memoryReclaim_ready ready]
    unfold ownMemoryReclaim
    rw [mode]
    have free := fun e => State.releaseAll_free (s := { s with arbiter := { s.arbiter with scanning := true } }) rfl .interrupted e
    have outside := Outside.releaseAll (.refl ({ s with arbiter := { s.arbiter with scanning := true } } : State)) .interrupted
    have reclaimed : ∃ u : State, s.reclaim = u ∧ (∀ e, u.eng e = (({ s with arbiter := { s.arbiter with scanning := true } } : State).releaseAll
        .interrupted).eng e) ∧ u.memory.mode = .scanning ∧ u.memory.updates = [] ∧ u.scan = .start ∧ u.arbiter =
        (({ s with arbiter := { s.arbiter with scanning := true } } : State).releaseAll .interrupted).arbiter ∧ u.flash =
        (({ s with arbiter := { s.arbiter with scanning := true } } : State).releaseAll .interrupted).flash ∧ u.link =
        (({ s with arbiter := { s.arbiter with scanning := true } } : State).releaseAll .interrupted).link := by
      refine ⟨_, rfl, ?_⟩
      unfold State.reclaim
      generalize ({ s with arbiter := { s.arbiter with scanning := true } } : State).releaseAll .interrupted = t
      exact ⟨fun _ => rfl, rfl, rfl, rfl, rfl, rfl, rfl⟩
    obtain ⟨u, e, engines, scan, updates, start, arbiter, flash, link⟩ := reclaimed
    rw [e]
    generalize ({ s with arbiter := { s.arbiter with scanning := true } } : State).releaseAll .interrupted = t at free outside engines arbiter flash link
    refine ⟨u.ok 0x39 tag, rfl, fun e => ?_, scan, updates, start, ?_, ?_, ?_⟩
    · exact (congrArg Engine.state (engines e)).trans (free e)
    · exact (congrArg Arbiter.scanning arbiter).trans outside.scanning
    · exact flash.trans outside.flash
    · show (u.link.placeReply _).replies = _
      rw [Link.placeReply_replies, link]
      exact congrArg (· ++ _) outside.replies

end Sys2Proof.Machine
end

section
set_option Elab.async false
/-! ## The directory scan's reads (O40) -/

namespace Sys2Proof.Machine

section Scan
variable {s : State} {c : ClipId} {bytes : List Byte}

/-! ### One stored entry (R136) -/

theorem State.scanEntry_blank (reads : readEntry bytes = .blank) : s.scanEntry c bytes = s.modClip c fun _ => Clip.empty := by
  unfold State.scanEntry
  dsimp only
  rw [reads]

/-- An entry discarded: EMPTY, counted and reported. -/
def State.discarded (s : State) (c : ClipId) : State :=
  { s.modClip c (fun _ => Clip.empty) with scan := { s.scan with discarded := s.scan.discarded + 1 } }.report (.clipState c .empty .discarded none)

theorem State.scanEntry_bad (reads : readEntry bytes = .bad) : s.scanEntry c bytes = s.discarded c := by
  unfold State.scanEntry
  dsimp only
  rw [reads]
  rfl

theorem State.clashes_iff (x : Clip) : (distinct x.slabs = false ∨ x.slabs.any (s.keptBelow c.val) = true) ↔
    (¬ x.slabs.Nodup ∨ ∃ d : ClipId, d.val < c.val ∧ ∃ n ∈ x.slabs, n ∈ (s.clip d).slabs) := by
  refine or_congr ?_ ?_
  · rw [← distinct_iff_nodup, Bool.not_eq_true]
  · rw [List.any_eq_true]
    constructor
    · rintro ⟨n, mem, kept⟩
      obtain ⟨d, below, holds⟩ := State.mem_slabsBelow.1 ((s.keptBelow_iff c.val n).1 kept)
      exact ⟨d, below, n, mem, holds⟩
    · rintro ⟨d, below, n, mem, holds⟩
      exact ⟨n, mem, (s.keptBelow_iff c.val n).2 (State.mem_slabsBelow.2 ⟨d, below, holds⟩)⟩

theorem State.scanEntry_clash {x : Clip} (reads : readEntry bytes = .good x)
    (clash : ¬ x.slabs.Nodup ∨ ∃ d : ClipId, d.val < c.val ∧ ∃ n ∈ x.slabs, n ∈ (s.clip d).slabs) : s.scanEntry c bytes = s.discarded c := by
  unfold State.scanEntry
  dsimp only
  rw [reads]
  exact if_pos ((State.clashes_iff x).2 clash)

/-- A good entry of its own, counted by its state. -/
theorem State.scanEntry_kept {x : Clip} (reads : readEntry bytes = .good x)
    (own : ¬ (¬ x.slabs.Nodup ∨ ∃ d : ClipId, d.val < c.val ∧ ∃ n ∈ x.slabs, n ∈ (s.clip d).slabs)) :
    s.scanEntry c bytes = { s.modClip c (fun _ => x) with scan := if x.state = .ready then { s.scan with ready := s.scan.ready + 1 }
      else { s.scan with damaged := s.scan.damaged + 1 } } := by
  unfold State.scanEntry
  dsimp only
  rw [reads]
  dsimp only
  rw [if_neg ((State.clashes_iff x).not.2 own)]
  split <;> rfl

/-! ### The read of the next entry -/

/-- The flash as a scan's read finds it: where it was rewritten, the bytes found become the part's image (log 6). -/
def State.found (s : State) (c : ClipId) (found : Option (List Byte)) : State :=
  { s with flash := found.elim s.flash (flashWriteBytes s.flash (1024 * c.val)) }

/-- The entry of a clip taken, and the scan moved on to the next. -/
def State.scanTaken (s : State) (c : ClipId) (found : Option (List Byte)) : State :=
  { (s.found c found).scanEntry c (found.getD (flashReadBytes s.flash (1024 * c.val) 146)) with
    scan := { ((s.found c found).scanEntry c (found.getD (flashReadBytes s.flash (1024 * c.val) 146))).scan with next := c.val + 1 } }

theorem State.scanRead_entry (found : Option (List Byte)) (scanning : s.memory.mode = .scanning) (next : s.scan.next = c.val) :
    s.scanRead found = if c.val + 1 < 256 then s.scanTaken c found else (s.scanTaken c found).scanDone s := by
  unfold State.scanRead
  rw [if_pos scanning, next, toId_val]
  cases found <;> rfl

/-! ### The end of the scan (R135) -/

/-- A plan without users makes no stream request (R151). -/
theorem State.judgeStream_of_unused {h : PlanId} (unused : (s.plan h).useCount = 0) : s.judgeStream h = s := by
  unfold State.judgeStream
  split
  · rfl
  · split
    · rfl
    · rfl
    · exact if_neg fun k => absurd unused k.1.ne'

/-- With nobody waiting a FREE engine is nobody's (R144). -/
theorem State.run_heads_empty (queue : s.arbiter.queue = []) (e : EngId) : s.run [.heads e] = s := by
  refine State.run_single ?_
  simp only [runTask, queue]
  split <;> rfl

/-- The end of a scan with no plan in use, nobody waiting and an idle port. -/
theorem State.scanDone_quiet (before : State) (queue : s.arbiter.queue = []) (unused : ∀ h, (s.plan h).useCount = 0)
    (clip : s.write.clip = none) (port : s.memory = ⟨.scanning, none, none, [], []⟩) : s.scanDone before =
      State.finish (State.report { s with
        freeSlabs := s.unclaimed, memory := ⟨.owned, none, none, [], []⟩, arbiter := { s.arbiter with scanning := false } }
          (.scanDone s.scan.ready s.scan.damaged s.scan.discarded)) before := by
  have streams : ∀ u : State, (∀ h, (u.plan h).useCount = 0) → (List.finRange 16).foldl (fun t h => t.judgeStream h) u = u :=
    fun u k => List.foldl_fixed' (fun h => State.judgeStream_of_unused (k h)) _
  have heads : ∀ u : State, u.arbiter.queue = [] → (List.finRange 24).foldl (fun t e => t.run [.heads e]) u = u :=
    fun u k => List.foldl_fixed' (State.run_heads_empty k) _
  unfold State.scanDone
  dsimp only
  rw [port]
  generalize s.unclaimed = free
  have first := streams (State.report { s with freeSlabs := free, memory := ⟨.owned, none, none, [], []⟩ }
    (.scanDone s.scan.ready s.scan.damaged s.scan.discarded)) unused
  have second := heads (State.report { s with
    freeSlabs := free, memory := ⟨.owned, none, none, [], []⟩, arbiter := { s.arbiter with scanning := false } }
      (.scanDone s.scan.ready s.scan.damaged s.scan.discarded)) queue
  have third := State.settlePort_quiet (s := State.report { s with
    freeSlabs := free, memory := ⟨.owned, none, none, [], []⟩, arbiter := { s.arbiter with scanning := false } }
      (.scanDone s.scan.ready s.scan.damaged s.scan.discarded)) rfl clip
  rw [first]
  refine congrArg (fun u : State => u.finish before) (Eq.trans ?_ third)
  exact congrArg State.settlePort second

end Scan

/-- What a scan's read leaves, up to the entry's own record and counts. -/
theorem State.scanTaken_parts (s : State) (c : ClipId) (found : Option (List Byte)) :
    (s.scanTaken c found).flash = found.elim s.flash (flashWriteBytes s.flash (1024 * c.val)) ∧
      (∀ d, d ≠ c → (s.scanTaken c found).clip d = s.clip d) ∧
      s.scanTaken c found = { s with
        flash := (s.scanTaken c found).flash, clips := (s.scanTaken c found).clips, scan := (s.scanTaken c found).scan
        link := (s.scanTaken c found).link } := by
  unfold State.scanTaken
  obtain ⟨x, scan, link, e, _⟩ := (s.found c found).scanEntry_cases c (found.getD (flashReadBytes s.flash (1024 * c.val) 146))
  rw [e]
  exact ⟨rfl, fun d other => tget_tset_ne _ _ _ _ other.symm, rfl⟩

/-- Settles O40: what the stored entry reads as decides (`State.scanRead_entry`); the last one ends the scan. -/
theorem scanEntryRead : Obligations.ScanEntryRead := by
  intro s found
  refine ⟨fun away => congrArg Host.Outcome.next (if_neg away), fun c b scanning next reads => ⟨fun below => ?_, fun last blank none_ unused clip port => ?_⟩⟩
  · have goes : s.scanRead found = s.scanTaken c found := by
      rw [State.scanRead_entry found scanning next, if_pos (by omega)]
    obtain ⟨flash, others, frame⟩ := s.scanTaken_parts c found
    have held : ∀ d, (s.found c found).clip d = s.clip d := fun _ => rfl
    have taken : s.scanTaken c found = { (s.found c found).scanEntry c b with
        scan := { ((s.found c found).scanEntry c b).scan with next := c.val + 1 } } := by rw [reads]; rfl
    refine ⟨s.scanTaken c found, congrArg Host.Outcome.next goes, flash.trans (by cases found <;> rfl), others, fun e => ?_, fun e => ?_,
      fun x e once apart => ?_, fun x e clash => ?_, frame⟩
    · rw [taken, State.scanEntry_blank (s := s.found c found) e]
      exact ⟨tget_tset_same _ _ _, rfl, rfl⟩
    · rw [taken, State.scanEntry_bad (s := s.found c found) e]
      exact ⟨tget_tset_same _ _ _, rfl, rfl⟩
    · have own : ¬ (¬ x.slabs.Nodup ∨ ∃ d : ClipId, d.val < c.val ∧ ∃ n ∈ x.slabs, n ∈ ((s.found c found).clip d).slabs) := by
        rintro (k | ⟨d, lower, n, mem, holds⟩)
        · exact k once
        · exact apart d lower n mem holds
      rw [taken, State.scanEntry_kept (s := s.found c found) e own]
      refine ⟨tget_tset_same _ _ _, rfl, rfl, ?_, fun k => ?_, fun k => ?_⟩
      · dsimp only
        split <;> rfl
      · rw [k]
        exact ⟨rfl, rfl⟩
      · rw [k]
        exact ⟨rfl, rfl⟩
    · rw [taken, State.scanEntry_clash (s := s.found c found) e clash]
      exact ⟨tget_tset_same _ _ _, rfl, rfl⟩
  · have lists := State.finish_rederived
    obtain ⟨flash, others, frame⟩ := s.scanTaken_parts c found
    have taken : s.scanTaken c found = { (s.found c found).modClip c (fun _ => Clip.empty) with scan := { s.scan with next := c.val + 1 } } := by
      have e : s.scanTaken c found = { (s.found c found).scanEntry c b with
        scan := { ((s.found c found).scanEntry c b).scan with next := c.val + 1 } } := by rw [reads]; rfl
      rw [e, State.scanEntry_blank (s := s.found c found) blank]
      rfl
    have goes : s.scanRead found = (s.scanTaken c found).scanDone s := by
      rw [State.scanRead_entry found scanning next, if_neg (by omega)]
    rw [State.scanDone_quiet s (by rw [taken]; exact none_) (by rw [taken]; exact unused) (by rw [taken]; exact clip) (by rw [taken]; exact port)] at goes
    have same : ∀ d, (s.scanTaken c found).clip d = if d = c then Clip.empty else s.clip d := fun d => by
      split
      · rename_i own
        subst own
        rw [taken]
        exact tget_tset_same _ _ _
      · exact others d ‹_›
    have scan : (s.scanTaken c found).scan = { s.scan with next := c.val + 1 } := by rw [taken]
    have link : (s.scanTaken c found).link = s.link := by rw [taken]; rfl
    have slabs : (s.scanTaken c found).unclaimed = ((List.range 1020).map (· + 4)).filter (fun n =>
        (List.finRange 256).all fun d => !((s.scanTaken c found).clip d).slabs.contains n) := by
      unfold State.unclaimed State.keptBelow
      refine List.filter_congr fun n _ => ?_
      rw [List.not_any_eq_all_not]
      refine congrArg (fun f => List.all (List.finRange 256) f) (funext fun d => ?_)
      rw [decide_eq_true d.isLt, Bool.true_and]
    generalize (s.scanTaken c found).unclaimed = free at goes slabs
    generalize s.scanTaken c found = u at goes same frame scan link slabs
    rw [scan] at goes
    have rederived := State.finish_rederived (State.report { u with
      freeSlabs := free, memory := ⟨.owned, none, none, [], []⟩, arbiter := { u.arbiter with scanning := false } }
        (.scanDone s.scan.ready s.scan.damaged s.scan.discarded)) s
    rw [State.finish_of_records (by rw [frame]; rfl) (by rw [frame]; rfl) (by rw [frame]; rfl)] at goes rederived
    refine ⟨_, congrArg Host.Outcome.next goes, rfl, ?_, ?_, fun d other => ?_, slabs, ?_, rederived.of_lists ?_ ?_, ?_, ?_⟩
    · show { u.arbiter with scanning := false } = _
      rw [frame]
    · exact (same c).trans (if_pos rfl)
    · exact (same d).trans (if_neg other)
    · show u.link.placeReport ⟨u.highway.period, _⟩ = _
      rw [link, frame]
      rfl
    · show u.ears = s.ears
      rw [frame]
    · show u.sends = s.sends
      rw [frame]
    · show u.engines = s.engines
      rw [frame]
    · show u.legs = s.legs
      rw [frame]

end Sys2Proof.Machine
end

section
set_option Elab.async false
/-! ## A session's engine that another plan's binding names (O19, O20)

The statements on LEG_HOLD and LEG_CONNECT say of a session that ends with its plan's last user that its PLAYING engine is STOPPING
afterwards, with no word on the other plans. The cascade of that end can reach the end of another plan's last user: the plan's engine goes
to the wait queue's head, a CALL_WHISPER whose clip is no longer READY; its leg goes ACTIVE, and the leg's session ends. Where that leg's
plan has the session's engine as its binding the engine is released, and is FREE. No law among the hypotheses rules the state out. -/

namespace Sys2Proof.Machine

/-- L2 HELD on H1, its announcement PLAYING on E4; H1's stream on E5; L6 CONNECTING to P1 from HELD on H3, whose binding names E4; P1's
CALL_WHISPER waits for an engine for a clip that is EMPTY; P0 LIVE. -/
def crossedBinding : State :=
  { ((((((((State.reset.modPos 0 fun x => { x with port := { x.port with state := .live } }).modPos 1 fun x => { x with
      leg := some 6, whisper := ⟨[⟨.call 6, 5, false⟩], .waiting 0, none, none⟩ }).modLeg 6 fun x => { x with
      state := .connecting, attached := some 1, origin := some .held, session := some ⟨some 3, .background, some 9, 0, none⟩ }).modLeg 2
      fun x => { x with state := .held, session := some ⟨some 1, .announcing, none, 0, some ⟨7, some 0, some 4⟩⟩ }).modPlan 1 fun _ =>
        ⟨some ⟨.shared 8, 100, none, [7], 100, 250, 0, false, none⟩, 1, some 5, false⟩).modPlan 3 fun _ =>
        ⟨some ⟨.shared 7, 100, none, [7], 100, 250, 0, false, none⟩, 1, some 4, false⟩).modEng 4 fun x => { x with
      state := .playing, owner := some (.leg 2), cls := 1 }).modEng 5 fun x => { x with
      state := .playing, owner := some (.shared 1), cls := 2 }) with
    arbiter := ⟨[⟨.whisper 1, 5⟩], [], 0, false⟩ }

theorem crossedBinding_ready : Ready crossedBinding := ⟨rfl, rfl, by decide⟩

theorem crossedBinding_attach : AttachLaw crossedBinding := by
  have names : ∀ l, ∀ p ∈ (crossedBinding.leg l).attached, (crossedBinding.pos p).leg = some l := by decide +kernel
  have named : ∀ p, ∀ l ∈ (crossedBinding.pos p).leg, (crossedBinding.leg l).attached = some p := by decide +kernel
  have busy : ∀ l, (crossedBinding.leg l).attached.isSome = true ↔
      ((crossedBinding.leg l).state = .connecting ∨ (crossedBinding.leg l).state = .active) := by decide +kernel
  have calls : ∀ p, ∀ w ∈ (crossedBinding.pos p).whisper.entries, ∀ l, w.isCallOf l = true →
      (crossedBinding.leg l).state = .connecting ∧ (crossedBinding.leg l).attached = some p := by decide +kernel
  have called : ∀ l, (crossedBinding.leg l).state = .connecting → ∀ p ∈ (crossedBinding.leg l).attached,
      ∃ w ∈ (crossedBinding.pos p).whisper.entries, w.isCallOf l = true := by decide +kernel
  have once : ∀ p, ((crossedBinding.pos p).whisper.entries.filter fun w => !w.isPrompt).length ≤ 1 := by decide +kernel
  exact ⟨fun l p => ⟨names l p, named p l⟩, busy, fun p w l mem => calls p w mem l, fun l p state there => called l state p there, once⟩

/-- What a command leaves, seen through a reading of the state. -/
def nextReading {α : Type} (f : State → α) : Result → Option α
  | .next t => some (f t)
  | _ => none

/-- Refutes O19: LEG_HOLD on no plan ends L2's session of `crossedBinding`, and E4 is FREE and not STOPPING. -/
theorem not_legHold : ¬ Obligations.LegHold := by
  intro holds
  have free : nextReading (fun t => (t.eng 4).state) (exec (.legHold 7 (.fields ⟨2, none⟩)) crossedBinding) = some .free := by decide +kernel
  obtain ⟨_, _, _, _, _, _, _, session⟩ := holds crossedBinding 2 7 crossedBinding_ready
  obtain ⟨_, planned⟩ := session ⟨some 1, .announcing, none, 0, some ⟨7, some 0, some 4⟩⟩ rfl rfl
  obtain ⟨t, e, _, _, _, _, _, _, _, stopped, _⟩ := planned 1 rfl (.inr (.inr ⟨_, 4, rfl, rfl, rfl, rfl⟩)) crossedBinding_attach
  have stopping := stopped _ 4 rfl rfl (by decide +kernel)
  have same : exec (.legHold 7 (.fields ⟨2, none⟩)) crossedBinding = .next t := e
  rw [same] at free
  have state : (t.eng 4).state = .free := Option.some.inj free
  rw [stopping] at state
  exact nomatch state

/-- Refutes O20: LEG_CONNECT of L2 of `crossedBinding` to P0 ends its session, and E4 is FREE and not STOPPING. -/
theorem not_legConnect : ¬ Obligations.LegConnect := by
  intro holds
  have free : nextReading (fun t => (t.eng 4).state) (exec (.legConnect 7 (.fields ⟨2, 0, none⟩)) crossedBinding) = some .free := by
    decide +kernel
  obtain ⟨_, accepted⟩ := holds crossedBinding 2 0 7 crossedBinding_ready
  obtain ⟨_, planned, _⟩ := accepted (.inr rfl) rfl rfl rfl
  obtain ⟨t, e, _, _, _, _, _, _, _, _, _, _, stopped, _⟩ := planned ⟨some 1, .announcing, none, 0, some ⟨7, some 0, some 4⟩⟩ 1 rfl rfl
    (.inr (.inr ⟨_, 4, rfl, rfl, rfl, rfl⟩)) crossedBinding_attach
  have stopping := stopped _ 4 rfl rfl (by decide +kernel)
  have same : exec (.legConnect 7 (.fields ⟨2, 0, none⟩)) crossedBinding = .next t := e
  rw [same] at free
  have state : (t.eng 4).state = .free := Option.some.inj free
  rw [stopping] at state
  exact nomatch state

end Sys2Proof.Machine
end

section
set_option Elab.async false
/-! ## Requests for engines: what the arbiter does with one (R142 to R144) -/

namespace Sys2Proof.Machine

/-- A chain of happenings carried out, with the number of happenings. -/
inductive Chain : Nat → List Task → State → State → Prop
  | done (s : State) : Chain 0 [] s s
  | step {n : Nat} {x : Task} {more rest : List Task} {s t u : State} (first : runTask x s = (t, more)) (later : Chain n (more ++ rest) t u) :
    Chain (n + 1) (x :: rest) s u

theorem Chain.drive {n : Nat} {ts : List Task} {s t : State} (h : Chain n ts s t) (k : Nat) : Machine.drive (n + k) ts s = t := by
  induction h with
  | done s => cases k <;> rfl
  | @step n x more rest s t u first later ih =>
    rw [Nat.add_right_comm]
    show Machine.drive (n + k) ((runTask x s).2 ++ rest) (runTask x s).1 = u
    rw [first]
    exact ih

/-- A chain short of the bound is what the event sets off (log 9). -/
theorem Chain.run {n : Nat} {ts : List Task} {s t : State} (h : Chain n ts s t) (short : n ≤ 4096 := by decide) : s.run ts = t := by
  obtain ⟨k, e⟩ := Nat.exists_eq_add_of_le short
  show Machine.drive 4096 ts s = t
  rw [e]
  exact h.drive k

/-- The last happening of a chain. -/
theorem Chain.last {x : Task} {s t : State} (only : runTask x s = (t, [])) : Chain 1 [x] s t := .step only (.done t)

section Requests
variable {s : State} {w : WaitEntry}

theorem State.ownsEngine_iff {o : Owner} : s.ownsEngine o = true ↔ ∃ d, (s.eng d).state ≠ .free ∧ (s.eng d).owner = some o := by
  unfold State.ownsEngine
  simp

theorem State.ownsEngine_none {o : Owner} (h : ∀ d, (s.eng d).state = .free ∨ (s.eng d).owner ≠ some o) : s.ownsEngine o = false := by
  rw [Bool.eq_false_iff, Ne, State.ownsEngine_iff]
  rintro ⟨d, busy, own⟩
  exact (h d).elim busy fun k => k own

theorem State.freeEngine_first {e : EngId} (free : (s.eng e).state = .free) (first : ∀ d, d < e → (s.eng d).state ≠ .free) :
    s.freeEngine = some e := by
  unfold State.freeEngine
  rw [List.find?_eq_some_iff_getElem]
  refine ⟨decide_eq_true free, e.val, by simp, by simp, fun j lower => ?_⟩
  simp only [List.getElem_finRange, Bool.not_eq_true', decide_eq_false_iff_not]
  exact first _ lower

theorem State.freeEngine_none (busy : ∀ d, (s.eng d).state ≠ .free) : s.freeEngine = none := by
  unfold State.freeEngine
  rw [List.find?_eq_none]
  exact fun d _ => by simpa using busy d

theorem enqueue_enqueued (w : WaitEntry) (l : List WaitEntry) : Enqueued l (enqueue w l) w := by
  induction l with
  | nil => exact ⟨[], [], rfl, nofun, nofun, rfl⟩
  | cons x rest ih =>
    unfold enqueue
    split
    · rename_i ahead
      obtain ⟨front, back, whole, front_, back_, after⟩ := ih
      refine ⟨x :: front, back, by rw [whole]; rfl, fun y mem => ?_, back_, by rw [after]; rfl⟩
      rcases List.mem_cons.1 mem with e | mem
      · rw [e]
        exact ahead
      · exact front_ y mem
    · rename_i behind
      exact ⟨[], x :: rest, rfl, nofun, fun y e => by rw [← Option.some.inj e]; exact not_le.1 behind, rfl⟩

/-- A request of the last class goes to the end. -/
theorem enqueue_last (last : ∀ x : WaitEntry, x.owner.cls ≤ w.owner.cls) (l : List WaitEntry) : enqueue w l = l ++ [w] := by
  induction l with
  | nil => rfl
  | cons x rest ih =>
    unfold enqueue
    rw [if_pos (last x), ih]
    rfl

theorem Owner.cls_le (o : Owner) : o.cls ≤ 2 := by cases o <;> simp [Owner.cls]

/-! ### The four answers -/

/-- Held behind an engine of the requester's own (R143). -/
theorem runTask_request_held (owns : s.ownsEngine w.owner = true) :
    runTask (.request w) s = ({ s with arbiter := { s.arbiter with held := s.arbiter.held ++ [w] } }, []) := if_pos owns

theorem runTask_request_taken (owns : s.ownsEngine w.owner = false) : runTask (.request w) s = (s, [.take w]) :=
  if_neg (by rw [owns]; exact Bool.false_ne_true)

/-- Waiting while the memory is scanned (R135). -/
theorem runTask_take_scanning (scanning : s.arbiter.scanning = true) :
    runTask (.take w) s = ({ s with arbiter := { s.arbiter with queue := enqueue w s.arbiter.queue } }, []) := if_pos scanning

/-- Granted the engine found FREE. -/
theorem runTask_take_granted (scanning : s.arbiter.scanning = false) {e : EngId} (free : s.freeEngine = some e) (clip : s.isReady w.clip = true) :
    runTask (.take w) s = (s.grant e w, []) := by
  unfold runTask
  dsimp only
  rw [if_neg (by rw [scanning]; exact Bool.false_ne_true), free]
  exact if_pos clip

/-- Waiting with no engine FREE; a class-0 request stops the engine that it takes back (R143). -/
theorem runTask_take_waits (scanning : s.arbiter.scanning = false) (none_ : s.freeEngine = none) :
    runTask (.take w) s = ({ s with arbiter := { s.arbiter with queue := enqueue w s.arbiter.queue } },
      if w.owner.cls = 0 then s.victim.elim [] fun v => [.stop v .preempted] else []) := by
  unfold runTask
  dsimp only
  rw [if_neg (by rw [scanning]; exact Bool.false_ne_true), none_]
  dsimp only
  cases s.victim <;> rfl

theorem State.run_request_held (owns : s.ownsEngine w.owner = true) :
    s.run [.request w] = { s with arbiter := { s.arbiter with held := s.arbiter.held ++ [w] } } := (Chain.last (runTask_request_held owns)).run

theorem State.run_request_granted (owns : s.ownsEngine w.owner = false) (scanning : s.arbiter.scanning = false) {e : EngId}
    (free : s.freeEngine = some e) (clip : s.isReady w.clip = true) : s.run [.request w] = s.grant e w :=
  (Chain.step (runTask_request_taken owns) (.last (runTask_take_granted scanning free clip))).run

/-- A request of class 1 or 2 that waits. -/
theorem State.run_request_waits (owns : s.ownsEngine w.owner = false) (none_ : s.arbiter.scanning = true ∨ s.freeEngine = none)
    (cls : w.owner.cls ≠ 0) :
    s.run [.request w] = { s with arbiter := { s.arbiter with queue := enqueue w s.arbiter.queue } } := by
  refine (Chain.step (runTask_request_taken owns) (.last ?_)).run
  cases scanning : s.arbiter.scanning with
  | true => exact runTask_take_scanning scanning
  | false =>
    rw [runTask_take_waits scanning (none_.resolve_left (by rw [scanning]; exact Bool.false_ne_true)), if_neg cls]

end Requests

/-! ### What a grant leaves (R138) -/

/-- The engine of a granted request (R138, R144). -/
def State.primed (s : State) (w : WaitEntry) : Engine :=
  { Engine.idle with
    state := .priming, owner := some w.owner, cls := w.owner.cls, clip := some w.clip, loop := w.owner.cls = 2, grant := s.arbiter.grants }

/-- The records of a granted request, before the port's settling. -/
def State.grantBase (s : State) (e : EngId) (w : WaitEntry) : State :=
  { s with
    engines := tset s.engines e (s.primed w)
    clips := tset s.clips w.clip { s.clip w.clip with useCount := (s.clip w.clip).useCount + 1 }
    arbiter := { s.arbiter with grants := s.arbiter.grants + 1 } }

theorem State.grant_eq (s : State) (e : EngId) (w : WaitEntry) : s.grant e w = ((s.grantBase e w).ownerGranted w.owner e).issueFetch e := rfl

/-- A change of the port's record, with the report of a release at most (R133). -/
structure Settled (s t : State) : Prop where
  frame : ∃ memory link, t = { s with memory := memory, link := link }
  replies : t.link.replies = s.link.replies
  stays : s.memory.mode ≠ .releasing → t.memory.mode = s.memory.mode ∧ t.link = s.link

theorem State.settlePort_settled (s : State) : Settled s s.settlePort := by
  rcases s.settlePort_cases with ⟨m, e, mode⟩ | ⟨releasing, e⟩ <;> rw [e]
  · exact ⟨⟨m, s.link, rfl⟩, rfl, fun _ => ⟨mode, rfl⟩⟩
  · exact ⟨⟨_, _, rfl⟩, Link.placeReport_replies _ _, fun k => absurd releasing k⟩

theorem State.issueFetch_settled (s : State) (e : EngId) : Settled s (s.issueFetch e) := by
  unfold State.issueFetch
  obtain ⟨m, e', mode⟩ := s.addFetch_memory e
  rw [e']
  obtain ⟨⟨memory, link, frame⟩, replies, stays⟩ := State.settlePort_settled { s with memory := m }
  exact ⟨⟨memory, link, frame⟩, replies, fun k => by
    obtain ⟨kept, same⟩ := stays (by rw [← mode] at k; exact k)
    exact ⟨kept.trans mode, same⟩⟩

theorem State.addFetch_updates (s : State) (e : EngId) :
    (s.addFetch e).memory.updates = s.memory.updates ∧ (s.addFetch e).memory.op = s.memory.op := by
  unfold State.addFetch
  split <;> exact ⟨rfl, rfl⟩

theorem UpdateQueued.issueFetch {s : State} {c : ClipId} (h : UpdateQueued s c) (e : EngId) : UpdateQueued (s.issueFetch e) c := by
  obtain ⟨updates, op⟩ := s.addFetch_updates e
  have clip : (s.addFetch e).clip c = s.clip c := by
    obtain ⟨m, e', _⟩ := s.addFetch_memory e
    rw [e']
    rfl
  unfold State.issueFetch
  exact (h.of_same (fun d mem => by rw [updates]; exact mem) op.symm clip).settlePort

/-- A shared stream's grant binds the plan (R151). -/
theorem State.grant_shared (s : State) (e : EngId) (h : PlanId) (c : ClipId) :
    Settled { s.grantBase e ⟨.shared h, c⟩ with plans := tset s.plans h { s.plan h with bound := some e, pending := false } }
      (s.grant e ⟨.shared h, c⟩) := State.issueFetch_settled _ e

/-- A greeting's or an announcement's grant names its engine in the session (R154, R157). -/
theorem State.grant_leg (s : State) (e : EngId) (l : LegId) (c : ClipId) :
    Settled ((s.grantBase e ⟨.leg l, c⟩).modLeg l fun x => { x with session := x.session.map fun y =>
      { y with request := y.request.map fun r => { r with engine := some e } } }) (s.grant e ⟨.leg l, c⟩) := State.issueFetch_settled _ e

/-- A whisper's grant (R167). -/
theorem State.grant_whisper (s : State) (e : EngId) (p : PosId) (c : ClipId) :
    Settled ((s.grantBase e ⟨.whisper p, c⟩).modWhisper p fun q => { q with head := .granted e }) (s.grant e ⟨.whisper p, c⟩) :=
  State.issueFetch_settled _ e

end Sys2Proof.Machine
end

section
set_option Elab.async false
/-! ## Shared streams judged, and the end of a write (O36) -/

namespace Sys2Proof.Machine

theorem Settled.owned {s t : State} (h : Settled s t) (owned : s.memory.mode = .owned) :
    ∃ m, t = { s with memory := m } ∧ m.mode = .owned := by
  obtain ⟨⟨memory, link, frame⟩, _, stays⟩ := h
  obtain ⟨mode, same⟩ := stays (by rw [owned]; nofun)
  rw [frame] at mode same
  exact ⟨memory, by rw [frame, ← same], mode.trans owned⟩

theorem State.queueUpdate_settled (s : State) (c : ClipId) : Settled s (s.queueUpdate c) := by
  unfold State.queueUpdate
  split
  · exact ⟨⟨_, _, rfl⟩, rfl, fun _ => ⟨rfl, rfl⟩⟩
  · obtain ⟨⟨memory, link, frame⟩, replies, stays⟩ :=
      State.settlePort_settled { s with memory := { s.memory with updates := s.memory.updates ++ [c] } }
    exact ⟨⟨memory, link, frame⟩, replies, stays⟩

/-! ### Shared streams (R151) -/

/-- A stored entry holds no use count (Table 6-8). -/
theorem entryImage_useCount (x : Clip) (n : Nat) : entryImage { x with useCount := n } = entryImage x := by
  obtain ⟨state, length, loopStart, slabs, sum, count⟩ := x
  cases state <;> rfl

/-- What shared stream requests change while the memory is owned: no record of a clip but its use count, and no report. -/
structure Streamed (s t : State) : Prop where
  frame : t = { s with plans := t.plans, clips := t.clips, engines := t.engines, arbiter := t.arbiter, memory := t.memory }
  mode : t.memory.mode = s.memory.mode
  clips : ∀ d, ∃ n, t.clip d = { s.clip d with useCount := n }
  updates : ∀ d, UpdateQueued s d → UpdateQueued t d

namespace Streamed
variable {s t u : State}

theorem refl (s : State) : Streamed s s := ⟨rfl, rfl, fun _ => ⟨_, rfl⟩, fun _ => id⟩

theorem trans (h : Streamed s t) (k : Streamed t u) : Streamed s u := by
  refine ⟨by rw [k.frame, h.frame], k.mode.trans h.mode, fun d => ?_, fun d => k.updates d ∘ h.updates d⟩
  obtain ⟨n, e⟩ := h.clips d
  obtain ⟨m, e'⟩ := k.clips d
  rw [e] at e'
  exact ⟨m, e'⟩

/-- Plans and the arbiter's records alone. -/
theorem records (s : State) (plans : Table Plan 16) (arbiter : Arbiter) : Streamed s { s with plans := plans, arbiter := arbiter } :=
  ⟨rfl, rfl, fun _ => ⟨_, rfl⟩, fun _ => id⟩

theorem grant (owned : s.memory.mode = .owned) (e : EngId) (h : PlanId) (c : ClipId) : Streamed s (s.grant e ⟨.shared h, c⟩) := by
  have clips : ∀ d, ∃ n, ({ s.grantBase e ⟨.shared h, c⟩ with
      plans := tset s.plans h { s.plan h with bound := some e, pending := false } } : State).clip d = { s.clip d with useCount := n } := fun d => by
    show ∃ n, tget (tset s.clips c _) d = _
    rw [tget_tset_ite]
    split
    · rename_i own
      subst own
      exact ⟨_, rfl⟩
    · exact ⟨_, rfl⟩
  have queued : ∀ d, UpdateQueued s d → UpdateQueued { s.grantBase e ⟨.shared h, c⟩ with
      plans := tset s.plans h { s.plan h with bound := some e, pending := false } } d := fun d k => by
    obtain ⟨n, e'⟩ := clips d
    refine k.imp id fun begun => ?_
    rw [e', entryImage_useCount]
    exact begun
  obtain ⟨m, e', mode⟩ := (s.grant_shared e h c).owned owned
  have updates := fun d k => (queued d k).issueFetch e
  refine ⟨by rw [e']; rfl, by rw [e', owned]; exact mode, fun d => ?_, updates⟩
  rw [e']
  exact clips d

/-- A shared stream's request for a READY clip is granted, waits or is held. -/
theorem request (owned : s.memory.mode = .owned) {h : PlanId} {c : ClipId} (clip : s.isReady c = true) :
    Streamed s (s.run [.request ⟨.shared h, c⟩]) := by
  cases owns : s.ownsEngine (.shared h) with
  | true =>
    rw [State.run_request_held owns]
    exact records s _ _
  | false =>
    cases scanning : s.arbiter.scanning with
    | true =>
      rw [State.run_request_waits owns (.inl scanning) (by rw [show Owner.cls _ = 2 from rfl]; decide)]
      exact records s _ _
    | false =>
      cases free : s.freeEngine with
      | none =>
        rw [State.run_request_waits owns (.inr free) (by rw [show Owner.cls _ = 2 from rfl]; decide)]
        exact records s _ _
      | some e =>
        rw [State.run_request_granted owns scanning free clip]
        exact grant owned e h c

theorem of_ite {c : Prop} [Decidable c] (h : c → Streamed s t) : Streamed s (if c then t else s) := by
  split
  · exact h ‹c›
  · exact refl s

theorem judgeStream (owned : s.memory.mode = .owned) (h : PlanId) : Streamed s (s.judgeStream h) := by
  unfold State.judgeStream
  split
  · exact refl s
  · split
    · exact refl s
    · exact refl s
    · dsimp only
      rename_i c _
      refine of_ite fun asked => ?_
      exact (records s _ _).trans (request (s := s.modPlan h fun x => { x with pending := true }) owned asked.2.1)

end Streamed

/-- A plan in use with a READY clip as its background and no stream makes its request (R151). -/
theorem State.judgeStream_asks {s : State} {h : PlanId} {r : PlanRecord} {c : ClipId} (record : (s.plan h).record = some r)
    (background : r.background = .shared c) (used : 0 < (s.plan h).useCount) (clip : s.isReady c = true)
    (idle : ∀ e, (s.plan h).bound = some e → (s.eng e).state ≠ .priming ∧ (s.eng e).state ≠ .playing) (pending : (s.plan h).pending = false) :
    s.judgeStream h = (s.modPlan h fun x => { x with pending := true }).run [.request ⟨.shared h, c⟩] := by
  unfold State.judgeStream
  rw [record]
  dsimp only
  rw [background]
  dsimp only
  refine if_pos ⟨used, clip, ?_, pending⟩
  cases bound : (s.plan h).bound with
  | none => rfl
  | some e =>
    obtain ⟨priming, playing⟩ := idle e bound
    dsimp only
    rw [decide_eq_false priming, decide_eq_false playing]
    rfl

/-- A fold in which one element alone does something. -/
theorem foldl_only {α β : Type} (f : β → α → β) (P : β → Prop) {a : α} {b : β} (start : P b) (done : P (f b a))
    (others : ∀ x u, P u → x ≠ a → f u x = u) {l : List α} (mem : a ∈ l) (once : l.Nodup) : l.foldl f b = f b a := by
  have still : ∀ (l : List α) (u : β), P u → a ∉ l → l.foldl f u = u := by
    intro l
    induction l with
    | nil => exact fun u _ _ => rfl
    | cons x rest ih =>
      intro u hu out
      rw [List.mem_cons, not_or] at out
      obtain ⟨other, out⟩ := out
      rw [List.foldl_cons, others x u hu (Ne.symm other)]
      exact ih u hu out
  induction l with
  | nil => exact absurd mem List.not_mem_nil
  | cons x rest ih =>
    rw [List.nodup_cons] at once
    obtain ⟨out, once⟩ := once
    rw [List.foldl_cons]
    rcases List.mem_cons.1 mem with e | mem
    · subst e
      exact still rest _ done out
    · rw [others x b start (fun e => out (e ▸ mem))]
      exact ih mem once

/-- One plan's step of the streams judged for a clip (R151). -/
def State.judgePlanOn (c : ClipId) (s : State) (h : PlanId) : State :=
  (s.plan h).record.elim s fun r => if r.background = .shared c then s.judgeStream h else s

section Judge
variable {s : State} {c : ClipId}

theorem State.judgePlansOn_eq : s.judgePlansOn c = (List.finRange 16).foldl (State.judgePlanOn c) s := by
  unfold State.judgePlansOn
  congr 1
  funext t h
  unfold State.judgePlanOn
  cases (t.plan h).record <;> rfl

/-- A plan with another background, or with no user, makes no request. -/
theorem State.judgePlanOn_idle {h : PlanId}
    (idle : ∀ r, (s.plan h).record = some r → r.background = .shared c → (s.plan h).useCount = 0) : s.judgePlanOn c h = s := by
  unfold State.judgePlanOn
  cases record : (s.plan h).record with
  | none => rfl
  | some r =>
    dsimp only [Option.elim]
    split
    · exact State.judgeStream_of_unused (idle r record ‹_›)
    · rfl

theorem State.judgePlansOn_idle (idle : ∀ h r, (s.plan h).record = some r → r.background = .shared c → (s.plan h).useCount = 0) :
    s.judgePlansOn c = s := by
  rw [State.judgePlansOn_eq]
  induction List.finRange 16 with
  | nil => rfl
  | cons h rest ih => rw [List.foldl_cons, State.judgePlanOn_idle (idle h), ih]

theorem State.judgePlansOn_streamed (owned : s.memory.mode = .owned) : Streamed s (s.judgePlansOn c) := by
  rw [State.judgePlansOn_eq]
  refine List.foldlRecOn _ _ (.refl s) fun t k h _ => k.trans ?_
  unfold State.judgePlanOn
  cases (t.plan h).record with
  | none => exact .refl t
  | some r => exact .of_ite fun _ => .judgeStream (k.mode.trans owned) h

end Judge

end Sys2Proof.Machine
end

section
set_option Elab.async false
/-! ## CLIP_CLOSE (O36) -/

namespace Sys2Proof.Machine

/-- Of two writes to one place of a table the later stands. -/
theorem tset_tset {α : Type} {n : Nat} (t : Table α n) (i : Fin n) (x y : α) : tset (tset t i x) i y = tset t i y := by
  unfold tset
  exact Vector.set_set ..

theorem State.rederiveAll_rederived (s : State) : Rederived s s.rederiveAll :=
  ⟨fun p => by simp only [State.rederiveAll, tget_tmap]; rfl, fun l => by simp only [State.rederiveAll, tget_tmap]; rfl⟩

section Write
variable {u : State} {c : ClipId} {given : BitVec 32}

/-! ### The end of a write (R126) -/

/-- The write's end once its sums are compared, before the plans' streams are judged (R126). -/
def State.writeEnded (u : State) (c : ClipId) (state : ClipState) : State :=
  (({ u with write := .empty }.modClip c fun x => { x with state := state, sum := u.write.sum }).queueUpdate c).report
    (.clipState c state .closed (some u.write.sum))

theorem State.finishWrite_damaged (clip : u.write.clip = some c) (closing : u.write.closing = some given)
    (all : u.write.programmed = (u.clip c).length) (bad : u.write.sum ≠ given) : u.finishWrite = u.writeEnded c .damaged := by
  unfold State.finishWrite
  rw [clip, closing]
  dsimp only
  rw [if_pos all, if_neg bad]
  rfl

theorem State.finishWrite_ready (clip : u.write.clip = some c) (closing : u.write.closing = some given)
    (all : u.write.programmed = (u.clip c).length) (good : u.write.sum = given) :
    u.finishWrite = ((u.writeEnded c .ready).judgePlansOn c).finish u := by
  unfold State.finishWrite
  rw [clip, closing]
  dsimp only
  rw [if_pos all, if_pos good]
  rfl

/-- A write ends at a closing clip's last sample alone. -/
theorem State.finishWrite_open (h : u.write.closing = none ∨ ∀ c, u.write.clip = some c → u.write.programmed ≠ (u.clip c).length) :
    u.finishWrite = u := by
  unfold State.finishWrite
  split
  · rename_i c given clip closing
    exact if_neg (h.resolve_left (by rw [closing]; exact Option.some_ne_none given) c clip)
  · rfl

/-- The record of a clip whose write has ended. -/
def State.endedClip (u : State) (c : ClipId) (state : ClipState) : Clip := { u.clip c with state := state, sum := u.write.sum }

/-- With the memory owned the write's end changes its own records, the port and the report queue. -/
theorem State.writeEnded_owned (owned : u.memory.mode = .owned) (c : ClipId) (state : ClipState) :
    UpdateQueued (u.writeEnded c state) c ∧ ∃ m, u.writeEnded c state = { u with
      write := .empty, clips := tset u.clips c (u.endedClip c state), memory := m
      link := (u.report (.clipState c state .closed (some u.write.sum))).link } ∧ m.mode = .owned := by
  refine ⟨State.queueUpdate_queued _ c, ?_⟩
  obtain ⟨m, e, mode⟩ := (State.queueUpdate_settled
    ({ u with write := .empty }.modClip c fun x => { x with state := state, sum := u.write.sum }) c).owned owned
  exact ⟨m, by unfold State.writeEnded; rw [e]; rfl, mode⟩

/-- What every write's end leaves, whatever the streams judged for its clip set off. -/
structure WriteClosed (u t : State) (c : ClipId) (state : ClipState) : Prop where
  clip : t.clip c = { u.clip c with state := state, sum := u.write.sum, useCount := (t.clip c).useCount }
  write : t.write = .empty
  mode : t.memory.mode = .owned
  queued : UpdateQueued t c
  flash : t.flash = u.flash
  freeSlabs : t.freeSlabs = u.freeSlabs
  link : t.link = (u.report (.clipState c state .closed (some u.write.sum))).link

/-- No clip but the write's, and no use count, changes. -/
structure ClipAlone (u t : State) (c : ClipId) : Prop where
  others : ∀ d, d ≠ c → t.clip d = u.clip d
  count : (t.clip c).useCount = (u.clip c).useCount

variable (owned : u.memory.mode = .owned)
include owned

theorem State.writeEnded_closed (c : ClipId) (state : ClipState) :
    WriteClosed u (u.writeEnded c state) c state ∧ ClipAlone u (u.writeEnded c state) c := by
  obtain ⟨queued, m, e, mode⟩ := State.writeEnded_owned owned c state
  have own : (u.writeEnded c state).clip c = u.endedClip c state := by
    rw [e]
    exact tget_tset_same _ _ _
  exact ⟨⟨by rw [own]; rfl, by rw [e], by rw [e]; exact mode, queued, by rw [e], by rw [e], by rw [e]⟩,
    ⟨fun d other => by rw [e]; exact tget_tset_ne _ _ _ _ (Ne.symm other), by rw [own]; rfl⟩⟩

theorem State.writeEnded_streamed (c : ClipId) :
    Streamed (u.writeEnded c .ready) ((u.writeEnded c .ready).judgePlansOn c) := by
  obtain ⟨_, m, e, mode⟩ := State.writeEnded_owned owned c .ready
  exact State.judgePlansOn_streamed (by rw [e]; exact mode)

theorem State.writeEnded_judged (c : ClipId) : WriteClosed u (((u.writeEnded c .ready).judgePlansOn c).finish u) c .ready := by
  obtain ⟨⟨clip, write, mode, queued, flash, freeSlabs, link⟩, _⟩ := State.writeEnded_closed owned c .ready
  have streamed := State.writeEnded_streamed owned c
  obtain ⟨n, clips⟩ := streamed.clips c
  have frame := streamed.frame
  generalize (u.writeEnded c .ready).judgePlansOn c = v at streamed clips frame
  refine ⟨?_, ?_, ?_, ?_, ?_, ?_, ?_⟩
  · rw [show (v.finish u).clip c = v.clip c from rfl, clips, clip]
  · exact (congrArg State.write frame).trans write
  · exact streamed.mode.trans mode
  · exact streamed.updates c queued
  · exact (congrArg State.flash frame).trans flash
  · exact (congrArg State.freeSlabs frame).trans freeSlabs
  · exact (congrArg State.link frame).trans link

/-- With no user of the clip the write's end is followed by nothing but the feed lists' re-deriving. -/
theorem State.writeEnded_idle (idle : ∀ h r, (u.plan h).record = some r → r.background = .shared c → (u.plan h).useCount = 0) :
    ((u.writeEnded c .ready).judgePlansOn c).finish u = (u.writeEnded c .ready).rederiveAll := by
  obtain ⟨_, m, e, _⟩ := State.writeEnded_owned owned c .ready
  have plans : (u.writeEnded c .ready).plans = u.plans := by rw [e]
  rw [State.judgePlansOn_idle fun h r => by
    rw [show (u.writeEnded c .ready).plan h = u.plan h from congrArg (tget · h) plans]
    exact idle h r]
  exact State.finish_of_records (by rw [e]) plans (by rw [e])

/-- What the write's end leaves when no plan in use has the clip as its background. -/
theorem State.writeEnded_idle_frame (idle : ∀ h r, (u.plan h).record = some r → r.background = .shared c → (u.plan h).useCount = 0) :
    ∃ t, ((u.writeEnded c .ready).judgePlansOn c).finish u = t ∧ ClipAlone u t c ∧ Rederived u t ∧
      t = { u with clips := t.clips, write := t.write, memory := t.memory, ears := t.ears, sends := t.sends, link := t.link } := by
  obtain ⟨_, ⟨others, count⟩⟩ := State.writeEnded_closed owned c .ready
  obtain ⟨_, m, e, _⟩ := State.writeEnded_owned owned c .ready
  refine ⟨_, State.writeEnded_idle owned idle, ⟨others, count⟩, ?_, ?_⟩
  · exact Rederived.of_lists (State.rederiveAll_rederived _) (by rw [e]) (by rw [e])
  · rw [State.rederiveAll_frame, e]

end Write

/-! ### The stream of a plan that has the clip (R151) -/

section Stream
variable {v : State} {c : ClipId} {h : PlanId} {r : PlanRecord} {e : EngId}

/-- A clip that comes out READY is requested by the one plan in use that has it as its background: the lowest-numbered FREE engine. -/
theorem State.judgePlansOn_grants (owned : v.memory.mode = .owned) (clip : v.isReady c = true) (record : (v.plan h).record = some r)
    (background : r.background = .shared c) (used : 0 < (v.plan h).useCount) (bound : (v.plan h).bound = none)
    (pending : (v.plan h).pending = false) (owns : ∀ d, (v.eng d).state = .free ∨ (v.eng d).owner ≠ some (.shared h))
    (only : ∀ g q, g ≠ h → (v.plan g).record = some q → q.background = .shared c → (v.plan g).useCount = 0)
    (scanning : v.arbiter.scanning = false) (free : (v.eng e).state = .free) (first : ∀ d, d < e → (v.eng d).state ≠ .free) :
    ∃ m, v.judgePlansOn c = { v.grantBase e ⟨.shared h, c⟩ with
      plans := tset v.plans h { v.plan h with bound := some e }, memory := m } := by
  have asked : v.judgePlanOn c h = (v.modPlan h fun x => { x with pending := true }).grant e ⟨.shared h, c⟩ := by
    unfold State.judgePlanOn
    rw [record]
    dsimp only [Option.elim]
    rw [if_pos background, State.judgeStream_asks record background used clip (fun d e' => nomatch bound.symm.trans e') pending]
    exact State.run_request_granted (s := v.modPlan h fun x => { x with pending := true }) (w := ⟨.shared h, c⟩) (State.ownsEngine_none owns) scanning (State.freeEngine_first free first) clip
  obtain ⟨m, granted, _⟩ := (State.grant_shared (v.modPlan h fun x => { x with pending := true }) e h c).owned owned
  have done : v.judgePlanOn c h = { v.grantBase e ⟨.shared h, c⟩ with
      plans := tset v.plans h { v.plan h with bound := some e }, memory := m } := by
    rw [asked, granted, State.plan_modPlan_same, ← pending]
    exact congrArg (fun plans => ({ v.grantBase e ⟨.shared h, c⟩ with plans := plans, memory := m } : State)) (tset_tset _ _ _ _)
  refine ⟨m, ?_⟩
  rw [State.judgePlansOn_eq, ← done]
  refine foldl_only (State.judgePlanOn c) (fun t => ∀ g, g ≠ h → t.plan g = v.plan g) (fun g _ => rfl) (fun g other => ?_)
    (fun g t plans other => State.judgePlanOn_idle (by rw [plans g other]; exact fun q => only g q other)) (List.mem_finRange h) (List.nodup_finRange 16)
  rw [done]
  exact tget_tset_ne _ _ _ _ (Ne.symm other)

end Stream

/-- What the one plan's stream leaves: the plan bound, the engine PRIMING, the clip with one use more (R138, R151). -/
theorem State.writeEnded_grants {u : State} {c : ClipId} {h : PlanId} {r : PlanRecord} {e : EngId} (owned : u.memory.mode = .owned)
    (record : (u.plan h).record = some r) (background : r.background = .shared c) (used : 0 < (u.plan h).useCount)
    (bound : (u.plan h).bound = none) (pending : (u.plan h).pending = false)
    (owns : ∀ d, (u.eng d).state = .free ∨ (u.eng d).owner ≠ some (.shared h))
    (only : ∀ g q, g ≠ h → (u.plan g).record = some q → q.background = .shared c → (u.plan g).useCount = 0)
    (scanning : u.arbiter.scanning = false) (free : (u.eng e).state = .free) (first : ∀ d, d < e → (u.eng d).state ≠ .free) :
    ∃ t, ((u.writeEnded c .ready).judgePlansOn c).finish u = t ∧
      t.plan h = { u.plan h with bound := some e } ∧ (t.clip c).useCount = (u.clip c).useCount + 1 ∧
      t.eng e = { Engine.idle with
        state := .priming, owner := some (.shared h), cls := 2, clip := some c, loop := true, grant := u.arbiter.grants } ∧
      (∀ d, d ≠ e → t.eng d = u.eng d) ∧ t.arbiter = { u.arbiter with grants := u.arbiter.grants + 1 } := by
  obtain ⟨_, m, ended, mode⟩ := State.writeEnded_owned owned c .ready
  have own : (u.writeEnded c .ready).clip c = u.endedClip c .ready := by
    rw [ended]
    exact tget_tset_same _ _ _
  have plan : ∀ g, (u.writeEnded c .ready).plan g = u.plan g := fun g => by rw [ended]; rfl
  have eng : ∀ d, (u.writeEnded c .ready).eng d = u.eng d := fun d => by rw [ended]; rfl
  have arbiter : (u.writeEnded c .ready).arbiter = u.arbiter := by rw [ended]
  have mode : (u.writeEnded c .ready).memory.mode = .owned := by rw [ended]; exact mode
  clear ended
  generalize u.writeEnded c .ready = v at own plan eng arbiter mode
  obtain ⟨m', granted⟩ := State.judgePlansOn_grants (v := v) (c := c) (h := h) (r := r) (e := e) mode
    (by unfold State.isReady; rw [own]; rfl) (by rw [plan]; exact record) background (by rw [plan]; exact used) (by rw [plan]; exact bound)
    (by rw [plan]; exact pending) (fun d => by rw [eng]; exact owns d) (fun g q => by rw [plan]; exact only g q) (by rw [arbiter]; exact scanning)
    (by rw [eng]; exact free) (fun d => by rw [eng]; exact first d)
  refine ⟨_, rfl, ?_⟩
  rw [granted]
  refine ⟨?_, ?_, ?_, fun d other => ?_, ?_⟩
  · exact (tget_tset_same _ _ _).trans (by rw [plan])
  · show (tget (tset v.clips c _) c).useCount = _
    rw [tget_tset_same, own]
    rfl
  · exact (tget_tset_same _ _ _).trans (by rw [State.primed, arbiter]; rfl)
  · exact (tget_tset_ne _ _ _ _ (Ne.symm other)).trans (eng d)
  · show ({ v.arbiter with grants := v.arbiter.grants + 1 } : Arbiter) = _
    rw [arbiter]

/-- Settles O36: the checks in their order, and the write's end (`State.finishWrite_damaged`, `State.finishWrite_ready`) with the streams it
sets off (`State.writeEnded_idle_frame`, `State.writeEnded_grants`). -/
theorem clipClose : Obligations.ClipClose := by
  intro s c tag sum ready
  have own : s.memory.mode = .owned → ownClipClose ⟨c.val, sum⟩ s = if (s.clip c).state ≠ .writing ∨ s.write.closing ≠ none then refuse s .busy
      else if s.write.expected < (s.clip c).length then refuse s .sequence
      else accept { s with write := { s.write with closing := some (BitVec.ofNat 32 sum) } }.finishWrite := fun owned => withClip_val owned c _
  refine ⟨fun busy => ?_, fun owned writing notClosing clip => ⟨fun short => ?_, fun long more => ?_, fun long all => ?_⟩⟩
  all_goals rw [exec_clipClose_ready ready]
  · by_cases owned : s.memory.mode = .owned
    · rw [own owned, if_pos (busy.resolve_left fun k => k owned)]
      rfl
    · exact congrArg (fun h : Handled => Host.Outcome.next (h.replied 0x32 tag)) (withClip_away owned c _)
  all_goals rw [own owned, if_neg (show ¬ ((s.clip c).state ≠ .writing ∨ s.write.closing ≠ none) from
    fun k => k.elim (fun n => n writing) fun n => n notClosing)]
  · rw [if_pos short]
    rfl
  · rw [if_neg (not_lt.2 long), State.finishWrite_open (.inr fun d holds => by
      obtain rfl : c = d := Option.some.inj (clip.symm.trans holds)
      exact more)]
    rfl
  · rw [if_neg (not_lt.2 long)]
    let u : State := { s with write := { s.write with closing := some (BitVec.ofNat 32 sum) } }
    by_cases good : s.write.sum = BitVec.ofNat 32 sum
    · have ends := State.finishWrite_ready (u := u) (c := c) clip rfl all good
      have idle_frame := fun idle => State.writeEnded_idle_frame (u := u) (c := c) owned idle
      have grants := fun {h r e} => State.writeEnded_grants (u := u) (c := c) (h := h) (r := r) (e := e) owned
      obtain ⟨record, write, _, queued, flash, freeSlabs, link⟩ := State.writeEnded_judged (u := u) owned c
      generalize ((u.writeEnded c .ready).judgePlansOn c).finish u = t at ends idle_frame grants record write queued flash freeSlabs link
      refine ⟨t.ok 0x32 tag, by rw [ends]; rfl, by rw [if_pos good]; exact record, write, queued, flash, freeSlabs, fun bad => absurd good bad,
        fun _ => ⟨congrArg (Link.placeReply · _) link, fun idle => ?_,
        fun h r e plan background used bound pending owns only scanning free first => ?_⟩⟩
      · obtain ⟨_, e, ⟨others, count⟩, rederived, frame⟩ := idle_frame idle
        subst e
        exact ⟨others, count, rederived, congrArg (State.ok · 0x32 tag) frame⟩
      · obtain ⟨_, e, granted⟩ := grants plan background used bound pending owns only scanning free first
        subst e
        exact granted
    · have ends := State.finishWrite_damaged (u := u) (c := c) clip rfl all good
      obtain ⟨⟨record, write, _, queued, flash, freeSlabs, link⟩, ⟨others, count⟩⟩ := State.writeEnded_closed (u := u) owned c .damaged
      obtain ⟨_, m, frame, _⟩ := State.writeEnded_owned (u := u) owned c .damaged
      generalize u.writeEnded c .damaged = t at ends record write queued flash freeSlabs link others count frame
      refine ⟨t.ok 0x32 tag, by rw [ends]; rfl, by rw [if_neg good]; exact record, write, queued, flash, freeSlabs,
        fun _ => ⟨others, count, congrArg (Link.placeReply · _) link, by rw [frame]; rfl⟩, fun k => absurd k good⟩

end Sys2Proof.Machine
end

section
set_option Elab.async false
/-! ## The completions of the memory port (O42) -/

namespace Sys2Proof.Machine

/-! ### Bytes and samples written to the flash -/

theorem flashRead_flashWriteBytes_outside (m : List Host.Cell) (a : Nat) (bytes : List Byte) {b : Nat} (out : b < a ∨ a + bytes.length ≤ b) :
    flashRead (flashWriteBytes m a bytes) b = flashRead m b := by
  induction bytes generalizing m a with
  | nil => rfl
  | cons v vs ih =>
    rw [List.length_cons] at out
    exact (ih (flashWrite m a v) (a + 1) (by omega)).trans (flashRead_flashWrite_other m a b v (by omega))

theorem flashRead_flashWriteBytes_inside {m : List Host.Cell} (wf : Memory.wf m = true) (a : Nat) {bytes : List Byte} {j : Nat} {v : Byte}
    (here : bytes[j]? = some v) : flashRead (flashWriteBytes m a bytes) (a + j) = v := by
  induction bytes generalizing m a j with
  | nil => exact nomatch here
  | cons w vs ih =>
    cases j with
    | zero =>
      obtain rfl : w = v := Option.some.inj here
      exact (flashRead_flashWriteBytes_outside _ _ _ (.inl (Nat.lt_succ_self a))).trans (flashRead_flashWrite_same m a w wf)
    | succ k =>
      rw [show a + (k + 1) = a + 1 + k by omega]
      exact ih (flashWrite_wf m a w wf) (a + 1) here

theorem flashReadBytes_flashWriteBytes {m : List Host.Cell} (wf : Memory.wf m = true) (a : Nat) (bytes : List Byte) :
    flashReadBytes (flashWriteBytes m a bytes) a bytes.length = bytes := by
  refine List.ext_getElem (by simp [flashReadBytes]) fun i h _ => ?_
  have inside : i < bytes.length := by simpa [flashReadBytes] using h
  simp only [flashReadBytes, List.getElem_map, List.getElem_range]
  exact flashRead_flashWriteBytes_inside wf a (List.getElem?_eq_getElem inside)

theorem sampleBytes_cons (x : Sample) (rest : List Sample) :
    sampleBytes (x :: rest) = BitVec.ofNat 8 x.toNat :: BitVec.ofNat 8 (x.toNat / 256) :: sampleBytes rest := rfl

theorem sampleBytes_length (samples : List Sample) : (sampleBytes samples).length = 2 * samples.length := by
  induction samples with
  | nil => rfl
  | cons x rest ih =>
    rw [sampleBytes_cons, List.length_cons, List.length_cons, List.length_cons, ih]
    omega

/-- The two bytes of a sample, the less significant one first (log 5). -/
theorem sampleBytes_at {samples : List Sample} {i : Nat} {x : Sample} (here : samples[i]? = some x) :
    (sampleBytes samples)[2 * i]? = some (BitVec.ofNat 8 x.toNat) ∧ (sampleBytes samples)[2 * i + 1]? = some (BitVec.ofNat 8 (x.toNat / 256)) := by
  induction samples generalizing i with
  | nil => exact nomatch here
  | cons y rest ih =>
    cases i with
    | zero =>
      obtain rfl : y = x := Option.some.inj here
      exact ⟨rfl, rfl⟩
    | succ k => exact ih here

/-- A sample's two bytes make the sample again. -/
theorem sample_of_bytes (x : Sample) : (BitVec.ofNat 8 (x.toNat / 256) ++ BitVec.ofNat 8 x.toNat : BitVec 16) = x := by
  apply BitVec.eq_of_toNat_eq
  have small : x.toNat < 65536 := x.isLt
  have low : x.toNat % 2 ^ 8 < 2 ^ 8 := Nat.mod_lt _ (by decide)
  rw [BitVec.toNat_append, BitVec.toNat_ofNat, BitVec.toNat_ofNat, ← Nat.shiftLeft_add_eq_or_of_lt low, Nat.shiftLeft_eq]
  omega

/-- Samples written read back. -/
theorem flashSample_written {m : List Host.Cell} (wf : Memory.wf m = true) (a : Nat) {samples : List Sample} {i : Nat} {x : Sample}
    (here : samples[i]? = some x) : flashSample (flashWriteBytes m a (sampleBytes samples)) (a + 2 * i) = x := by
  obtain ⟨low, high⟩ := sampleBytes_at here
  unfold flashSample
  rw [flashRead_flashWriteBytes_inside wf a low, show a + 2 * i + 1 = a + (2 * i + 1) by omega,
    flashRead_flashWriteBytes_inside wf a high]
  exact sample_of_bytes x

theorem flashRead_samples_outside (m : List Host.Cell) (a : Nat) (samples : List Sample) {b : Nat}
    (out : b < a ∨ a + 2 * samples.length ≤ b) : flashRead (flashWriteBytes m a (sampleBytes samples)) b = flashRead m b :=
  flashRead_flashWriteBytes_outside m a _ (by rw [sampleBytes_length]; exact out)

/-! ### What the completions leave -/

section Completion
variable {s : State}

/-- The state of a block program's completion, before the end of a closing write and the port's settling (R125). -/
def State.programmed (s : State) (slab offset : Nat) (block : List Sample) (stands : Bool) : State :=
  { s.endOp with
    flash := flashWriteBytes s.flash (slab * 65536 + offset * 2) (sampleBytes block)
    write := if stands then s.write.programBlock block.length block else s.write }

theorem exec_programComplete {slab offset : Nat} {block : List Sample} {stands : Bool}
    (op : s.memory.op = some (.program slab offset block stands)) :
    exec (.programComplete none) s = .next
      (if stands then (s.programmed slab offset block stands).finishWrite else s.programmed slab offset block stands).settlePort := by
  refine congrArg Host.Outcome.next ?_
  unfold State.programComplete
  rw [op]
  cases stands <;> rfl

theorem exec_eraseComplete {slab : Nat} (op : s.memory.op = some (.erase slab)) :
    exec .eraseComplete s = .next ({ s.endOp with
      flash := flashErase s.flash slab, write := { s.write with erased := s.write.erased + 1 } } : State).settlePort := by
  refine congrArg Host.Outcome.next ?_
  unfold State.eraseComplete
  rw [op]

theorem exec_updateComplete {c : ClipId} {image : List Byte} (op : s.memory.op = some (.update c image)) :
    exec .directoryUpdateComplete s = .next ({ s.endOp with flash := flashWriteBytes s.flash (1024 * c.val) image } : State).settlePort := by
  refine congrArg Host.Outcome.next ?_
  unfold State.updateComplete
  rw [op]
  rfl

/-- The write buffer of one message after a block (R125). -/
theorem dropProgrammed_one (base programmed : Nat) (m : List Sample) :
    dropProgrammed base programmed [m] = if base + m.length ≤ programmed then [] else [m] := by
  unfold dropProgrammed
  split <;> rfl

end Completion

/-- Settles O42: the bytes of each completion (`flashSample_written` and the lemmas beside it), and a closing write's end
(`State.writeEnded_closed`, `State.writeEnded_judged`, `State.writeEnded_idle_frame`). -/
theorem memoryCompletions : Obligations.MemoryCompletions := by
  intro s wf
  refine ⟨fun slab offset block stands op more => ?_, fun slab offset block c given op owned clip closing all => ?_, fun slab op => ?_,
    fun c image op => ?_⟩
  · have stays : (if stands then (s.programmed slab offset block stands).finishWrite else s.programmed slab offset block stands)
        = s.programmed slab offset block stands := by
      cases stands with
      | false => rfl
      | true => exact State.finishWrite_open more
    rw [exec_programComplete op, stays]
    obtain ⟨⟨memory, link, frame⟩, _, _⟩ := (s.programmed slab offset block stands).settlePort_settled
    refine ⟨_, rfl, ?_⟩
    rw [frame]
    refine ⟨fun i x here => flashSample_written wf _ here, fun a out => flashRead_samples_outside _ _ _ out, fun old => ?_, fun now => ?_, rfl⟩
    · subst old
      rfl
    · subst now
      refine ⟨rfl, rfl, rfl, rfl, rfl, rfl, fun m one => ?_⟩
      have buffer : (s.write.programBlock block.length block).buffer
          = if s.write.expected - m.length + m.length ≤ s.write.programmed + block.length then [] else [m] := by
        unfold WriteContext.programBlock
        dsimp only
        rw [one, dropProgrammed_one, List.flatten_singleton]
      exact ⟨fun gone => buffer.trans (if_pos gone), fun stays => buffer.trans (if_neg (not_le.2 stays))⟩
  · rw [exec_programComplete op, if_pos rfl]
    let u : State := s.programmed slab offset block true
    have back : ∀ i x, block[i]? = some x → flashSample u.flash (slab * 65536 + offset * 2 + 2 * i) = x :=
      fun i x here => flashSample_written wf _ here
    by_cases good : addWords s.write.sum block = given
    · have ends := State.finishWrite_ready (u := u) (c := c) clip closing all good
      have idle_frame := fun idle => State.writeEnded_idle_frame (u := u) (c := c) owned idle
      obtain ⟨record, write, mode, queued, flash, freeSlabs, link⟩ := State.writeEnded_judged (u := u) owned c
      generalize ((u.writeEnded c .ready).judgePlansOn c).finish u = t at ends idle_frame record write mode queued flash freeSlabs link
      have updated := queued.settlePort
      obtain ⟨m, settled⟩ := State.settlePort_owned mode
      rw [settled] at updated
      refine ⟨_, congrArg Host.Outcome.next ((congrArg State.settlePort ends).trans settled), ?_⟩
      refine ⟨by rw [show State.flash { t with memory := m } = u.flash from flash]; exact back, by rw [if_pos good]; exact record, write, updated,
        freeSlabs, fun bad => absurd good bad, fun _ => ⟨link, fun idle => ?_⟩⟩
      obtain ⟨_, e, ⟨others, count⟩, rederived, frame⟩ := idle_frame idle
      subst e
      exact ⟨others, count, rederived, by rw [frame]; rfl⟩
    · have ends := State.finishWrite_damaged (u := u) (c := c) clip closing all good
      obtain ⟨⟨record, write, mode, queued, flash, freeSlabs, link⟩, ⟨others, count⟩⟩ := State.writeEnded_closed (u := u) owned c .damaged
      obtain ⟨_, m', frame, _⟩ := State.writeEnded_owned (u := u) owned c .damaged
      generalize u.writeEnded c .damaged = t at ends record write mode queued flash freeSlabs link others count frame
      have updated := queued.settlePort
      obtain ⟨m, settled⟩ := State.settlePort_owned mode
      rw [settled] at updated
      refine ⟨_, congrArg Host.Outcome.next ((congrArg State.settlePort ends).trans settled), ?_⟩
      exact ⟨by rw [show State.flash { t with memory := m } = u.flash from flash]; exact back, by rw [if_neg good]; exact record, write, updated,
        freeSlabs, fun _ => ⟨others, count, link, by rw [frame]; rfl⟩, fun k => absurd k good⟩
  · rw [exec_eraseComplete op]
    obtain ⟨⟨memory, link, frame⟩, _, _⟩ := State.settlePort_settled { s.endOp with
      flash := flashErase s.flash slab, write := { s.write with erased := s.write.erased + 1 } }
    refine ⟨_, rfl, ?_⟩
    rw [frame]
    exact ⟨fun a low high => flashRead_flashErase_inside _ _ _ low high, fun a out => flashRead_flashErase_outside _ _ _ out, rfl, rfl⟩
  · rw [exec_updateComplete op]
    obtain ⟨⟨memory, link, frame⟩, _, _⟩ := State.settlePort_settled { s.endOp with flash := flashWriteBytes s.flash (1024 * c.val) image }
    refine ⟨_, rfl, ?_⟩
    rw [frame]
    exact ⟨flashReadBytes_flashWriteBytes wf _ _, fun a out => flashRead_flashWriteBytes_outside _ _ _ out, rfl⟩

end Sys2Proof.Machine
end

section
set_option Elab.async false
/-! ## A block fetched (O41) -/

namespace Sys2Proof.Machine

/-! ### The samples that a fetch reads (R138) -/

theorem loopRun_length (c : Clip) (n i : Nat) : (loopRun c n i).1.length = n := by
  induction n generalizing i with
  | zero => rfl
  | succ n ih => exact congrArg (· + 1) (ih (loopNext c i))

/-- A looping fetch that does not wrap inside its block reads on, and wraps at the end alone. -/
theorem loopRun_straight {c : Clip} {n i : Nat} (h : i + (n + 1) ≤ c.length) :
    loopRun c (n + 1) i = ((List.range (n + 1)).map (i + ·), if i + (n + 1) = c.length then c.loopStart.getD 0 else i + (n + 1)) := by
  induction n generalizing i with
  | zero =>
    refine Prod.ext rfl ?_
    show loopNext c i = _
    unfold loopNext
    by_cases last : i + 1 = c.length
    · rw [if_pos (by omega), if_pos last]
    · rw [if_neg (by omega), if_neg last]
  | succ n ih =>
    have next : loopNext c i = i + 1 := if_neg (by omega)
    have rest := ih (i := i + 1) (by omega)
    have run : loopRun c (n + 1 + 1) i = (i :: (loopRun c (n + 1) (i + 1)).1, (loopRun c (n + 1) (i + 1)).2) := by
      rw [← next]
      rfl
    rw [run, rest, List.range_succ_eq_map (n := n + 1), List.map_cons, List.map_map]
    refine Prod.ext (congrArg (i :: ·) (List.map_congr_left fun j _ => ?_)) ?_
    · show i + 1 + j = i + (j + 1)
      omega
    · dsimp only
      rw [show i + 1 + (n + 1) = i + (n + 1 + 1) by omega]

theorem fetchPlaces_length (c : Clip) (loop : Bool) (start : Nat) : (fetchPlaces c loop start).1.length = 64 := by
  unfold fetchPlaces
  cases loop with
  | true => exact (List.length_map _).trans (loopRun_length c 64 start)
  | false => exact (List.length_map _).trans List.length_range

/-- The clip sample of each place of a block that does not wrap inside itself. -/
theorem fetchPlaces_at {c : Clip} {loop : Bool} {start i : Nat} (straight : loop = true → start + 64 ≤ c.length) (inside : i < 64) :
    (fetchPlaces c loop start).1[i]? = some (if start + i < c.length then some (start + i) else none) := by
  unfold fetchPlaces
  cases loop with
  | true =>
    have room := straight rfl
    rw [if_pos rfl, loopRun_straight (n := 63) room, if_pos (show start + i < c.length by omega)]
    simp [inside]
  | false =>
    rw [if_neg Bool.false_ne_true]
    simp [inside]

/-- The fetch position after a block that does not wrap inside itself. -/
theorem fetchPlaces_next {c : Clip} {loop : Bool} {start : Nat} (straight : loop = true → start + 64 ≤ c.length) :
    (fetchPlaces c loop start).2 = if loop = true ∧ start + 64 = c.length then c.loopStart.getD 0 else start + 64 := by
  unfold fetchPlaces
  cases loop with
  | true =>
    rw [if_pos rfl, loopRun_straight (n := 63) (straight rfl)]
    dsimp only
    by_cases last : start + 64 = c.length
    · rw [if_pos last, if_pos ⟨rfl, last⟩]
    · rw [if_neg last, if_neg fun k => last k.2]
  | false => rw [if_neg Bool.false_ne_true, if_neg fun k => Bool.false_ne_true k.1]

section Fetch
variable {s : State} {e : EngId}

theorem State.fetchBlock_length (c : Clip) (places : List (Option Nat)) : (s.fetchBlock c places none).length = places.length := by
  unfold State.fetchBlock
  exact List.length_map _

/-- A place within the clip reads the image. -/
theorem State.fetchBlock_image {c : Clip} {places : List (Option Nat)} {i n a : Nat} (here : places[i]? = some (some n))
    (address : sampleAddress c n = some a) : (s.fetchBlock c places none)[i]? = some (flashSample s.flash a) := by
  unfold State.fetchBlock
  dsimp only
  rw [List.getElem?_map, here]
  dsimp only [Option.map_some]
  rw [address]

/-- A place beyond the length reads zero. -/
theorem State.fetchBlock_beyond {c : Clip} {places : List (Option Nat)} {i : Nat} (here : places[i]? = some none) :
    (s.fetchBlock c places none)[i]? = some 0 := by
  unfold State.fetchBlock
  dsimp only
  rw [List.getElem?_map, here]
  rfl

/-! ### The engine that the block reaches (R138) -/

/-- The block that a fetch for clip c brings engine e. -/
def State.fetched (s : State) (e : EngId) (c : ClipId) : Fetched :=
  ⟨s.fetchBlock (s.clip c) (fetchPlaces (s.clip c) (s.eng e).loop (s.eng e).fetchPos).1 none,
    !(s.eng e).loop && decide ((s.eng e).fetchPos < (s.clip c).length ∧ (s.clip c).length ≤ (s.eng e).fetchPos + 64)⟩

/-- The block joined to the engine's buffer, the operation ended. -/
def State.fetchJoined (s : State) (e : EngId) (c : ClipId) : State :=
  s.endOp.modEng e fun x => { x with
    buffer := x.buffer ++ [s.fetched e c]
    fetchPos := (fetchPlaces (s.clip c) (s.eng e).loop (s.eng e).fetchPos).2 }

/-- The engine with the block joined to its buffer, in a state of its own. -/
def State.fetchedEngine (s : State) (e : EngId) (c : ClipId) (state : EngineState) : Engine :=
  { s.eng e with
    buffer := (s.eng e).buffer ++ [s.fetched e c]
    fetchPos := (fetchPlaces (s.clip c) (s.eng e).loop (s.eng e).fetchPos).2
    state := state }

theorem State.fetchJoined_eng (c : ClipId) : (s.fetchJoined e c).eng e = s.fetchedEngine e c (s.eng e).state := State.eng_modEng_same ..

theorem State.fetchJoined_others {d : EngId} (c : ClipId) (other : d ≠ e) : (s.fetchJoined e c).eng d = s.eng d :=
  tget_tset_ne _ _ _ _ (Ne.symm other)

/-- Nothing remains to be fetched once a clip that does not loop is read to its end. -/
theorem State.fetchJoined_remains {c : ClipId} (clip : (s.eng e).clip = some c) :
    (s.fetchJoined e c).dataRemains e = false ↔ (s.eng e).loop = false ∧ (s.clip c).length ≤ (s.eng e).fetchPos + 64 := by
  unfold State.dataRemains
  rw [State.fetchJoined_eng, State.fetchedEngine]
  dsimp only
  rw [clip]
  dsimp only
  cases loop : (s.eng e).loop with
  | true => exact ⟨nofun, nofun⟩
  | false =>
    rw [Bool.false_or, decide_eq_false_iff_not, not_lt]
    exact ⟨fun h => ⟨rfl, h⟩, fun h => h.2⟩

/-- The start of a PRIMING engine: with two blocks, or with nothing left to fetch (R138). -/
def State.fetchStarts (s : State) (e : EngId) (c : ClipId) : Prop :=
  1 ≤ (s.eng e).buffer.length ∨ ((s.eng e).loop = false ∧ (s.clip c).length ≤ (s.eng e).fetchPos + 64)

theorem State.fetchJoined_starts {c : ClipId} (clip : (s.eng e).clip = some c) :
    (((s.fetchJoined e c).eng e).state = .priming ∧
      (2 ≤ ((s.fetchJoined e c).eng e).buffer.length ∨ (s.fetchJoined e c).dataRemains e = false)) ↔
      (s.eng e).state = .priming ∧ s.fetchStarts e c := by
  rw [State.fetchJoined_remains clip, State.fetchJoined_eng, State.fetchedEngine]
  dsimp only
  rw [List.length_append, List.length_singleton, Nat.succ_le_succ_iff]
  rfl

theorem exec_fetchComplete_discards {g : Nat} (op : s.memory.op = some (.fetch e g))
    (other : g ≠ (s.eng e).grant ∨ ((s.eng e).state ≠ .priming ∧ (s.eng e).state ≠ .playing)) :
    exec (.fetchComplete none) s = .next s.endOp.settlePort := by
  refine congrArg Host.Outcome.next ?_
  unfold State.fetchComplete
  rw [op]
  dsimp only
  cases (s.eng e).clip with
  | none => rfl
  | some c =>
    dsimp only
    rw [if_neg fun k => other.elim (fun n => n k.1) fun n => k.2.elim n.1 n.2]

theorem exec_fetchComplete_joins {c : ClipId} (op : s.memory.op = some (.fetch e (s.eng e).grant))
    (runs : (s.eng e).state = .priming ∨ (s.eng e).state = .playing) (clip : (s.eng e).clip = some c) :
    exec (.fetchComplete none) s = .next ((((s.fetchJoined e c).startPlaying s e).addFetch e).settlePort) := by
  refine congrArg Host.Outcome.next ?_
  unfold State.fetchComplete
  rw [op]
  dsimp only
  rw [clip]
  dsimp only
  rw [if_pos ⟨rfl, runs⟩]
  rfl

theorem State.beginWhisper_frame (s : State) (e : EngId) : s.beginWhisper e = { s with positions := (s.beginWhisper e).positions } := by
  unfold State.beginWhisper
  split
  · split <;> rfl
  · rfl

/-- What the start of a PRIMING engine changes. -/
theorem State.startPlaying_frame (t before : State) (e : EngId) : ∃ positions legs ears sends, t.startPlaying before e = { t with
    positions := positions, legs := legs, ears := ears, sends := sends
    engines := if (t.eng e).state = .priming ∧ (2 ≤ (t.eng e).buffer.length ∨ t.dataRemains e = false)
      then tset t.engines e { t.eng e with state := .playing } else t.engines } := by
  unfold State.startPlaying
  split
  · exact ⟨_, _, _, _, by rw [State.finish_frame, State.beginWhisper_frame]; rfl⟩
  · exact ⟨_, _, _, _, rfl⟩

end Fetch

/-- Settles O41: a discarded block settles the port alone; a wanted one joins the buffer (`fetchPlaces_at`, `fetchPlaces_next`), and its
engine may begin to play (`State.startPlaying_frame`). -/
theorem blockFetched : Obligations.BlockFetched := by
  intro s e g op
  refine ⟨fun other => ?_, fun c own runs clip straight => ?_⟩
  · rw [exec_fetchComplete_discards op other]
    obtain ⟨⟨memory, link, frame⟩, replies, _⟩ := s.endOp.settlePort_settled
    refine ⟨_, rfl, by rw [frame]; rfl, replies, fun port none_ => ?_⟩
    rw [State.settlePort_quiet (s := s.endOp) (by unfold State.endOp; rw [port]) none_]
    unfold State.endOp
    rw [port]
    exact ⟨rfl, rfl⟩
  · subst own
    rw [exec_fetchComplete_joins op runs clip]
    obtain ⟨positions, legs, ears, sends, started⟩ := (s.fetchJoined e c).startPlaying_frame s e
    obtain ⟨m, added, _⟩ := ((s.fetchJoined e c).startPlaying s e).addFetch_memory e
    obtain ⟨⟨memory, link, settled⟩, replies, _⟩ := (((s.fetchJoined e c).startPlaying s e).addFetch e).settlePort_settled
    have same : ((s.fetchJoined e c).startPlaying s e).addFetch e = _ := added.trans (congrArg (fun u : State => { u with memory := m }) started)
    rw [same] at settled replies
    refine ⟨_, s.fetched e c, (congrArg (fun u : State => Host.Outcome.next u.settlePort) same).trans (congrArg Host.Outcome.next settled), ?_⟩
    refine ⟨?_, ?_, fun i a inside short address => ?_, fun i inside long => ?_, ?_, fun d other => ?_, ?_, rfl⟩
    · show tget (ite _ _ _) e = _
      rw [← fetchPlaces_next straight, apply_ite (tget · e), tget_tset_same]
      show (if _ then _ else (s.fetchJoined e c).eng e) = _
      have starting := State.fetchJoined_starts clip
      obtain priming | playing := runs
      · by_cases starts : s.fetchStarts e c
        · rw [if_pos (starting.2 ⟨priming, starts⟩), State.fetchJoined_eng]
          exact congrArg (s.fetchedEngine e c) (if_pos (.inr starts)).symm
        · rw [if_neg (fun k => starts (starting.1 k).2), State.fetchJoined_eng]
          exact congrArg (s.fetchedEngine e c) (priming.trans (if_neg fun k => k.elim (fun n => nomatch priming.symm.trans n) starts).symm)
      · rw [if_neg (fun k => nomatch playing.symm.trans (starting.1 k).1), State.fetchJoined_eng]
        exact congrArg (s.fetchedEngine e c) (playing.trans (if_pos (.inl playing)).symm)
    · exact (State.fetchBlock_length _ _).trans (fetchPlaces_length _ _ _)
    · exact State.fetchBlock_image ((fetchPlaces_at straight inside).trans (by rw [if_pos short])) address
    · exact State.fetchBlock_beyond ((fetchPlaces_at straight inside).trans (by rw [if_neg (not_lt.2 long)]))
    · show (!(s.eng e).loop && decide _) = true ↔ _
      rw [Bool.and_eq_true, Bool.not_eq_true', decide_eq_true_iff]
    · show tget (ite _ _ _) d = _
      rw [apply_ite (tget · d), tget_tset_ne _ _ _ _ (Ne.symm other), ite_self]
      exact State.fetchJoined_others c other
    · exact (congrArg (fun t : State => t.link.replies) settled).symm.trans replies

end Sys2Proof.Machine
end

section
set_option Elab.async false
/-! ## A session's engine that is also a queue's detached engine (O46)

The statement on WHISPER_DEADLINE_EXPIRY keeps the queue's detached engine whatever the entry is. A skipped CALL_WHISPER makes its leg ACTIVE,
and the leg's session ends; where the session's PRIMING engine is the queue's own and its detached engine, it is released, and the queue has
no detached engine any more. No hypothesis rules the state out. -/

namespace Sys2Proof.Machine

/-- L6 CONNECTING to P1, its session without a plan holding an announcement's request on E4; E4 PRIMING, owned by P1's queue and its detached
engine; P1's CALL_WHISPER waits, its deadline at hand. -/
def detachedSession : State :=
  ((State.reset.modPos 1 fun x => { x with
      leg := some 6, whisper := ⟨[⟨.call 6, 5, false⟩], .waiting 65535, none, some 4⟩ }).modLeg 6 fun x => { x with
      state := .connecting, attached := some 1, origin := some .held, session := some ⟨none, .announcing, none, 0, some ⟨7, some 0, some 4⟩⟩ }).modEng 4
      fun x => { x with state := .priming, owner := some (.whisper 1) }

/-- Refutes O46: the skipped CALL_WHISPER of `detachedSession` ends L6's session, and P1's queue has no detached engine left. -/
theorem not_gapAndDeadline : ¬ Obligations.GapAndDeadline := by
  intro holds
  have gone : nextReading (fun t => (t.pos 1).whisper.detached) (exec (.whisperDeadlineExpiry 1) detachedSession) = some none := by decide +kernel
  obtain ⟨_, _, _, _, _, expires⟩ := holds detachedSession 1
  have due : (detachedSession.pos 1).config.whisperDeadline ≤ 65535 + 1 := by decide +kernel
  obtain ⟨t, e, whisper, _⟩ := expires 65535 ⟨.call 6, 5, false⟩ rfl due rfl
  rw [e] at gone
  have none_ : (t.pos 1).whisper.detached = none := Option.some.inj gone
  rw [whisper] at none_
  exact nomatch none_

end Sys2Proof.Machine
end

section
set_option Elab.async false
/-! ## A whisper prompt placed (O44) -/

namespace Sys2Proof.Machine

section Queue
variable {s : State} {p : PosId} {w : WhisperEntry} {rest : List WhisperEntry}

/-! ### A queue's changes and its next request (R167) -/

/-- Of two changes of one queue the later works on what the earlier left. -/
theorem State.modWhisper_modWhisper (s : State) (p : PosId) (f g : WhisperQueue → WhisperQueue) :
    (s.modWhisper p f).modWhisper p g = s.modWhisper p fun q => g (f q) := by
  show ({ s with positions := tset (tset s.positions p _) p { (s.modWhisper p f).pos p with whisper := _ } } : State) = _
  rw [State.pos_modWhisper_same, tset_tset]
  rfl

/-- A queue changed and brought back to what it was. -/
theorem State.modWhisper_same {f : WhisperQueue → WhisperQueue} (same : f (s.pos p).whisper = (s.pos p).whisper) : s.modWhisper p f = s := by
  show ({ s with positions := tset s.positions p { s.pos p with whisper := f (s.pos p).whisper } } : State) = s
  rw [same]
  exact congrArg (fun t => { s with positions := t }) (tset_tget _ _)

/-- An empty queue makes no request. -/
theorem runTask_whisperNext_empty (entries : (s.pos p).whisper.entries = []) : runTask (.whisperNext p) s = (s, []) := by
  unfold runTask
  dsimp only
  rw [entries]

/-- Behind a head request or a gap nothing is requested. -/
theorem runTask_whisperNext_later (later : (s.pos p).whisper.head ≠ .none ∨ (s.pos p).whisper.gap ≠ none) :
    runTask (.whisperNext p) s = (s, []) := by
  unfold runTask
  dsimp only
  split
  · rfl
  · exact if_neg fun k => later.elim (fun n => n k.1) fun n => n k.2

theorem runTask_whisperNext_asks (entries : (s.pos p).whisper.entries = w :: rest) (head : (s.pos p).whisper.head = .none)
    (gap : (s.pos p).whisper.gap = none) (clip : s.isReady w.clip = true) :
    runTask (.whisperNext p) s = (s.modWhisper p fun q => { q with head := .waiting 0 }, [.request ⟨.whisper p, w.clip⟩]) := by
  unfold runTask
  dsimp only
  rw [entries]
  dsimp only
  rw [if_pos ⟨head, gap⟩, if_pos clip]

/-- A clip that is not READY ends its entry at once. -/
theorem runTask_whisperNext_skips (entries : (s.pos p).whisper.entries = w :: rest) (head : (s.pos p).whisper.head = .none)
    (gap : (s.pos p).whisper.gap = none) (clip : s.isReady w.clip = false) :
    runTask (.whisperNext p) s = (s, [.whisperEnd p .skipped (some .clip), .whisperNext p]) := by
  unfold runTask
  dsimp only
  rw [entries]
  dsimp only
  rw [if_pos ⟨head, gap⟩, if_neg (by rw [clip]; exact Bool.false_ne_true)]

/-- A PROMPT that ends with no engine leaves no gap. -/
theorem runTask_whisperEnd_prompt {stop : Bool} {host : Nat} (entries : (s.pos p).whisper.entries = w :: rest)
    (kind : w.kind = .prompt stop host) (head : (s.pos p).whisper.head.isGranted = false) (o : WhisperOutcome) (cause : Option WhisperCause) :
    runTask (.whisperEnd p o cause) s =
      ((s.modWhisper p fun q => { q with entries := rest, head := .none }).report (promptReport o ⟨p, w.clip, host, cause⟩), []) := by
  unfold runTask
  dsimp only
  rw [entries]
  dsimp only
  rw [kind, head]
  dsimp only
  rw [if_neg Bool.false_ne_true]
  unfold WhisperEntry.reportOf WhisperEntry.tag
  rw [kind]

end Queue

/-! ### The engine that a class-0 request takes back (R143) -/

section Victim
variable {s : State}

/-- A class-0 request may take the engine back. -/
def State.preemptible (s : State) (e : EngId) : Bool :=
  (s.eng e).cls = 1 ∧ ((s.eng e).state = .priming ∨ ((s.eng e).state = .playing ∧ (s.eng e).closing = 0))

/-- Of the engine found so far and the next one, the one of the later grant. -/
def State.laterGrant (s : State) (best : Option EngId) (e : EngId) : Option EngId :=
  if s.preemptible e = true then best.elim (some e) fun b => if (s.eng b).grant < (s.eng e).grant then some e else some b else best

theorem State.victim_eq : s.victim = (List.finRange 24).foldl s.laterGrant none := by
  unfold State.victim
  congr 1
  funext best e
  unfold State.laterGrant State.preemptible
  dsimp only
  by_cases open_ : (s.eng e).cls = 1 ∧ ((s.eng e).state = .priming ∨ ((s.eng e).state = .playing ∧ (s.eng e).closing = 0))
  · rw [if_pos open_, if_pos (decide_eq_true open_)]
    cases best <;> rfl
  · rw [if_neg open_, if_neg fun k => open_ (of_decide_eq_true k)]

/-- With nothing to take back there is no victim. -/
theorem State.victim_none (none_ : ∀ e, s.preemptible e = false) : s.victim = none := by
  have idle : s.laterGrant = fun best _ => best := by
    funext best e
    exact if_neg (by rw [none_ e]; exact Bool.false_ne_true)
  rw [State.victim_eq, idle]
  induction List.finRange 24 with
  | nil => rfl
  | cons e l ih => exact ih

/-- A victim is an engine that may be taken back. -/
theorem State.victim_preemptible {v : EngId} (victim : s.victim = some v) : s.preemptible v = true := by
  rw [State.victim_eq] at victim
  refine List.foldlRecOn (motive := fun best : Option EngId => best = some v → s.preemptible v = true) (List.finRange 24) s.laterGrant (b := none)
    nofun (fun best ih e _ found => ?_) victim
  unfold State.laterGrant at found
  split at found
  · cases best with
    | none =>
      obtain rfl := Option.some.inj found
      assumption
    | some b =>
      dsimp only [Option.elim] at found
      split at found
      · obtain rfl := Option.some.inj found
        assumption
      · exact ih found
  · exact ih found

/-- The one engine of the latest grant is the victim. -/
theorem State.victim_latest {v : EngId} (may : s.preemptible v = true)
    (latest : ∀ d, d ≠ v → s.preemptible d = true → (s.eng d).grant < (s.eng v).grant) : s.victim = some v := by
  have fold : ∀ (l : List EngId) (best : Option EngId), (∀ b, best = some b → s.preemptible b = true) → (best = some v ∨ v ∈ l) →
      l.foldl s.laterGrant best = some v := by
    intro l
    induction l with
    | nil => exact fun best _ found => found.resolve_right List.not_mem_nil
    | cons e l ih =>
      intro best may_ found
      refine ih _ (fun b e' => ?_) ?_
      · unfold State.laterGrant at e'
        split at e'
        · cases best with
          | none =>
            obtain rfl := Option.some.inj e'
            assumption
          | some b' =>
            dsimp only [Option.elim] at e'
            split at e' <;> obtain rfl := Option.some.inj e'
            · assumption
            · exact may_ _ rfl
        · exact may_ b e'
      · by_cases own : e = v
        · subst own
          refine .inl ?_
          unfold State.laterGrant
          rw [if_pos may]
          cases best with
          | none => rfl
          | some b =>
            dsimp only [Option.elim]
            by_cases same : b = e
            · rw [same, if_neg (Nat.lt_irrefl _)]
            · rw [if_pos (latest b same (may_ b rfl))]
        · refine found.imp (fun e' => ?_) fun mem => (List.mem_cons.1 mem).resolve_left (Ne.symm own)
          subst e'
          unfold State.laterGrant
          split
          · rename_i open_
            exact if_neg (Nat.not_lt.2 (latest e own open_).le)
          · rfl
  rw [State.victim_eq]
  exact fold _ none nofun (.inr (List.mem_finRange v))

end Victim

/-! ### The first fetch of a granted engine (R138) -/

section Fetch
variable {s : State} {e : EngId}

/-- The engine has a fetch pending or in progress. -/
def State.asksData (s : State) (e : EngId) : Prop := e ∈ s.memory.fetches ∨ ∃ g, s.memory.op = some (.fetch e g)

theorem State.chooseOp_asksData (h : e ∈ s.memory.fetches) : s.chooseOp.asksData e := by
  unfold State.chooseOp
  split
  · rename_i d _
    by_cases own : d = e
    · subst own
      exact .inr ⟨_, rfl⟩
    · exact .inl (List.mem_filter.2 ⟨h, decide_eq_true (Ne.symm own)⟩)
  · split
    · exact .inl h
    · split
      · exact .inl h
      · split
        · exact .inl h
        · split <;> exact .inl h

theorem State.settlePort_asksData (h : s.asksData e) : s.settlePort.asksData e := by
  obtain queued | ⟨g, op⟩ := h
  · have aside : e ∈ s.suspendErase.memory.fetches := by
      unfold State.suspendErase
      split
      · split <;> exact queued
      · exact queued
    unfold State.settlePort
    split
    · dsimp only
      split
      · exact State.chooseOp_asksData aside
      · exact .inl aside
    · split
      · split <;> exact .inl queued
      · exact .inl queued
    · exact .inl queued
    · exact .inl queued
  · rw [State.settlePort_busy op (.inr nofun)]
    exact .inr ⟨g, op⟩

/-- A PRIMING engine with data to fetch asks for it. -/
theorem State.issueFetch_asksData (priming : (s.eng e).state = .priming) (empty : (s.eng e).buffer = []) (remains : s.dataRemains e = true) :
    (s.issueFetch e).asksData e := by
  unfold State.issueFetch
  refine State.settlePort_asksData ?_
  unfold State.addFetch
  by_cases pending : e ∈ s.memory.fetches
  · rw [if_neg fun k => k.2.1 pending]
    exact .inl pending
  · cases fetching : s.fetching e with
    | true =>
      unfold State.fetching at fetching
      split at fetching
      · rename_i d g op
        rw [Bool.and_eq_true, decide_eq_true_iff] at fetching
        obtain ⟨rfl, _⟩ := fetching
        rw [if_neg fun k => nomatch k.2.2.1]
        exact .inr ⟨g, op⟩
      · exact nomatch fetching
    | false =>
      rw [if_pos ⟨.inl priming, pending, rfl, by rw [empty]; decide, remains⟩]
      exact .inl (List.mem_append_right _ (List.mem_singleton.2 rfl))

end Fetch

/-! ### WHISPER_PROMPT (R165) -/

section Prompt
variable {s : State} {p : PosId} {c : ClipId}

/-- A PROMPT that joins an idle queue. -/
def State.prompted (s : State) (p : PosId) (w : WhisperEntry) : State := s.modWhisper p fun q => { q with entries := q.entries ++ [w] }

theorem ownWhisperPrompt_named {flag host : Nat} (named : flag < 2) : ownWhisperPrompt ⟨p.val, c.val, flag, host⟩ s =
    if s.isLive p = false then refuse s .busy
    else if Config.whisperEntries ≤ (s.pos p).whisper.entries.length then refuse s .queueFull
    else accept (s.appendPrompt p ⟨.prompt (decide (flag = 0)) host, c, false⟩) := by
  unfold ownWhisperPrompt
  dsimp only
  rw [toId_val, toId_val, flagOf_of_lt named]

theorem ownWhisperPrompt_unnamed {k m flag host : Nat} (unnamed : 32 ≤ k ∨ 256 ≤ m ∨ 2 ≤ flag) :
    ownWhisperPrompt ⟨k, m, flag, host⟩ s = refuse s .range := by
  unfold ownWhisperPrompt
  dsimp only
  split
  · rename_i position clip stop
    obtain beyond | beyond | beyond := unnamed
    · exact nomatch (toId_none beyond).symm.trans position
    · exact nomatch (toId_none beyond).symm.trans clip
    · exact absurd (flagOf_eq_some stop) (not_lt.2 beyond)
  · rfl

/-- A granted request, as a chain of happenings. -/
theorem Chain.requestGranted {w : WaitEntry} {e : EngId} (owns : s.ownsEngine w.owner = false) (scanning : s.arbiter.scanning = false)
    (free : s.freeEngine = some e) (clip : s.isReady w.clip = true) : Chain 2 [.request w] s (s.grant e w) :=
  .step (runTask_request_taken owns) (.last (runTask_take_granted scanning free clip))

/-- A class-0 request that waits with nothing to take back. -/
theorem Chain.requestWaits {w : WaitEntry} (owns : s.ownsEngine w.owner = false) (scanning : s.arbiter.scanning = false)
    (busy : s.freeEngine = none) (victim : s.victim = none) :
    Chain 2 [.request w] s { s with arbiter := { s.arbiter with queue := enqueue w s.arbiter.queue } } := by
  refine .step (runTask_request_taken owns) (.last ?_)
  rw [runTask_take_waits scanning busy, victim]
  exact congrArg (Prod.mk _) (ite_self _)

/-- A class-0 request that waits and stops the PLAYING engine that it takes back (R143). -/
theorem Chain.requestPreempts {w : WaitEntry} {v : EngId} (owns : s.ownsEngine w.owner = false) (scanning : s.arbiter.scanning = false)
    (busy : s.freeEngine = none) (cls : w.owner.cls = 0) (victim : s.victim = some v) (playing : (s.eng v).state = .playing)
    (running : (s.eng v).closing = 0) : Chain 3 [.request w] s
      ((({ s with arbiter := { s.arbiter with queue := enqueue w s.arbiter.queue } } : State).withdrawFetch v).modEng v fun x => { x with
        state := .stopping, stopOutcome := .preempted }) := by
  have taken : runTask (.take w) s = ({ s with arbiter := { s.arbiter with queue := enqueue w s.arbiter.queue } }, [.stop v .preempted]) := by
    rw [runTask_take_waits scanning busy, if_pos cls, victim]
    rfl
  have stopped : (({ s with arbiter := { s.arbiter with queue := enqueue w s.arbiter.queue } } : State).eng v).state = .playing := playing
  refine .step (runTask_request_taken owns) (.step taken (.last ?_))
  unfold runTask
  dsimp only
  rw [stopped]
  exact if_pos running

/-- The queue of an idle position with its PROMPT waiting for an engine. -/
def State.promptWaits (s : State) (p : PosId) (w : WhisperEntry) : State :=
  s.modWhisper p fun q => { q with entries := [w], head := .waiting 0 }

theorem State.promptWaits_pos (s : State) (p : PosId) (w : WhisperEntry) : (s.promptWaits p w).pos p = { s.pos p with
    whisper := { (s.pos p).whisper with entries := [w], head := .waiting 0 } } := State.pos_modWhisper_same ..

/-- A PROMPT placed in an idle queue comes to request at once (R165, R167). -/
theorem State.appendPrompt_asks {w : WhisperEntry} {n : Nat} {t : State} (entries : (s.pos p).whisper.entries = [])
    (head : (s.pos p).whisper.head = .none) (gap : (s.pos p).whisper.gap = none) (clip : s.isReady w.clip = true)
    (chain : Chain n [.request ⟨.whisper p, w.clip⟩] (s.promptWaits p w) t) (short : n + 1 ≤ 4096) : s.appendPrompt p w = t.finish s := by
  have asks := runTask_whisperNext_asks (s := s.prompted p w) (p := p) (w := w) (rest := [])
    (by rw [State.prompted, State.pos_modWhisper_same]; dsimp only; rw [entries]; rfl)
    (by rw [State.prompted, State.pos_modWhisper_same]; exact head) (by rw [State.prompted, State.pos_modWhisper_same]; exact gap) clip
  rw [State.prompted, State.modWhisper_modWhisper] at asks
  have queue : (s.modWhisper p fun q => { q with entries := q.entries ++ [w], head := .waiting 0 }) = s.promptWaits p w := by
    show ({ s with positions := tset s.positions p { s.pos p with whisper := { (s.pos p).whisper with
      entries := (s.pos p).whisper.entries ++ [w], head := .waiting 0 } } } : State) = _
    rw [entries]
    rfl
  rw [queue] at asks
  exact congrArg (State.finish · s) ((Chain.step asks chain).run short)

/-- A PROMPT placed behind a head request or a gap waits (R167). -/
theorem State.appendPrompt_later {w : WhisperEntry} (later : (s.pos p).whisper.head ≠ .none ∨ (s.pos p).whisper.gap ≠ none) :
    s.appendPrompt p w = (s.prompted p w).rederiveAll := by
  have waits := runTask_whisperNext_later (s := s.prompted p w) (p := p) (by rw [State.prompted, State.pos_modWhisper_same]; exact later)
  exact (congrArg (State.finish · s) (State.run_single waits)).trans (State.finish_of_records rfl rfl rfl)

/-- A PROMPT placed in an idle queue for a clip that is not READY ends at once as WHISPER_SKIPPED (R170). -/
theorem State.appendPrompt_skips {stop : Bool} {host : Nat} (entries : (s.pos p).whisper.entries = [])
    (head : (s.pos p).whisper.head = .none) (gap : (s.pos p).whisper.gap = none) (clip : s.isReady c = false) :
    s.appendPrompt p ⟨.prompt stop host, c, false⟩ = (s.report (.whisperSkipped ⟨p, c, host, some .clip⟩)).rederiveAll := by
  have prompted : ((s.prompted p ⟨.prompt stop host, c, false⟩).pos p).whisper = { (s.pos p).whisper with
      entries := [⟨.prompt stop host, c, false⟩] } := by
    rw [State.prompted, State.pos_modWhisper_same]
    dsimp only
    rw [entries]
    rfl
  have skips := runTask_whisperNext_skips (s := s.prompted p ⟨.prompt stop host, c, false⟩) (p := p) (w := ⟨.prompt stop host, c, false⟩) (rest := [])
    (by rw [prompted]) (by rw [prompted]; exact head) (by rw [prompted]; exact gap) clip
  have ends := runTask_whisperEnd_prompt (s := s.prompted p ⟨.prompt stop host, c, false⟩) (p := p) (w := ⟨.prompt stop host, c, false⟩)
    (rest := []) (stop := stop) (host := host) (by rw [prompted]) rfl (by rw [prompted]; dsimp only; rw [head]; rfl) .skipped (some .clip)
  have back : (s.prompted p ⟨.prompt stop host, c, false⟩).modWhisper p (fun q => { q with entries := [], head := .none }) = s := by
    rw [State.prompted, State.modWhisper_modWhisper]
    refine State.modWhisper_same ?_
    rw [← entries, ← head]
  rw [back] at ends
  have empty : runTask (.whisperNext p) (s.report (.whisperSkipped ⟨p, c, host, some .clip⟩)) = (_, []) := runTask_whisperNext_empty entries
  have run := (Chain.step skips (.step ends (.last empty))).run
  exact (congrArg (State.finish · s) run).trans (State.finish_of_records rfl rfl rfl)

section Request
variable {w : WhisperEntry} (entries : (s.pos p).whisper.entries = []) (head : (s.pos p).whisper.head = .none)
  (gap : (s.pos p).whisper.gap = none) (clip : s.isReady w.clip = true) (scanning : s.arbiter.scanning = false)
  (owns : ∀ e, (s.eng e).state = .free ∨ (s.eng e).owner ≠ some (.whisper p))
include entries head gap clip scanning owns

/-- The grant of a placed PROMPT's request (R138, R144). -/
theorem State.appendPrompt_granted {e : EngId} (free : (s.eng e).state = .free) (first : ∀ d, d < e → (s.eng d).state ≠ .free) :
    ∃ t, s.appendPrompt p w = t ∧
      t.pos p = { s.pos p with whisper := { (s.pos p).whisper with entries := [w], head := .granted e } } ∧
      (∀ q, q ≠ p → t.pos q = s.pos q) ∧
      t.eng e = { Engine.idle with
        state := .priming, owner := some (.whisper p), cls := 0, clip := some w.clip, grant := s.arbiter.grants } ∧
      (∀ d, d ≠ e → t.eng d = s.eng d) ∧ t.clip w.clip = { s.clip w.clip with useCount := (s.clip w.clip).useCount + 1 } ∧
      (0 < (s.clip w.clip).length → t.asksData e) ∧ t.arbiter = { s.arbiter with grants := s.arbiter.grants + 1 } ∧
      t.link.replies = s.link.replies := by
  have granted := State.appendPrompt_asks (w := w) entries head gap clip
    (Chain.requestGranted (s := s.promptWaits p w) (w := ⟨.whisper p, w.clip⟩) (State.ownsEngine_none owns) scanning (State.freeEngine_first free first) clip)
    (by decide)
  obtain ⟨⟨memory, link, frame⟩, replies, _⟩ := State.grant_whisper (s.promptWaits p w) e p w.clip
  have queue : (((s.promptWaits p w).grantBase e ⟨.whisper p, w.clip⟩).modWhisper p fun q => { q with head := .granted e }).positions
      = tset s.positions p { s.pos p with whisper := { (s.pos p).whisper with entries := [w], head := .granted e } } := by
    have twice := State.modWhisper_modWhisper s p (fun q => { q with entries := [w], head := .waiting 0 }) fun q => { q with head := .granted e }
    exact congrArg State.positions twice
  have asks : 0 < (s.clip w.clip).length → ((s.promptWaits p w).grant e ⟨.whisper p, w.clip⟩).asksData e := fun long => by
    rw [State.grant_eq]
    have engine : (((s.promptWaits p w).grantBase e ⟨.whisper p, w.clip⟩).ownerGranted (.whisper p) e).eng e =
        (s.promptWaits p w).primed ⟨.whisper p, w.clip⟩ := tget_tset_same _ _ _
    have record : (((s.promptWaits p w).grantBase e ⟨.whisper p, w.clip⟩).ownerGranted (.whisper p) e).clip w.clip =
        { s.clip w.clip with useCount := (s.clip w.clip).useCount + 1 } := tget_tset_same _ _ _
    refine State.issueFetch_asksData (by rw [engine]; rfl) (by rw [engine]; rfl) ?_
    unfold State.dataRemains
    rw [engine]
    show (false || decide (0 < _)) = true
    rw [record]
    exact decide_eq_true long
  refine ⟨_, granted, ?_⟩
  generalize (s.promptWaits p w).grant e ⟨.whisper p, w.clip⟩ = t at frame replies asks
  have positions : t.positions = _ := (congrArg State.positions frame).trans queue
  have engines : t.engines = tset s.engines e ((s.promptWaits p w).primed ⟨.whisper p, w.clip⟩) := congrArg State.engines frame
  have clips : t.clips = tset s.clips w.clip { s.clip w.clip with useCount := (s.clip w.clip).useCount + 1 } := congrArg State.clips frame
  have arbiter : t.arbiter = { s.arbiter with grants := s.arbiter.grants + 1 } := congrArg State.arbiter frame
  refine ⟨?_, fun q other => ?_, ?_, fun d other => ?_, ?_, asks, arbiter, replies⟩
  · exact (congrArg (tget · p) positions).trans (tget_tset_same _ _ _)
  · exact (congrArg (tget · q) positions).trans (tget_tset_ne _ _ _ _ (Ne.symm other))
  · exact (congrArg (tget · e) engines).trans (tget_tset_same _ _ _)
  · exact (congrArg (tget · d) engines).trans (tget_tset_ne _ _ _ _ (Ne.symm other))
  · exact (congrArg (tget · w.clip) clips).trans (tget_tset_same _ _ _)

/-- With no engine FREE a placed PROMPT waits, and may stop the engine that it takes back (R143). -/
theorem State.appendPrompt_waits (busy : ∀ e, (s.eng e).state ≠ .free) : 
    (s.victim = none → s.appendPrompt p w = State.finish { s.promptWaits p w with
      arbiter := { s.arbiter with queue := enqueue ⟨.whisper p, w.clip⟩ s.arbiter.queue } } s) ∧
    ∀ v, s.victim = some v → (s.eng v).state = .playing → (s.eng v).closing = 0 → s.appendPrompt p w =
      ((({ s.promptWaits p w with arbiter := { s.arbiter with queue := enqueue ⟨.whisper p, w.clip⟩ s.arbiter.queue } } : State).withdrawFetch v).modEng v
        fun x => { x with state := .stopping, stopOutcome := .preempted }).finish s := by
  refine ⟨fun victim => ?_, fun v victim playing running => ?_⟩
  · exact State.appendPrompt_asks entries head gap clip (Chain.requestWaits (s := s.promptWaits p w) (w := ⟨.whisper p, w.clip⟩)
      (State.ownsEngine_none owns) scanning (State.freeEngine_none busy) victim) (by decide)
  · exact State.appendPrompt_asks entries head gap clip (Chain.requestPreempts (s := s.promptWaits p w) (w := ⟨.whisper p, w.clip⟩)
      (State.ownsEngine_none owns) scanning (State.freeEngine_none busy) rfl victim playing running) (by decide)

end Request

end Prompt

/-- A class-0 request waits behind the class-0 requests and ahead of the others (R142). -/
theorem enqueue_class0 {w : WaitEntry} (cls : w.owner.cls = 0) (l : List WaitEntry) : ∃ ahead behind, l = ahead ++ behind ∧
    enqueue w l = ahead ++ [w] ++ behind ∧ (∀ x ∈ ahead, x.owner.cls = 0) ∧ ∀ x, behind.head? = some x → 0 < x.owner.cls := by
  obtain ⟨ahead, behind, whole, before, after, queue⟩ := enqueue_enqueued w l
  exact ⟨ahead, behind, whole, by rw [queue]; simp, fun x mem => Nat.le_zero.1 (cls ▸ before x mem), fun x first => cls ▸ after x first⟩

/-- Settles O44: the checks in their order; a PROMPT that waits, is skipped, is granted an engine (`Chain.requestGranted`), waits
(`Chain.requestWaits`) or takes an engine back (`Chain.requestPreempts`). -/
theorem whisperPromptPlaced : Obligations.WhisperPromptPlaced := by
  intro s p c tag flag host ready
  have accepted : flag < 2 → (s.pos p).port.state = .live → (s.pos p).whisper.entries.length < 4 →
      exec (.whisperPrompt tag (.fields ⟨p.val, c.val, flag, host⟩)) s =
        .next ((s.appendPrompt p ⟨.prompt (decide (flag = 0)) host, c, false⟩).ok 0x40 tag) := fun named live room => by
    rw [exec_whisperPrompt_ready ready, ownWhisperPrompt_named named,
      if_neg (show ¬ s.isLive p = false by rw [State.isLive, decide_eq_true live]; nofun),
      if_neg (show ¬ Config.whisperEntries ≤ (s.pos p).whisper.entries.length from not_le.2 room)]
    rfl
  refine ⟨fun k m unnamed => ?_, fun named away => ?_, fun named live full => ?_, fun named live room later => ?_,
    fun named live entries head gap => ⟨fun clip => ?_, fun clip scanning owns => ⟨fun e free first => ?_, fun busy => ?_⟩⟩⟩
  · rw [exec_whisperPrompt_ready ready, ownWhisperPrompt_unnamed unnamed]
    rfl
  · rw [exec_whisperPrompt_ready ready, ownWhisperPrompt_named named, if_pos (show s.isLive p = false from decide_eq_false away)]
    rfl
  · rw [exec_whisperPrompt_ready ready, ownWhisperPrompt_named named,
      if_neg (show ¬ s.isLive p = false by rw [State.isLive, decide_eq_true live]; nofun),
      if_pos (show Config.whisperEntries ≤ (s.pos p).whisper.entries.length from full)]
    rfl
  · refine ⟨_, accepted named live room, ?_⟩
    rw [State.appendPrompt_later later]
    refine ⟨fun q other => ?_, ?_, Rederived.of_lists (State.rederiveAll_rederived _) rfl rfl, rfl, rfl⟩
    · exact (State.pos_modWhisper_ne s p q _ (Ne.symm other) : (s.prompted p _).pos q = s.pos q)
    · exact (State.pos_modWhisper_same s p _ : (s.prompted p _).pos p = _)
  · refine ⟨_, accepted named live (by rw [entries]; decide), ?_⟩
    rw [State.appendPrompt_skips entries head gap clip]
    exact ⟨Rederived.of_lists (State.rederiveAll_rederived _) rfl rfl, rfl, rfl⟩
  · obtain ⟨t, e', granted⟩ := State.appendPrompt_granted (w := ⟨.prompt (decide (flag = 0)) host, c, false⟩) entries head gap clip scanning owns
      free first
    obtain ⟨pos, others, engine, engines, record, asks, arbiter, replies⟩ := granted
    subst e'
    exact ⟨_, accepted named live (by rw [entries]; decide), pos, others, engine, engines, record, asks, arbiter,
      (Link.placeReply_replies _ _).trans (congrArg (· ++ _) replies)⟩
  · obtain ⟨ahead, behind, whole, queue, before, after⟩ := enqueue_class0 (w := ⟨.whisper p, c⟩) rfl s.arbiter.queue
    obtain ⟨waits, preempts⟩ := State.appendPrompt_waits (w := ⟨.prompt (decide (flag = 0)) host, c, false⟩) entries head gap clip scanning owns
      fun e => (busy e).1
    have may : ∀ d, s.preemptible d = true ↔ (s.eng d).cls = 1 ∧ (s.eng d).state = .playing ∧ (s.eng d).closing = 0 := fun d => by
      unfold State.preemptible
      rw [decide_eq_true_iff]
      exact and_congr_right fun cls => or_iff_right ((busy d).2 cls)
    cases victim : s.victim with
    | none =>
      refine ⟨_, ahead, behind, accepted named live (by rw [entries]; decide), ?_⟩
      rw [waits victim]
      refine ⟨?_, whole, queue, before, after, rfl, fun _ => rfl, fun v cls playing running latest => ?_⟩
      · exact congrArg (fun x : Position => x.whisper.head) (State.promptWaits_pos s p _)
      · have taken := State.victim_latest ((may v).2 ⟨cls, playing, running⟩) fun d other open_ => by
          obtain ⟨cls, playing, running⟩ := (may d).1 open_
          exact latest d other cls playing running
        exact nomatch victim.symm.trans taken
    | some d =>
      obtain ⟨cls, playing, running⟩ := (may d).1 (State.victim_preemptible victim)
      refine ⟨_, ahead, behind, accepted named live (by rw [entries]; decide), ?_⟩
      rw [preempts d victim playing running]
      refine ⟨?_, whole, queue, before, after, rfl, fun closing => absurd (closing d cls playing) (by rw [running]; exact Nat.lt_irrefl 0),
        fun v cls playing running latest => ?_⟩
      · exact congrArg (fun x : Position => x.whisper.head) (State.promptWaits_pos s p _)
      · have taken := State.victim_latest ((may v).2 ⟨cls, playing, running⟩) fun d other open_ => by
          obtain ⟨cls, playing, running⟩ := (may d).1 open_
          exact latest d other cls playing running
        obtain rfl : d = v := Option.some.inj (victim.symm.trans taken)
        refine ⟨tget_tset_same _ _ _, fun mem => ?_, fun k other => tget_tset_ne _ _ _ _ (Ne.symm other)⟩
        have kept : d ∈ s.memory.fetches.filter (· ≠ d) := mem
        exact of_decide_eq_true (List.mem_filter.1 kept).2 rfl

end Sys2Proof.Machine
end

section
set_option Elab.async false
/-! ## Whisper prompts flushed (O45) -/

namespace Sys2Proof.Machine

theorem Link.placeReports_replies (k : Link) (now : BitVec 32) (made : List ReportBody) : (k.placeReports now made).replies = k.replies := by
  induction made generalizing k with
  | nil => rfl
  | cons b rest ih => exact (ih (k.placeReport ⟨now, b⟩)).trans (Link.placeReport_replies _ _)

/-- Two changes of a queue that leave the same. -/
theorem State.modWhisper_congr {s : State} {p : PosId} {f g : WhisperQueue → WhisperQueue} (same : f (s.pos p).whisper = g (s.pos p).whisper) :
    s.modWhisper p f = s.modWhisper p g :=
  congrArg (fun q => { s with positions := tset s.positions p { s.pos p with whisper := q } }) same

section Flush
variable {s : State} {p : PosId} {w : WhisperEntry} {rest : List WhisperEntry}

/-! ### An entry that leaves an emptied queue (R168, R173, R174) -/

/-- A waiting head request is withdrawn, and nothing follows in an empty queue. -/
theorem State.headRemoved_waiting {d : Nat} (head : (s.pos p).whisper.head = .waiting d) (entries : (s.pos p).whisper.entries = []) :
    s.headRemoved p = (s.modWhisper p fun q => { q with head := .none }).withdraw (.whisper p) := by
  unfold State.headRemoved State.undoHead
  rw [head]
  dsimp only
  rw [if_neg (show ¬ (HeadRequest.waiting d).isGranted = true from Bool.false_ne_true)]
  refine State.run_single (runTask_whisperNext_empty ?_)
  exact (congrArg (fun x : Position => x.whisper.entries) (State.pos_modWhisper_same s p fun q => { q with head := .none })).trans entries

/-- A PLAYING head engine is stopped and stays on as the detached engine, and a gap starts. -/
theorem State.headRemoved_playing {e : EngId} (head : (s.pos p).whisper.head = .granted e) (entries : (s.pos p).whisper.entries = [])
    (playing : (s.eng e).state = .playing) (running : (s.eng e).closing = 0) :
    s.headRemoved p = ((s.withdrawFetch e).modEng e fun x => { x with state := .stopping, stopOutcome := .stopped }).modWhisper p fun q => { q with
      head := .none, detached := some e, gap := if (s.pos p).config.whisperGap = 0 then none else some 0 } := by
  have other : ¬ (s.eng e).state = .priming := by rw [playing]; nofun
  have stopped := State.run_stop_playing (s := s.modWhisper p fun q => { q with head := .none, detached := some e }) (e := e) playing .stopped
  rw [if_pos (show ((s.modWhisper p fun q => { q with head := .none, detached := some e }).eng e).closing = 0 from running)] at stopped
  unfold State.headRemoved State.undoHead
  rw [head]
  dsimp only
  rw [if_pos (show (HeadRequest.granted e).isGranted = true from rfl), if_neg other, stopped]
  have twice := State.modWhisper_modWhisper ((s.withdrawFetch e).modEng e fun x => { x with state := .stopping, stopOutcome := .stopped }) p
    (fun q => { q with head := .none, detached := some e }) fun q => { q with gap := if (s.pos p).config.whisperGap = 0 then none else some 0 }
  have gap : (((s.modWhisper p fun q => { q with head := .none, detached := some e }).withdrawFetch e).modEng e fun x => { x with
      state := .stopping, stopOutcome := .stopped }).startGap p
      = ((s.withdrawFetch e).modEng e fun x => { x with state := .stopping, stopOutcome := .stopped }).modWhisper p fun q => { q with
        head := .none, detached := some e, gap := if (s.pos p).config.whisperGap = 0 then none else some 0 } := by
    rw [← twice]
    unfold State.startGap
    rw [show ((((s.modWhisper p fun q => { q with head := .none, detached := some e }).withdrawFetch e).modEng e fun x => { x with
      state := .stopping, stopOutcome := .stopped }).pos p).config = (s.pos p).config from by
        have same := congrArg Position.config (State.pos_modWhisper_same s p fun q => { q with head := .none, detached := some e })
        exact same]
    rfl
  rw [gap]
  refine State.run_single (runTask_whisperNext_empty ?_)
  exact (congrArg (fun x : Position => x.whisper.entries) (State.pos_modWhisper_same _ p _)).trans entries

/-! ### Every PROMPT removed (R173) -/

/-- The queue without its PROMPTs, each reported. -/
def State.flushed (s : State) (p : PosId) : State :=
  { (s.modWhisper p fun q => { q with entries := q.entries.filter fun w => !w.isPrompt }) with
    link := s.link.placeReports s.highway.period
      (((s.pos p).whisper.entries.filter WhisperEntry.isPrompt).map fun w => .whisperAborted (w.reportOf p (some .flush))) }

theorem State.flushed_pos (s : State) (p : PosId) : (s.flushed p).pos p = { s.pos p with
    whisper := { (s.pos p).whisper with entries := (s.pos p).whisper.entries.filter fun w => !w.isPrompt } } :=
  State.pos_modWhisper_same s p fun q => { q with entries := q.entries.filter fun w => !w.isPrompt }

theorem State.flushPrompts_empty (entries : (s.pos p).whisper.entries = []) : s.flushPrompts p = s := by
  unfold State.flushPrompts
  dsimp only
  rw [entries]
  refine State.modWhisper_same ?_
  rw [entries, List.filter_nil, ← entries]

theorem State.flushPrompts_cons (entries : (s.pos p).whisper.entries = w :: rest) :
    s.flushPrompts p = (if w.isPrompt = true then (s.flushed p).headRemoved p else s.flushed p).finish s := by
  unfold State.flushPrompts State.flushed
  dsimp only
  rw [State.foldl_report_eq, entries]
  rfl

/-- A flush's own changes and what the removal of the head sets off. -/
theorem State.flushPrompts_walk : ∃ t, Walk (fun _ => True) (s.flushed p) t ∧ (s.flushPrompts p = s ∧ (s.pos p).whisper.entries = [] ∨
    s.flushPrompts p = t.finish s) := by
  cases entries : (s.pos p).whisper.entries with
  | nil => exact ⟨_, .refl _, .inl ⟨State.flushPrompts_empty entries, rfl⟩⟩
  | cons w rest =>
    refine ⟨_, ?_, .inr (State.flushPrompts_cons entries)⟩
    split
    · exact (Walk.refl _).headRemoved (.all _) p
    · exact .refl _

/-- What every flush leaves: no PROMPT, and the rest of the position, the flash and the replies as they were. -/
theorem State.flushPrompts_leaves : (∀ w ∈ ((s.flushPrompts p).pos p).whisper.entries, w.isPrompt = false) ∧
    ((s.flushPrompts p).pos p).port = (s.pos p).port ∧ ((s.flushPrompts p).pos p).mute = (s.pos p).mute ∧
    (s.flushPrompts p).flash = s.flash ∧ (s.flushPrompts p).link.replies = s.link.replies := by
  obtain ⟨t, walk, ⟨same, empty⟩ | e⟩ := State.flushPrompts_walk (s := s) (p := p)
  · rw [same, empty]
    exact ⟨nofun, rfl, rfl, rfl, rfl⟩
  · have suffix := walk.entries p
    obtain ⟨made, _, passage⟩ := walk.passage
    obtain ⟨leg, supervision, whisper, pos⟩ := passage.pos p
    rw [State.flushed_pos] at suffix pos
    rw [e]
    refine ⟨fun w mem => ?_, ?_, ?_, ?_, ?_⟩
    · have kept := List.of_mem_filter (suffix.subset mem)
      exact Bool.not_eq_true' _ ▸ kept
    · exact (congrArg Position.port pos : (t.pos p).port = _)
    · exact (congrArg Position.mute pos : (t.pos p).mute = _)
    · exact (congrArg State.flash passage.frame : t.flash = _)
    · exact (congrArg Link.replies passage.link).trans ((Link.placeReports_replies _ _ _).trans (Link.placeReports_replies _ _ _))

/-- One PROMPT flushed. -/
theorem State.flushed_one {stop : Bool} {host : Nat} (entries : (s.pos p).whisper.entries = [w]) (kind : w.kind = .prompt stop host) :
    w.isPrompt = true ∧ ((s.flushed p).pos p).whisper.entries = [] ∧ s.flushed p = (s.modWhisper p fun q => { q with entries := [] }).report (.whisperAborted ⟨p, w.clip, host, some .flush⟩) := by
  have prompt : w.isPrompt = true := by
    unfold WhisperEntry.isPrompt
    rw [kind]
  have tag : w.tag = host := by
    unfold WhisperEntry.tag
    rw [kind]
  have none_ : ((s.pos p).whisper.entries.filter fun w => !w.isPrompt) = [] := by
    rw [entries, List.filter_cons_of_neg (by rw [prompt]; exact Bool.false_ne_true), List.filter_nil]
  refine ⟨prompt, by rw [State.flushed_pos]; exact none_, ?_⟩
  have removed : (s.modWhisper p fun q => { q with entries := q.entries.filter fun w => !w.isPrompt }) = s.modWhisper p fun q => { q with
      entries := [] } := State.modWhisper_congr (by rw [none_])
  unfold State.flushed
  rw [removed, entries, List.filter_cons_of_pos prompt, List.filter_nil, ← tag]
  rfl

end Flush

/-- Settles O45: what every flush leaves (`State.flushPrompts_leaves`), and the one PROMPT that waits or plays. -/
theorem whisperFlushed : Obligations.WhisperFlushed := by
  intro s p tag ready
  have own : exec (.whisperFlush tag (.fields p.val)) s = .next ((s.flushPrompts p).ok 0x41 tag) := by
    rw [exec_whisperFlush_ready ready]
    exact congrArg (fun h : Handled => Host.Outcome.next (h.replied 0x41 tag)) (withPosition_val p s _)
  refine ⟨?_, fun empty => ?_, fun w stop host entries kind => ⟨fun d head => ?_, fun e head playing running => ?_⟩⟩
  · obtain ⟨prompts, port, mute, flash, replies⟩ := State.flushPrompts_leaves (s := s) (p := p)
    exact ⟨_, own, prompts, port, mute, flash, (Link.placeReply_replies _ _).trans (congrArg (· ++ _) replies)⟩
  · rw [own, State.flushPrompts_empty empty]
  · obtain ⟨prompt, empty, flushed⟩ := State.flushed_one entries kind
    have removed := State.headRemoved_waiting (s := s.flushed p) (p := p) (d := d) (by rw [State.flushed_pos]; exact head) empty
    have records : ((s.flushed p).headRemoved p).legs = s.legs ∧ ((s.flushed p).headRemoved p).plans = s.plans
      ∧ ((s.flushed p).headRemoved p).engines = s.engines := by
      rw [removed]
      exact ⟨rfl, rfl, rfl⟩
    obtain ⟨legs, plans, engines⟩ := records
    refine ⟨_, own, ?_⟩
    rw [State.flushPrompts_cons entries, if_pos prompt, State.finish_of_records legs plans engines, removed, flushed]
    have twice := State.modWhisper_modWhisper s p (fun q => { q with entries := [] }) fun q => { q with head := .none }
    have positions := congrArg State.positions twice
    refine ⟨?_, fun q other => ?_, fun x mem => ?_, fun x mem => ?_, Rederived.of_lists (State.rederiveAll_rederived _) rfl rfl, rfl, rfl⟩
    · exact (congrArg (tget · p) positions).trans (State.pos_modWhisper_same s p _)
    · exact (congrArg (tget · q) positions).trans (State.pos_modWhisper_ne s p q _ (Ne.symm other))
    · exact of_decide_eq_true (List.mem_filter.1 mem).2
    · exact of_decide_eq_true (List.mem_filter.1 mem).2
  · obtain ⟨prompt, empty, flushed⟩ := State.flushed_one entries kind
    have removed := State.headRemoved_playing (s := s.flushed p) (p := p) (e := e) (by rw [State.flushed_pos]; exact head) empty playing running
    refine ⟨_, own, ?_⟩
    rw [State.flushPrompts_cons entries, if_pos prompt, removed, State.flushed_pos, flushed]
    have twice := State.modWhisper_modWhisper s p (fun q => { q with entries := [] }) fun q => { q with
      head := .none, detached := some e, gap := if (s.pos p).config.whisperGap = 0 then none else some 0 }
    have positions := congrArg State.positions twice
    refine ⟨?_, fun q other => ?_, ?_, fun d other => ?_, rfl⟩
    · exact (congrArg (tget · p) positions).trans (State.pos_modWhisper_same s p _)
    · exact (congrArg (tget · q) positions).trans (State.pos_modWhisper_ne s p q _ (Ne.symm other))
    · exact tget_tset_same _ _ _
    · exact tget_tset_ne _ _ _ _ (Ne.symm other)

end Sys2Proof.Machine
end

section
set_option Elab.async false
/-! ## A connect cancelled (O21) -/

namespace Sys2Proof.Machine

theorem Leg.originState_eq (x : Leg) : x.originState = if x.origin = some .held then .held else .opened := by
  unfold Leg.originState
  cases x.origin with
  | none => rfl
  | some o => cases o <;> rfl

section Cancel
variable {s : State} {l : LegId} {p : PosId} {w : WhisperEntry} {d : Nat}

/-- The record of a leg back at its origin (R43). -/
def Leg.cancelled (x : Leg) : Leg :=
  { x with state := if x.origin = some .held then .held else .opened, attached := none, origin := none }

/-- A leg that returns to its origin, and the position that it frees. -/
theorem State.abortConnect_attached (there : (s.leg l).attached = some p) : s.abortConnect l = { s with
    legs := tset s.legs l (s.leg l).cancelled, positions := tset s.positions p { s.pos p with leg := none } } := by
  unfold State.abortConnect State.detach
  rw [there]
  dsimp only
  have first : (((s.modLeg l fun x => { x with attached := none }).modPos p fun x => { x with leg := none }).leg l)
      = { s.leg l with attached := none } := State.leg_modLeg_same s l fun x => { x with attached := none }
  unfold State.modLeg at first ⊢
  dsimp only
  rw [first, Leg.originState_eq]
  exact congrArg (fun legs => ({ s with legs := legs, positions := tset s.positions p { s.pos p with leg := none } } : State)) (tset_tset _ _ _ _)

/-- The queue of a cancelled connect whose CALL_WHISPER waited alone. -/
theorem State.cancelConnect_waiting (there : (s.leg l).attached = some p) (entries : (s.pos p).whisper.entries = [w]) (call : w.isCallOf l = true)
    (head : (s.pos p).whisper.head = .waiting d) : s.cancelConnect l = (State.withdraw { s with
      legs := tset s.legs l (s.leg l).cancelled
      positions := tset s.positions p { s.pos p with leg := none, whisper := { (s.pos p).whisper with entries := [], head := .none } } }
        (.whisper p)).finish s := by
  have aborted := State.abortConnect_attached there
  have pos : (s.abortConnect l).pos p = { s.pos p with leg := none } := by
    rw [aborted]
    exact tget_tset_same _ _ _
  have removed : (s.abortConnect l).removeCallWhisper l p = ((s.abortConnect l).modWhisper p fun q => { q with entries := [] }).headRemoved p := by
    unfold State.removeCallWhisper
    rw [pos]
    dsimp only
    rw [entries]
    exact if_pos call
  have emptied := State.pos_modWhisper_same (s.abortConnect l) p fun q => { q with entries := [] }
  have waiting := State.headRemoved_waiting (s := (s.abortConnect l).modWhisper p fun q => { q with entries := [] }) (p := p) (d := d)
    (by rw [emptied, pos]; exact head) (by rw [emptied])
  unfold State.cancelConnect
  rw [there]
  dsimp only
  rw [removed, waiting, State.modWhisper_modWhisper]
  refine congrArg (fun u : State => (u.withdraw (.whisper p)).finish s) ?_
  show ({ s.abortConnect l with positions := tset (s.abortConnect l).positions p { (s.abortConnect l).pos p with whisper := _ } } : State) = _
  rw [pos, aborted]
  exact congrArg (fun positions => ({ s with legs := tset s.legs l (s.leg l).cancelled, positions := positions } : State)) (tset_tset _ _ _ _)

/-- The plan of a cancelled leg's session is the one it had while CONNECTING. -/
theorem State.sessionPlan_cancelled {t : State} (connecting : (s.leg l).state = .connecting) (back : t.leg l = (s.leg l).cancelled) :
    t.sessionPlan l = s.sessionPlan l := by
  unfold State.sessionPlan
  rw [back, connecting, Leg.cancelled]
  dsimp only
  by_cases held : (s.leg l).origin = some .held
  · rw [if_pos held, if_pos (.inl rfl), if_pos (.inr ⟨rfl, held⟩)]
  · rw [if_neg held, if_neg (by simp), if_neg (by simp [held])]

end Cancel

/-- Settles O21: the leg and its position as `State.cancelConnect_waiting` leaves them, and no music source has changed. -/
theorem legCancelConnect : Obligations.LegCancelConnect := by
  intro s l tag ready
  have asked : ownLegCancelConnect l.val s = if (s.leg l).state = .connecting then accept (s.cancelConnect l) else refuse s .busy :=
    withLeg_val l s _
  refine ⟨fun other => ?_, fun p w d connecting there entries call head => ?_⟩
  · rw [exec_legCancelConnect_ready ready, asked, if_neg other]
    rfl
  · have own : exec (.legCancelConnect tag (.fields l.val)) s = .next ((s.cancelConnect l).ok 0x13 tag) := by
      rw [exec_legCancelConnect_ready ready, asked, if_pos connecting]
      rfl
    refine ⟨_, own, ?_⟩
    rw [State.cancelConnect_waiting there entries call head]
    generalize back : State.withdraw { s with
      legs := tset s.legs l (s.leg l).cancelled
      positions := tset s.positions p { s.pos p with leg := none, whisper := { (s.pos p).whisper with entries := [], head := .none } } }
        (.whisper p) = u
    have leg : ∀ m, u.leg m = if m = l then (s.leg l).cancelled else s.leg m := fun m => by
      rw [← back]
      exact tget_tset_ite _ _ _ _
    have same : u.finish s = u.rederiveAll := by
      refine congrArg State.rederiveAll (State.noticeMusic_of_kept fun m _ _ => ?_)
      have plan : u.sessionPlan m = s.sessionPlan m := by
        by_cases own : m = l
        · subst own
          exact State.sessionPlan_cancelled connecting ((leg m).trans (if_pos rfl))
        · unfold State.sessionPlan
          rw [(leg m).trans (if_neg own)]
      unfold State.musicSource
      rw [plan, ← back]
      rfl
    rw [same, ← back]
    refine ⟨tget_tset_same _ _ _, tget_tset_same _ _ _, fun m other => tget_tset_ne _ _ _ _ (Ne.symm other),
      fun q other => tget_tset_ne _ _ _ _ (Ne.symm other), fun x mem => ?_, fun x mem => ?_, rfl, rfl⟩
    · exact of_decide_eq_true (List.mem_filter.1 mem).2
    · exact of_decide_eq_true (List.mem_filter.1 mem).2

end Sys2Proof.Machine
end

section
set_option Elab.async false
/-! ## The announcement step (O33) -/

namespace Sys2Proof.Machine

/-! ### Music sources through a request (R57, R153) -/

section Music
variable {s t : State}

/-- A plan's music source reads its record, its binding and whether an engine is PLAYING. -/
theorem State.planMusic_of_engines (plans : t.plans = s.plans) (playing : ∀ e, (t.eng e).state = .playing ↔ (s.eng e).state = .playing)
    (h : PlanId) : t.planMusic h = s.planMusic h := by
  have plan : t.plan h = s.plan h := congrArg (tget · h) plans
  unfold State.planMusic
  rw [plan]
  split
  · rfl
  · split
    · rfl
    · rfl
    · split
      · exact if_congr (playing _) rfl rfl
      · rfl

/-- The end of an event that keeps every session's plan and every PLAYING engine re-derives the feed lists and does nothing else. -/
theorem State.finish_of_playing (plans : t.plans = s.plans) (playing : ∀ e, (t.eng e).state = .playing ↔ (s.eng e).state = .playing)
    (sessions : ∀ m, t.sessionPlan m = s.sessionPlan m) : t.finish s = t.rederiveAll := by
  refine congrArg State.rederiveAll (t.noticeMusic_eq s fun m => ?_)
  unfold State.musicSource
  rw [sessions m]
  split
  · exact State.planMusic_of_engines plans playing _
  · rfl

/-- A leg's plan is read from its state, its origin and its session's plan. -/
theorem State.sessionPlan_of_leg {m : LegId} (state : (t.leg m).state = (s.leg m).state) (origin : (t.leg m).origin = (s.leg m).origin)
    (plan : (t.leg m).session.map Session.plan = (s.leg m).session.map Session.plan) : t.sessionPlan m = s.sessionPlan m := by
  unfold State.sessionPlan
  rw [state, origin]
  split
  · cases before : (s.leg m).session with
    | none =>
      rw [before] at plan
      rw [Option.map_eq_none_iff.1 plan]
    | some x =>
      rw [before] at plan
      obtain ⟨y, after, same⟩ := Option.map_eq_some_iff.1 plan
      rw [after]
      exact same
  · rfl

end Music

/-! ### A greeting's or an announcement's request (R143, R144) -/

section Request
variable {u : State} {l : LegId} {y : Session} {r : SessionRequest}

/-- The engine found is FREE. -/
theorem State.freeEngine_free {e : EngId} (free : u.freeEngine = some e) : (u.eng e).state = .free := by
  unfold State.freeEngine at free
  have found := List.find?_some free
  exact of_decide_eq_true found

/-- What a session's request leaves: its answer, and nothing else that the music sources or the host see. -/
structure LegAsked (u t : State) (l : LegId) (y : Session) (r : SessionRequest) (e : Option EngId) : Prop where
  answer : LegRequested u t l r.clip e
  session : t.leg l = { u.leg l with session := some { y with request := some { r with engine := e } } }
  legs : ∀ m, m ≠ l → t.leg m = u.leg m
  positions : t.positions = u.positions
  plans : t.plans = u.plans
  playing : ∀ d, (t.eng d).state = .playing ↔ (u.eng d).state = .playing
  replies : t.link.replies = u.link.replies

theorem State.run_request_leg (session : (u.leg l).session = some y) (request : y.request = some r) (unanswered : r.engine = none)
    (clip : u.isReady r.clip = true) : ∃ e, LegAsked u (u.run [.request ⟨.leg l, r.clip⟩]) l y r e := by
  have same : u.leg l = { u.leg l with session := some { y with request := some { r with engine := none } } } := by
    rw [← unanswered, ← request, ← session]
  cases owns : u.ownsEngine (.leg l) with
  | true =>
    rw [State.run_request_held owns]
    obtain ⟨d, busy, own⟩ := State.ownsEngine_iff.1 owns
    have busy_ : ¬ ∀ d, (u.eng d).state = .free ∨ (u.eng d).owner ≠ some (.leg l) := fun k => (k d).elim busy fun n => n own
    exact ⟨none, ⟨fun _ => ⟨rfl, rfl, rfl⟩, fun k => absurd k busy_, fun k => absurd k busy_⟩, same, fun _ _ => rfl, rfl, rfl, fun _ => .rfl, rfl⟩
  | false =>
    have idle : ¬ ∃ d, (u.eng d).state ≠ .free ∧ (u.eng d).owner = some (.leg l) := fun k => nomatch owns.symm.trans (State.ownsEngine_iff.2 k)
    by_cases waits : u.arbiter.scanning = true ∨ u.freeEngine = none
    · rw [State.run_request_waits owns waits (by rw [show Owner.cls _ = 1 from rfl]; decide)]
      refine ⟨none, ⟨fun k => absurd k idle, fun _ _ => ⟨rfl, rfl, enqueue_enqueued _ _, rfl⟩, fun _ scanning d free first => ?_⟩, same, fun _ _ => rfl,
        rfl, rfl, fun _ => .rfl, rfl⟩
      rcases waits with k | k
      · exact nomatch scanning.symm.trans k
      · exact nomatch (State.freeEngine_first free first).symm.trans k
    · rw [not_or] at waits
      obtain ⟨scanning, free⟩ := waits
      have scanning := Bool.eq_false_iff.2 scanning
      obtain ⟨e, free⟩ := Option.ne_none_iff_exists'.1 free
      rw [State.run_request_granted (w := ⟨.leg l, r.clip⟩) owns scanning free clip]
      obtain ⟨⟨memory, link, frame⟩, replies, _⟩ := u.grant_leg e l r.clip
      rw [frame] at replies ⊢
      have was : (u.eng e).state = .free := State.freeEngine_free free
      refine ⟨some e, ⟨fun k => absurd k idle, fun _ k => ?_, fun _ _ d free' first => ?_⟩, ?_, fun m other => ?_, rfl, rfl, fun d => ?_, replies⟩
      · rcases k with k | k
        · exact nomatch scanning.symm.trans k
        · exact absurd was (k e)
      · obtain rfl : e = d := Option.some.inj (free.symm.trans (State.freeEngine_first free' first))
        exact ⟨rfl, tget_tset_same _ _ _, fun k other => tget_tset_ne _ _ _ _ (Ne.symm other), tget_tset_same _ _ _, rfl⟩
      · refine (tget_tset_same _ _ _).trans ?_
        show ({ u.leg l with session := (u.leg l).session.map _ } : Leg) = _
        rw [session, Option.map_some, request]
        rfl
      · exact tget_tset_ne _ _ _ _ (Ne.symm other)
      · show (tget (tset u.engines e _) d).state = _ ↔ _
        rw [tget_tset_ite]
        split
        · rename_i own
          subst own
          rw [was]
          exact ⟨nofun, nofun⟩
        · exact .rfl

end Request

/-! ### The announcement step (R157) -/

section Step
variable {s : State} {l : LegId} {x : Session} {r : PlanRecord} {list : List ClipId}

theorem getElem?_mod {place : Nat} (some_ : list ≠ []) : ∃ b, list[place % list.length]? = some b :=
  ⟨_, List.getElem?_eq_getElem (Nat.mod_lt _ (List.length_pos_of_ne_nil some_))⟩

/-- No READY clip is found where none stands in the list. -/
theorem State.findReady_none (none_ : ∀ a ∈ list, s.isReady a = false) (place n : Nat) : s.findReady list place n = none := by
  induction n generalizing place with
  | zero => rfl
  | succ n ih =>
    unfold State.findReady
    split
    · rfl
    · rename_i a here
      rw [if_neg (by rw [none_ a (List.mem_of_getElem? here)]; exact Bool.false_ne_true)]
      exact ih (place + 1)

/-- The first READY clip from a place on, around the list. -/
theorem State.findReady_first {a : ClipId} {k : Nat} (place n : Nat) (tries : k < n) (here : list[(place + k) % list.length]? = some a)
    (clip : s.isReady a = true) (before : ∀ j, j < k → ∀ b, list[(place + j) % list.length]? = some b → s.isReady b = false) :
    s.findReady list place n = some ((place + k) % list.length, a) := by
  induction k generalizing place n with
  | zero =>
    obtain ⟨m, rfl⟩ : ∃ m, n = m + 1 := ⟨n - 1, by omega⟩
    unfold State.findReady
    rw [Nat.add_zero] at here ⊢
    rw [here]
    exact if_pos clip
  | succ k ih =>
    obtain ⟨m, rfl⟩ : ∃ m, n = m + 1 := ⟨n - 1, by omega⟩
    have some_ : list ≠ [] := by
      rintro rfl
      exact nomatch here
    obtain ⟨b, first⟩ := getElem?_mod (place := place) some_
    have rest := ih (place + 1) m (by omega) (by rw [Nat.add_right_comm, Nat.add_assoc]; exact here) fun j lower b' there =>
      before (j + 1) (by omega) b' (by rw [← Nat.add_assoc, Nat.add_right_comm]; exact there)
    unfold State.findReady
    rw [first]
    dsimp only
    rw [if_neg (by rw [before 0 (Nat.succ_pos k) b first]; exact Bool.false_ne_true), rest, Nat.add_right_comm, Nat.add_assoc]

/-- A session put in place of a leg's session. -/
def State.putSession (s : State) (l : LegId) (x : Session) : State := s.modLeg l fun y => { y with session := some x }

theorem State.putSession_leg (s : State) (l : LegId) (x : Session) : (s.putSession l x).leg l = { s.leg l with session := some x } :=
  State.leg_modLeg_same s l fun y => { y with session := some x }

theorem State.session_putSession (s : State) (l : LegId) (x : Session) : ((s.putSession l x).leg l).session = some x :=
  congrArg Leg.session (State.putSession_leg s l x)

theorem State.putSession_others {m : LegId} (x : Session) (other : m ≠ l) : (s.putSession l x).leg m = s.leg m :=
  State.leg_modLeg_ne s l m _ (Ne.symm other)

/-- A session on the same plan keeps every leg's plan. -/
theorem State.sessionPlan_putSession {y : Session} (session : (s.leg l).session = some x) (plan : y.plan = x.plan) (m : LegId) :
    (s.putSession l y).sessionPlan m = s.sessionPlan m := by
  by_cases own : m = l
  · subst own
    refine State.sessionPlan_of_leg (by rw [State.putSession_leg]) (by rw [State.putSession_leg]) ?_
    rw [State.putSession_leg, session]
    exact congrArg some plan
  · unfold State.sessionPlan
    rw [State.putSession_others y own]

theorem State.putSession_finish {y : Session} (session : (s.leg l).session = some x) (plan : y.plan = x.plan) :
    (s.putSession l y).finish s = (s.putSession l y).rederiveAll :=
  State.finish_of_playing rfl (fun _ => .rfl) (State.sessionPlan_putSession session plan)

theorem State.stepSession_empty (empty : r.announcements = []) :
    s.stepSession l x r = s.putSession l { x with countdown := some r.interval } := by
  unfold State.stepSession
  dsimp only
  rw [empty]
  rfl

theorem State.stepSession_none (some_ : r.announcements ≠ []) (none_ : ∀ a ∈ r.announcements, s.isReady a = false) :
    s.stepSession l x r = s.putSession l { x with
      countdown := some r.interval, nextIndex := x.nextIndex % r.announcements.length } := by
  unfold State.stepSession
  dsimp only
  split
  · exact absurd ‹_› some_
  · rw [State.findReady_none none_]
    rfl

theorem State.stepSession_found {i : Nat} {a : ClipId} (some_ : r.announcements ≠ [])
    (found : s.findReady r.announcements (x.nextIndex % r.announcements.length) r.announcements.length = some (i, a)) :
    s.stepSession l x r = (s.putSession l { x with
      phase := .announcing, countdown := none, nextIndex := i, request := some ⟨a, some i, none⟩ }).run [.request ⟨.leg l, a⟩] := by
  unfold State.stepSession
  dsimp only
  split
  · exact absurd ‹_› some_
  · rw [found]
    rfl

/-- Sessions without a block event of their own: in another phase nothing happens. -/
theorem State.sessionBlock_other (session : (s.leg l).session = some x) (phase : x.phase ≠ .background) : s.sessionBlock l = s := by
  unfold State.sessionBlock
  rw [session]
  dsimp only
  split
  · exact absurd ‹_› phase
  · rfl

/-- The countdown of a session in BACKGROUND on a plan, and the step at its end. -/
theorem State.sessionBlock_counts {h : PlanId} {c : Nat} (session : (s.leg l).session = some x) (plan : x.plan = some h)
    (record : (s.plan h).record = some r) (phase : x.phase = .background) (countdown : x.countdown = some c) :
    s.sessionBlock l = if c - 1 = 0 then (s.stepSession l { x with countdown := some 0 } r).finish s
      else s.putSession l { x with countdown := some (c - 1) } := by
  have found : s.sessionRecord x = some r := by
    unfold State.sessionRecord
    rw [plan]
    exact record
  unfold State.sessionBlock
  rw [session]
  dsimp only
  rw [phase, countdown, found]
  rfl

end Step

/-- Settles O33: the countdown (`State.sessionBlock_counts`), the first READY clip from the next index on (`State.findReady_first`) and its
request (`State.run_request_leg`). -/
theorem announcementStep : Obligations.AnnouncementStep := by
  intro s l
  refine ⟨fun none_ => ?_, fun x h r session plan record => ⟨fun phase => ?_, fun c phase countdown => ⟨fun more => ?_, fun due empty => ?_,
    fun due some_ none_ => ?_, fun k i a due lower index here clip before => ?_⟩⟩⟩
  · refine congrArg Host.Outcome.next ?_
    unfold State.sessionBlock
    rw [none_]
  · exact congrArg Host.Outcome.next (State.sessionBlock_other session phase)
  all_goals have block := State.sessionBlock_counts session plan record phase countdown
  · rw [if_neg (by omega)] at block
    exact congrArg Host.Outcome.next block
  · rw [if_pos (by omega)] at block
    have stepped := State.stepSession_empty (s := s) (l := l) (x := { x with countdown := some 0 }) empty
    have finished := State.putSession_finish (s := s) (l := l) (y := { x with countdown := some r.interval }) session rfl
    exact ⟨_, congrArg Host.Outcome.next (block.trans ((congrArg (State.finish · s) stepped).trans finished)), State.putSession_leg s l _,
      fun m other => State.putSession_others _ other, Rederived.of_lists (State.rederiveAll_rederived _) rfl rfl, rfl⟩
  · rw [if_pos (by omega)] at block
    have stepped := State.stepSession_none (s := s) (l := l) (x := { x with countdown := some 0 }) some_ none_
    have finished := State.putSession_finish (s := s) (l := l) (y := { x with
      countdown := some r.interval, nextIndex := x.nextIndex % r.announcements.length }) session rfl
    exact ⟨_, congrArg Host.Outcome.next (block.trans ((congrArg (State.finish · s) stepped).trans finished)), State.putSession_leg s l _,
      fun m other => State.putSession_others _ other, Rederived.of_lists (State.rederiveAll_rederived _) rfl rfl, rfl⟩
  · subst index
    generalize place : (x.nextIndex % r.announcements.length + k) % r.announcements.length = i at here
    rw [if_pos (by omega)] at block
    have found := State.findReady_first (s := s) (x.nextIndex % r.announcements.length) r.announcements.length lower (place ▸ here) clip before
    rw [place] at found
    have stepped := State.stepSession_found (s := s) (l := l) (x := { x with countdown := some 0 })
      (fun e => by rw [e] at lower; exact absurd lower (Nat.not_lt_zero k)) found
    let y : Session := { x with phase := .announcing, countdown := none, nextIndex := i, request := some ⟨a, some i, none⟩ }
    obtain ⟨e, asked⟩ := State.run_request_leg (State.session_putSession s l y) rfl rfl clip
    obtain ⟨⟨held, waiting, granted⟩, own, legs, positions, plans, playing, replies⟩ := asked
    have kept : ∀ m, ((s.putSession l y).run [.request ⟨.leg l, a⟩]).sessionPlan m = s.sessionPlan m := fun m => by
      refine Eq.trans ?_ (State.sessionPlan_putSession (y := y) session rfl m)
      by_cases mine : m = l
      · subst mine
        exact State.sessionPlan_of_leg (by rw [own]) (by rw [own]) (by rw [own, State.session_putSession]; rfl)
      · unfold State.sessionPlan
        rw [legs m mine]
    have finished := State.finish_of_playing (s := s) plans playing kept
    refine ⟨_, e, congrArg Host.Outcome.next (block.trans ((congrArg (State.finish · s) stepped).trans finished)), ?_⟩
    generalize (s.putSession l y).run [.request ⟨.leg l, a⟩] = t at *
    refine ⟨?_, ⟨held, waiting, granted⟩, ?_, fun m other => ?_, fun p => ?_, replies⟩
    · exact (congrArg Leg.session own).trans (by rw [← plan])
    · have state : ((s.putSession l y).leg l).state = (s.leg l).state := by rw [State.putSession_leg]
      exact (congrArg Leg.state own).trans state
    · exact (legs m other).trans (State.putSession_others y other)
    · exact congrArg (tget · p) positions

end Sys2Proof.Machine
end

section
set_option Elab.async false
/-! ## PLAN_SET and PLAN_DELETE (O32) -/

namespace Sys2Proof.Machine

/-! ### The record as stored (R147) -/

theorem optionalId_within {k : Nat} {o : Option Nat} (within : ∀ n, o = some n → n < k) : ∃ i, optionalId k o = some i ∧ i.map Fin.val = o := by
  cases o with
  | none => exact ⟨none, rfl, rfl⟩
  | some n => exact ⟨some ⟨n, within n rfl⟩, by simp [optionalId, toId, within n rfl], rfl⟩

theorem allIds_within {k : Nat} {list : List Nat} (within : ∀ n ∈ list, n < k) : ∃ ids, allIds k list = some ids ∧ ids.map Fin.val = list := by
  induction list with
  | nil => exact ⟨[], rfl, rfl⟩
  | cons n rest ih =>
    have small := within n List.mem_cons_self
    obtain ⟨ids, found, same⟩ := ih fun m mem => within m (List.mem_cons_of_mem n mem)
    refine ⟨⟨n, small⟩ :: ids, ?_, by rw [List.map_cons, same]⟩
    unfold allIds
    rw [show toId k n = some ⟨n, small⟩ from dif_pos small, found]

/-- The field that a background is sent as. -/
def FieldNames (f : BackgroundField) (b : Background) : Prop :=
  (f = .absent ∧ b = .absent) ∨ (∃ k : ChanId, f = .program k.val ∧ b = .program k) ∨ (∃ c : ClipId, f = .shared c.val ∧ b = .shared c)

theorem backgroundOf_names {f : BackgroundField} {b : Background} (h : FieldNames f b) : backgroundOf f = some b := by
  obtain ⟨rfl, rfl⟩ | ⟨k, rfl, rfl⟩ | ⟨c, rfl, rfl⟩ := h
  · rfl
  · unfold backgroundOf
    dsimp only
    rw [toId_val]
    rfl
  · unfold backgroundOf
    dsimp only
    rw [toId_val]
    rfl

/-- The fields of PLAN_SET that stand in their ranges (R147). -/
def WithinRanges (f : PlanFields) : Prop :=
  (∀ n ∈ f.announcements, n < 256) ∧ (∀ n, f.greeting = some n → n < 256) ∧ (∀ n, f.fallback = some n → n < 4) ∧ f.resume < 2

/-- What a stored record holds of its fields (R147, R159). -/
structure StoredFrom (f : PlanFields) (b : Background) (r : PlanRecord) : Prop where
  background : r.background = b
  musicLevel : r.musicLevel = f.musicLevel
  greeting : r.greeting.map Fin.val = f.greeting
  announcements : r.announcements.map Fin.val = f.announcements
  firstDelay : r.firstDelay = f.firstDelay
  interval : r.interval = max 250 f.interval
  duck : r.duck = min 16384 f.duck
  resume : r.resume = decide (f.resume = 0)
  fallback : r.fallback.map Fin.val = f.fallback

theorem storedPlan_within {f : PlanFields} {b : Background} (within : WithinRanges f) (names : FieldNames f.background b) :
    ∃ r, storedPlan f = some r ∧ StoredFrom f b r := by
  obtain ⟨list, greeting, fallback, resume⟩ := within
  obtain ⟨g, foundGreeting, sameGreeting⟩ := optionalId_within greeting
  obtain ⟨ids, foundList, sameList⟩ := allIds_within list
  obtain ⟨x, foundFallback, sameFallback⟩ := optionalId_within fallback
  unfold storedPlan
  rw [backgroundOf_names names, foundGreeting, foundList, foundFallback, flagOf_of_lt resume]
  exact ⟨_, rfl, rfl, rfl, sameGreeting, sameList, rfl, rfl, rfl, rfl, sameFallback⟩

theorem storedPlan_unnamed {f : PlanFields} (unnamed : backgroundOf f.background = none) : storedPlan f = none := by
  unfold storedPlan
  rw [unnamed]
  rfl

section Own
variable {s : State} {h : PlanId} {f : PlanFields} {r : PlanRecord}

theorem ownPlanSet_stored (plan : f.plan = h.val) (stored : storedPlan f = some r) : ownPlanSet f s =
    if Config.announcements < r.announcements.length then refuse s .length else accept (s.setPlan h r) := by
  unfold ownPlanSet
  rw [plan, toId_val, stored]

theorem ownPlanSet_unstored (stored : storedPlan f = none) : ownPlanSet f s = refuse s .range := by
  unfold ownPlanSet
  rw [stored]
  split
  · exact nomatch ‹none = some _›
  · rfl

/-! ### The stream under a new record (R151, R152) -/

/-- A plan whose background is no READY clip makes no request. -/
theorem State.judgeStream_unready (record : (s.plan h).record = some r) (unready : ∀ c, r.background = .shared c → s.isReady c = false) :
    s.judgeStream h = s := by
  unfold State.judgeStream
  rw [record]
  dsimp only
  split
  · rfl
  · rfl
  · rename_i c background
    exact if_neg fun k => Bool.false_ne_true ((unready c background).symm.trans k.2.1)

/-- The plan's record replaced. -/
def State.recorded (s : State) (h : PlanId) (r : PlanRecord) : State := s.modPlan h fun x => { x with record := some r }

theorem State.recorded_plan (s : State) (h : PlanId) (r : PlanRecord) : (s.recorded h r).plan h = { s.plan h with record := some r } :=
  State.plan_modPlan_same s h fun x => { x with record := some r }

theorem State.setPlan_kept (kept : s.backgroundChanges h r = false) :
    s.setPlan h r = ((s.recorded h r).judgeStream h).finish s := by
  unfold State.setPlan
  rw [kept]
  rfl

theorem State.setPlan_changed (changed : s.backgroundChanges h r = true) :
    s.setPlan h r = (((s.recorded h r).stopStream h).judgeStream h).finish s := by
  unfold State.setPlan
  rw [changed]
  rfl

/-- A record replaced on a plan without users, or with the same background that is no clip, reaches no stream. -/
theorem State.setPlan_quiet (quiet : (s.plan h).useCount = 0 ∨ ((∃ old, (s.plan h).record = some old ∧ old.background = r.background)
    ∧ ∀ c, r.background ≠ .shared c)) : s.setPlan h r = (s.recorded h r).finish s := by
  have kept : s.backgroundChanges h r = false := by
    unfold State.backgroundChanges
    obtain unused | ⟨⟨old, record, same⟩, _⟩ := quiet
    · rw [unused]
      rfl
    · rw [record]
      dsimp only
      rw [decide_eq_false (not_not.2 same), Bool.and_false]
  have judged : (s.recorded h r).judgeStream h = s.recorded h r := by
    obtain unused | ⟨_, other⟩ := quiet
    · exact State.judgeStream_of_unused (by rw [State.recorded_plan]; exact unused)
    · exact State.judgeStream_unready (by rw [State.recorded_plan]) fun c background => absurd background (other c)
  rw [State.setPlan_kept kept, judged]

theorem State.backgroundChanges_used {old : PlanRecord} (record : (s.plan h).record = some old) (other : old.background ≠ r.background)
    (used : 0 < (s.plan h).useCount) : s.backgroundChanges h r = true := by
  unfold State.backgroundChanges
  rw [record]
  dsimp only
  rw [decide_eq_true used, decide_eq_true other]
  rfl

/-- The bound PLAYING engine of a changed background is stopped, and stays bound. -/
theorem State.stopStream_playing {e : EngId} (bound : (s.plan h).bound = some e) (pending : (s.plan h).pending = false)
    (playing : (s.eng e).state = .playing) (running : (s.eng e).closing = 0) :
    s.stopStream h = (s.withdrawFetch e).modEng e fun x => { x with state := .stopping, stopOutcome := .stopped } := by
  have stopped : s.run [.stop e .stopped] = (s.withdrawFetch e).modEng e fun x => { x with state := .stopping, stopOutcome := .stopped } :=
    (State.run_stop_playing playing _).trans (if_pos running)
  unfold State.stopStream
  rw [bound]
  dsimp only
  rw [show (if (s.eng e).state = .priming ∨ (s.eng e).state = .playing then s.run [.stop e .stopped] else s) = s.run [.stop e .stopped] from
    if_pos (.inr playing), stopped]
  refine if_neg fun k => ?_
  have still : (s.plan h).pending = true := k
  exact Bool.false_ne_true (pending.symm.trans still)

/-- A pending request of a changed background is withdrawn. -/
theorem State.stopStream_pending (bound : (s.plan h).bound = none) (pending : (s.plan h).pending = true) :
    s.stopStream h = (s.withdraw (.shared h)).modPlan h fun x => { x with pending := false } := by
  unfold State.stopStream
  rw [bound]
  dsimp only
  exact if_pos pending

end Own

/-! ### The statement's three parts -/

section Parts
variable {s : State} {h : PlanId} {tag : Byte} {f : PlanFields} {b : Background}

/-- An accepted PLAN_SET, with the record that it stores. -/
theorem exec_planSet_stored (ready : Ready s) (plan : f.plan = h.val) (within : WithinRanges f) (names : FieldNames f.background b)
    (room : f.announcements.length ≤ 8) :
    ∃ r, StoredFrom f b r ∧ exec (.planSet tag (.fields f)) s = .next ((s.setPlan h r).ok 0x20 tag) := by
  obtain ⟨r, stored, from_⟩ := storedPlan_within within names
  refine ⟨r, from_, ?_⟩
  have length : r.announcements.length = f.announcements.length := by rw [← from_.announcements, List.length_map]
  rw [exec_planSet_ready ready, ownPlanSet_stored plan stored,
    if_neg (show ¬ Config.announcements < r.announcements.length by rw [length]; exact not_lt.2 room)]
  rfl

/-- The stream of a changed background whose bound engine was PLAYING: the request for a READY clip is held behind that engine. -/
theorem State.setPlan_stops {old r : PlanRecord} {e : EngId} (record : (s.plan h).record = some old) (other : old.background ≠ r.background)
    (used : 0 < (s.plan h).useCount) (bound : (s.plan h).bound = some e) (pending : (s.plan h).pending = false)
    (playing : (s.eng e).state = .playing) (running : (s.eng e).closing = 0) (own : (s.eng e).owner = some (.shared h)) :
    ∃ waits held, s.setPlan h r = State.finish { ((s.recorded h r).withdrawFetch e).modEng e (fun x => { x with
        state := .stopping, stopOutcome := .stopped }) with
      plans := tset s.plans h { s.plan h with record := some r, pending := waits }, arbiter := { s.arbiter with held := held } } s ∧
      (∀ c, r.background = .shared c → s.isReady c = true → waits = true ∧ held = s.arbiter.held ++ [⟨.shared h, c⟩]) ∧
      ((∀ c, r.background = .shared c → s.isReady c = false) → waits = false ∧ held = s.arbiter.held) := by
  have stopped := State.stopStream_playing (s := s.recorded h r) (h := h) (e := e) (by rw [State.recorded_plan]; exact bound)
    (by rw [State.recorded_plan]; exact pending) playing running
  have changed := State.setPlan_changed (State.backgroundChanges_used (r := r) record other used)
  rw [stopped] at changed
  generalize named : ((s.recorded h r).withdrawFetch e).modEng e (fun x => { x with state := .stopping, stopOutcome := .stopped }) = u at changed ⊢
  have plan : u.plan h = { s.plan h with record := some r } := by
    rw [← named]
    exact State.recorded_plan s h r
  have plans : u.plans = tset s.plans h { s.plan h with record := some r } := by rw [← named]; rfl
  have arbiter : u.arbiter = s.arbiter := by rw [← named]; rfl
  have clips : ∀ c, u.isReady c = s.isReady c := fun c => by rw [← named]; rfl
  have engine : u.eng e = { s.eng e with state := .stopping, stopOutcome := .stopped } := by
    rw [← named]
    exact tget_tset_same _ _ _
  by_cases asks : ∃ c, r.background = .shared c ∧ s.isReady c = true
  · obtain ⟨c, background, clip⟩ := asks
    have judged : u.judgeStream h = (u.modPlan h fun x => { x with pending := true }).run [.request ⟨.shared h, c⟩] :=
      State.judgeStream_asks (by rw [plan]) background (by rw [plan]; exact used) ((clips c).trans clip)
        (fun d e' => by
          rw [plan] at e'
          obtain rfl : e = d := Option.some.inj (bound.symm.trans e')
          rw [engine]
          exact ⟨nofun, nofun⟩) (by rw [plan]; exact pending)
    have owns : (u.modPlan h fun x => { x with pending := true }).ownsEngine (.shared h) = true :=
      State.ownsEngine_iff.2 ⟨e, show (u.eng e).state ≠ .free ∧ (u.eng e).owner = some (.shared h) by rw [engine]; exact ⟨nofun, own⟩⟩
    refine ⟨true, s.arbiter.held ++ [⟨.shared h, c⟩], ?_, fun c' background' _ => ?_, fun none_ => ?_⟩
    · rw [changed, judged, State.run_request_held owns]
      refine congrArg (State.finish · s) ?_
      show ({ u with plans := tset u.plans h { u.plan h with pending := true }, arbiter := { u.arbiter with held := u.arbiter.held ++ _ } } : State) = _
      rw [plan, plans, arbiter, tset_tset]
    · obtain rfl : c = c' := by
        rw [background] at background'
        exact Background.shared.inj background'
      exact ⟨rfl, rfl⟩
    · exact absurd ((none_ c background).symm.trans clip) Bool.false_ne_true
  · have unready : ∀ c, r.background = .shared c → s.isReady c = false := fun c background =>
      Bool.eq_false_iff.2 fun clip => asks ⟨c, background, clip⟩
    have judged : u.judgeStream h = u := State.judgeStream_unready (by rw [plan]) fun c background => (clips c).trans (unready c background)
    refine ⟨false, s.arbiter.held, ?_,
      fun c background clip => absurd ((unready c background).symm.trans clip) Bool.false_ne_true, fun _ => ⟨rfl, rfl⟩⟩
    rw [changed, judged]
    refine congrArg (State.finish · s) ?_
    have same : tset s.plans h { s.plan h with record := some r, pending := false } = u.plans := by rw [plans, ← pending]
    rw [same, ← arbiter]

/-- What a PLAN_SET that stops the bound engine leaves (R152). -/
theorem State.setPlan_stopped {old r : PlanRecord} {e : EngId} (record : (s.plan h).record = some old) (other : old.background ≠ r.background)
    (used : 0 < (s.plan h).useCount) (bound : (s.plan h).bound = some e) (pending : (s.plan h).pending = false)
    (playing : (s.eng e).state = .playing) (running : (s.eng e).closing = 0) (own : (s.eng e).owner = some (.shared h)) :
    ∃ t, s.setPlan h r = t ∧ (t.plan h).record = some r ∧ (t.plan h).useCount = (s.plan h).useCount ∧ (t.plan h).bound = some e ∧
      t.eng e = { s.eng e with state := .stopping, stopOutcome := .stopped } ∧ (∀ d, d ≠ e → t.eng d = s.eng d) ∧ t.link = s.link ∧
      (∀ c, r.background = .shared c → s.isReady c = true → (t.plan h).pending = true ∧
        t.arbiter = { s.arbiter with held := s.arbiter.held ++ [⟨.shared h, c⟩] }) ∧
      ((∀ c, r.background = .shared c → s.isReady c = false) → (t.plan h).pending = false ∧ t.arbiter = s.arbiter) := by
  obtain ⟨waits, held, stops, asks, quiet⟩ := State.setPlan_stops (r := r) record other used bound pending playing running own
  have plans : (s.setPlan h r).plans = tset s.plans h { s.plan h with record := some r, pending := waits } := by rw [stops]; rfl
  have engines : (s.setPlan h r).engines = tset s.engines e { s.eng e with state := .stopping, stopOutcome := .stopped } := by rw [stops]; rfl
  have arbiter : (s.setPlan h r).arbiter = { s.arbiter with held := held } := by rw [stops]; rfl
  have link : (s.setPlan h r).link = s.link := by rw [stops]; rfl
  clear stops
  generalize s.setPlan h r = t at plans engines arbiter link
  have plan : t.plan h = { s.plan h with record := some r, pending := waits } := (congrArg (tget · h) plans).trans (tget_tset_same _ _ _)
  refine ⟨t, rfl, by rw [plan], by rw [plan], by rw [plan]; exact bound, (congrArg (tget · e) engines).trans (tget_tset_same _ _ _),
    fun d other => (congrArg (tget · d) engines).trans (tget_tset_ne _ _ _ _ (Ne.symm other)), link, fun c background clip => ?_, fun unready => ?_⟩
  · obtain ⟨rfl, rfl⟩ := asks c background clip
    exact ⟨by rw [plan], arbiter⟩
  · obtain ⟨rfl, rfl⟩ := quiet unready
    exact ⟨by rw [plan], arbiter⟩

/-- What a PLAN_SET that withdraws the pending request leaves (R152). -/
theorem State.setPlan_withdrawn {old r : PlanRecord} (record : (s.plan h).record = some old) (other : old.background ≠ r.background)
    (used : 0 < (s.plan h).useCount) (bound : (s.plan h).bound = none) (pending : (s.plan h).pending = true)
    (unready : ∀ c, r.background = .shared c → s.isReady c = false) :
    ∃ t, s.setPlan h r = t ∧ (t.plan h).pending = false ∧ (t.plan h).bound = none ∧ (∀ x ∈ t.arbiter.queue, x.owner ≠ .shared h) ∧
      (∀ x ∈ t.arbiter.held, x.owner ≠ .shared h) ∧ t.engines = s.engines ∧ t.link = s.link := by
  have withdrawn := State.stopStream_pending (s := s.recorded h r) (h := h) (by rw [State.recorded_plan]; exact bound)
    (by rw [State.recorded_plan]; exact pending)
  have changed := State.setPlan_changed (State.backgroundChanges_used (r := r) record other used)
  have plan : (((s.recorded h r).withdraw (.shared h)).modPlan h fun x => { x with pending := false }).plan h =
      { s.plan h with record := some r, pending := false } := by
    rw [State.plan_modPlan_same]
    exact congrArg (fun x : Plan => { x with pending := false }) (State.recorded_plan s h r)
  have judged : (((s.recorded h r).withdraw (.shared h)).modPlan h fun x => { x with pending := false }).judgeStream h = _ :=
    State.judgeStream_unready (by rw [plan]) unready
  rw [withdrawn, judged] at changed
  refine ⟨_, changed, congrArg Plan.pending plan, (congrArg Plan.bound plan).trans bound, fun x mem => ?_, fun x mem => ?_, rfl, rfl⟩
  · exact of_decide_eq_true (List.mem_filter.1 mem).2
  · exact of_decide_eq_true (List.mem_filter.1 mem).2

end Parts

theorem ownPlanDelete_val (s : State) (h : PlanId) : ownPlanDelete h.val s = if (s.plan h).record = none then accept s
    else if 0 < (s.plan h).useCount then refuse s .inUse else accept (s.modPlan h fun _ => Plan.reset) := by
  unfold ownPlanDelete withPlan
  rw [toId_val]

/-- A record replaced with its stream left alone. -/
theorem planSet_quiet (s : State) (h : PlanId) (tag : Byte) (f : PlanFields) (ready : Ready s) (plan : f.plan = h.val) (within : WithinRanges f)
    (b : Background) (names : FieldNames f.background b) (room : f.announcements.length ≤ 8)
    (quiet : (s.plan h).useCount = 0 ∨ ((∃ old, (s.plan h).record = some old ∧ old.background = b) ∧ ∀ c, b ≠ .shared c)) :
    ∃ r t, StoredFrom f b r ∧ exec (.planSet tag (.fields f)) s = .next t ∧ t.plan h = { s.plan h with record := some r } ∧
      (∀ g, g ≠ h → t.plan g = s.plan g) ∧ Rederived s t ∧ t.link = (s.ok 0x20 tag).link ∧
      t = { s with plans := t.plans, legs := t.legs, ears := t.ears, sends := t.sends, link := t.link } := by
  obtain ⟨r, from_, accepted⟩ := exec_planSet_stored (tag := tag) ready plan within names room
  have same := from_.background
  rw [State.setPlan_quiet (by rw [same]; exact quiet)] at accepted
  exact ⟨r, _, from_, accepted, State.recorded_plan s h r, fun g other => tget_tset_ne _ _ _ _ (Ne.symm other),
    Rederived.of_lists (State.finish_rederived (s.recorded h r) s) rfl rfl, rfl, rfl⟩

/-- Settles O32: the record stored (`storedPlan_within`), its stream left alone (`planSet_quiet`), stopped (`State.setPlan_stops`) or withdrawn
(`State.stopStream_pending`), and the plan deleted. -/
theorem planSetAndDelete : Obligations.PlanSetAndDelete := by
  refine ⟨fun s h tag f ready plan within => ⟨fun k other => ?_, fun n program beyond => ?_, fun absent long => ?_, fun b names room quiet => ?_⟩,
    fun s h tag f b old ready plan within names room record other used => ⟨fun e bound pending playing running own => ?_, fun bound pending unready => ?_⟩,
    fun s h tag ready => ⟨fun undefined => ?_, fun defined used => ?_, fun defined unused => ?_⟩⟩
  · rw [exec_planSet_ready ready, ownPlanSet_unstored (storedPlan_unnamed (by rw [other]; rfl))]
    rfl
  · rw [exec_planSet_ready ready, ownPlanSet_unstored (storedPlan_unnamed (by
      rw [program]
      unfold backgroundOf
      dsimp only
      rw [toId_none beyond]
      rfl))]
    rfl
  · obtain ⟨r, stored, from_⟩ := storedPlan_within within (.inl ⟨absent, rfl⟩)
    have length : r.announcements.length = f.announcements.length := by rw [← from_.announcements, List.length_map]
    rw [exec_planSet_ready ready, ownPlanSet_stored plan stored,
      if_pos (show Config.announcements < r.announcements.length by rw [length]; exact long)]
    rfl
  · obtain ⟨r, t, ⟨background, level, greeting, list, delay, interval, duck, resume, fallback⟩, accepted, rest⟩ :=
      planSet_quiet s h tag f ready plan within b names room (quiet.imp (fun k => k.1) id)
    obtain ⟨own, others, rederived, link, frame⟩ := rest
    exact ⟨t, r, accepted, own, background, level, greeting, list, delay, interval, duck, resume, fallback, others, rederived, link, frame⟩
  · obtain ⟨r, from_, accepted⟩ := exec_planSet_stored (tag := tag) ready plan within names room
    have same := from_.background
    obtain ⟨t, set_, stored, count, still, engine, others, link, asks, quiet⟩ :=
      State.setPlan_stopped (r := r) record (by rw [same]; exact other) used bound pending playing running own
    rw [set_] at accepted
    exact ⟨_, r, accepted, stored, same, count, still, engine, others, congrArg (Link.placeReply · _) link,
      fun c background clip => asks c (same.trans background) clip, fun unready => quiet fun c background => unready c (same.symm.trans background)⟩
  · obtain ⟨r, from_, accepted⟩ := exec_planSet_stored (tag := tag) ready plan within names room
    have same := from_.background
    obtain ⟨t, set_, waits, bound, queue, held, engines, link⟩ := State.setPlan_withdrawn (r := r) record (by rw [same]; exact other) used bound pending
      fun c background => unready c (same.symm.trans background)
    rw [set_] at accepted
    exact ⟨_, accepted, waits, bound, queue, held, engines, congrArg (Link.placeReply · _) link⟩
  all_goals rw [exec_planDelete_ready ready, ownPlanDelete_val]
  · rw [if_pos undefined]
    rfl
  · rw [if_neg defined, if_pos used]
    rfl
  · rw [if_neg defined, if_neg (by rw [unused]; exact Nat.lt_irrefl 0)]
    rfl

end Sys2Proof.Machine
end

section
set_option Elab.async false
/-! ## Feeds of a source that is gone, and an engine made FREE (R60, R62, R121) -/

namespace Sys2Proof.Machine

/-! ### The sources of a re-derived list (R60) -/

theorem mem_addFeed {l : List Feed} {d : Derived} {f : Feed} (h : f ∈ addFeed l d) : f ∈ l ∨ f = d.feed := by
  unfold addFeed at h
  split at h
  · exact .inl h
  · have room : ∀ g, g ∈ (if Config.feedPlaces ≤ l.length then dropOldestFading l else l) → g ∈ l := fun g mem => by
      split at mem
      · exact (dropOldestFading_sublist l).subset mem
      · exact mem
    dsimp only at h
    generalize (if Config.feedPlaces ≤ l.length then dropOldestFading l else l) = m at h room
    split at h
    · exact (List.mem_append.1 h).imp (room f) List.mem_singleton.1
    · exact .inl (room f h)

/-- Every feed of a re-derived list has the source of a feed that stood in it, or of a derived one. -/
theorem source_of_rederive {derived : List Derived} {l : List Feed} {f : Feed} (h : f ∈ rederive derived l) :
    (∃ g ∈ l, g.source = f.source) ∨ ∃ d ∈ derived, d.source = f.source := by
  have fold : ∀ (ds : List Derived) (m : List Feed), f ∈ ds.foldl addFeed m → f ∈ m ∨ ∃ d ∈ ds, d.source = f.source := by
    intro ds
    induction ds with
    | nil => exact fun m mem => .inl mem
    | cons d rest ih =>
      intro m mem
      rcases ih _ mem with here | ⟨d', later, same⟩
      · rcases mem_addFeed here with old | new
        · exact .inl old
        · exact .inr ⟨d, List.mem_cons_self, by rw [new]; rfl⟩
      · exact .inr ⟨d', List.mem_cons_of_mem d later, same⟩
  rcases fold derived _ h with old | new
  · obtain ⟨g, mem, kept⟩ := List.mem_filterMap.1 old
    exact .inl ⟨g, mem, (congrArg Prod.fst (Feed.rederive_key kept)).symm⟩
  · exact .inr new

/-- A source that no feed had and none is derived from has no feed afterwards. -/
theorem rederive_without {derived : List Derived} {l : List Feed} {x : Source} (old : ∀ f ∈ l, f.source ≠ x) (new : ∀ d ∈ derived, d.source ≠ x) :
    ∀ f ∈ rederive derived l, f.source ≠ x := fun f mem e => by
  rcases source_of_rederive mem with ⟨g, there, same⟩ | ⟨d, there, same⟩
  · exact old g there (same.trans e)
  · exact new d there (same.trans e)

section Derived
variable {s : State} {e : EngId}

theorem State.not_heard (free : (s.eng e).state = .free) : s.heard e = false := by
  unfold State.heard
  rw [free]
  rfl

/-- A FREE engine is no source of a program of the ears. -/
theorem State.derivedEar_free (free : (s.eng e).state = .free) (p : PosId) : ∀ d ∈ s.derivedEar p, d.source ≠ .engine e := by
  intro d mem
  unfold State.derivedEar at mem
  dsimp only at mem
  simp only [List.mem_append] at mem
  obtain ((caller | coach) | agent) | whisper := mem
  · split at caller
    · rcases List.mem_cons.1 caller with h | h
      · subst h; nofun
      · obtain rfl := List.mem_singleton.1 h; nofun
    · exact absurd caller List.not_mem_nil
  · split at coach
    · split at coach
      · split at coach
        · obtain rfl := List.mem_singleton.1 coach; nofun
        · exact absurd coach List.not_mem_nil
      · exact absurd coach List.not_mem_nil
    · exact absurd coach List.not_mem_nil
  · split at agent
    · rcases List.mem_append.1 agent with h | h
      · rcases List.mem_cons.1 h with h | h
        · subst h; nofun
        · split at h
          · obtain rfl := List.mem_singleton.1 h; nofun
          · exact absurd h List.not_mem_nil
      · obtain rfl := List.mem_singleton.1 h; nofun
    · exact absurd agent List.not_mem_nil
  · obtain ⟨k, heard, rfl⟩ := List.mem_map.1 whisper
    intro same
    obtain rfl := Source.engine.inj same
    exact absurd (List.of_mem_filter heard) (by rw [State.not_heard free]; exact Bool.false_ne_true)

/-- A FREE engine is no music source. -/
theorem State.planMusic_free (free : (s.eng e).state = .free) (h : PlanId) : s.planMusic h ≠ some (.engine e) := by
  unfold State.planMusic
  split
  · nofun
  · rename_i r _
    have program : r.fallback.map Source.program ≠ some (.engine e) := by cases r.fallback <;> nofun
    split
    · nofun
    · nofun
    · split
      · split
        · rename_i playing
          intro same
          obtain rfl := Source.engine.inj (Option.some.inj same)
          exact nomatch free.symm.trans playing
        · exact program
      · exact program

/-- A FREE engine is no source of a leg's program. -/
theorem State.derivedSend_free (free : (s.eng e).state = .free) (l : LegId) : ∀ d ∈ s.derivedSend l, d.source ≠ .engine e := by
  intro d mem
  unfold State.derivedSend at mem
  simp only [List.mem_append] at mem
  obtain (agent | music) | announce := mem
  · split at agent
    · rcases List.mem_cons.1 agent with h | h
      · subst h; nofun
      · split at h
        · split at h
          · split at h
            · obtain rfl := List.mem_singleton.1 h; nofun
            · exact absurd h List.not_mem_nil
          · exact absurd h List.not_mem_nil
        · exact absurd h List.not_mem_nil
    · exact absurd agent List.not_mem_nil
  · split at music
    · rename_i h src plan source
      split at music
      · obtain rfl := List.mem_singleton.1 music
        intro same
        have same : src = .engine e := same
        subst same
        unfold State.musicSource at source
        rw [plan] at source
        exact State.planMusic_free free h source
      · exact absurd music List.not_mem_nil
    · exact absurd music List.not_mem_nil
  · split at announce
    · exact absurd announce List.not_mem_nil
    · obtain ⟨k, heard, rfl⟩ := List.mem_map.1 announce
      intro same
      obtain rfl := Source.engine.inj same
      have both := List.of_mem_filter heard
      rw [State.not_heard free, Bool.and_false] at both
      exact Bool.false_ne_true both

/-- With the feeds of a FREE engine gone, the end of the event brings none back. -/
theorem State.finish_without_engine {t before : State} (free : (t.eng e).state = .free) (ears : ∀ p, ∀ f ∈ tget t.ears p, f.source ≠ .engine e)
    (sends : ∀ m, ∀ f ∈ tget t.sends m, f.source ≠ .engine e) :
    (∀ p, ∀ f ∈ tget (t.finish before).ears p, f.source ≠ .engine e) ∧ ∀ m, ∀ f ∈ tget (t.finish before).sends m, f.source ≠ .engine e := by
  obtain ⟨ear, send⟩ := State.finish_rederived t before
  have free : ((t.finish before).eng e).state = .free := free
  refine ⟨fun p => ?_, fun m => ?_⟩
  · rw [ear]
    exact rederive_without (ears p) (State.derivedEar_free free p)
  · rw [send]
    exact rederive_without (sends m) (State.derivedSend_free free m)

end Derived

/-! ### An engine made FREE (R62, R121, R141) -/

section Freed
variable {s : State} {e : EngId} {c : ClipId}

/-- What the release of an engine on a READY clip leaves, but for its owner's binding. -/
def State.freed (s : State) (e : EngId) (c : ClipId) : State :=
  { s with
    memory := { s.memory with fetches := s.memory.fetches.filter (· ≠ e) }
    engines := tset s.engines e Engine.idle
    ears := tmap (fun _ l => l.filter fun f => f.source ≠ .engine e) s.ears
    sends := tmap (fun _ l => l.filter fun f => f.source ≠ .engine e) s.sends
    clips := tset s.clips c { s.clip c with useCount := (s.clip c).useCount - 1 } }

theorem State.clipReleased_ready (ready : (s.clip c).state = .ready) :
    s.clipReleased c = s.modClip c fun x => { x with useCount := x.useCount - 1 } := by
  unfold State.clipReleased
  have state : ((s.modClip c fun x => { x with useCount := x.useCount - 1 }).clip c).state = .ready := by
    rw [State.clip_modClip_same]
    exact ready
  exact if_neg fun k => ClipState.noConfusion (state.symm.trans k.1)

theorem State.freeOne_leg {l : LegId} (owner : (s.eng e).owner = some (.leg l)) (clip : (s.eng e).clip = some c)
    (ready : (s.clip c).state = .ready) : s.freeOne e = s.freed e c := by
  unfold State.freeOne
  dsimp only
  rw [owner, clip]
  exact State.clipReleased_ready (s := ((s.withdrawFetch e).modEng e fun _ => Engine.idle).dropEngineFeeds e) ready

theorem State.freeOne_shared {h : PlanId} (owner : (s.eng e).owner = some (.shared h)) (bound : (s.plan h).bound = some e)
    (clip : (s.eng e).clip = some c) (ready : (s.clip c).state = .ready) :
    s.freeOne e = { s.freed e c with plans := tset s.plans h { s.plan h with bound := none } } := by
  have cleared : (((s.withdrawFetch e).modEng e fun _ => Engine.idle).dropEngineFeeds e).clearBinding (.shared h) e =
      { ((s.withdrawFetch e).modEng e fun _ => Engine.idle).dropEngineFeeds e with plans := tset s.plans h { s.plan h with bound := none } } := by
    unfold State.clearBinding
    dsimp only
    refine congrArg (fun x => ({ ((s.withdrawFetch e).modEng e fun _ => Engine.idle).dropEngineFeeds e with plans := tset s.plans h x } : State)) ?_
    exact if_pos bound
  unfold State.freeOne
  dsimp only
  rw [owner, clip]
  dsimp only
  rw [cleared]
  exact State.clipReleased_ready (s := { ((s.withdrawFetch e).modEng e fun _ => Engine.idle).dropEngineFeeds e with
    plans := tset s.plans h { s.plan h with bound := none } }) ready

theorem State.freed_eng (s : State) (e : EngId) (c : ClipId) : (s.freed e c).eng e = Engine.idle := tget_tset_same _ _ _

theorem State.freed_feeds (s : State) (e : EngId) (c : ClipId) : (∀ p, ∀ f ∈ tget (s.freed e c).ears p, f.source ≠ .engine e) ∧
    ∀ m, ∀ f ∈ tget (s.freed e c).sends m, f.source ≠ .engine e := by
  refine ⟨fun p f mem => ?_, fun m f mem => ?_⟩
  · have mem : f ∈ tget (tmap (fun _ l => l.filter fun f => f.source ≠ .engine e) s.ears) p := mem
    rw [tget_tmap] at mem
    exact of_decide_eq_true (List.mem_filter.1 mem).2
  · have mem : f ∈ tget (tmap (fun _ l => l.filter fun f => f.source ≠ .engine e) s.sends) m := mem
    rw [tget_tmap] at mem
    exact of_decide_eq_true (List.mem_filter.1 mem).2

end Freed

end Sys2Proof.Machine
end

section
set_option Elab.async false
/-! ## The block event of a playback engine (O43) -/

namespace Sys2Proof.Machine

theorem Settled.kept {s t : State} (h : Settled s t) (mode : s.memory.mode ≠ .releasing) : ∃ m, t = { s with memory := m } := by
  obtain ⟨⟨memory, link, frame⟩, _, stays⟩ := h
  obtain ⟨_, same⟩ := stays mode
  rw [frame] at same
  exact ⟨memory, by rw [frame, ← same]⟩

/-! ### The fade block (R141) -/

theorem fadeBlock_length (gain : Nat) (b : List Sample) : (fadeBlock gain b).length = b.length := by
  induction b generalizing gain with
  | nil => rfl
  | cons x rest ih => exact congrArg (· + 1) (ih (gain - Config.fadeStep))

theorem fadeBlock_at {gain i : Nat} {b : List Sample} {x : Sample} (here : b[i]? = some x) :
    (fadeBlock gain b)[i]? = some (scale x (gain - 256 * i)) := by
  induction b generalizing gain i with
  | nil => exact nomatch here
  | cons y rest ih =>
    cases i with
    | zero =>
      obtain rfl : y = x := Option.some.inj here
      rw [Nat.mul_zero, Nat.sub_zero]
      rfl
    | succ k =>
      have step : fadeBlock gain (y :: rest) = scale y gain :: fadeBlock (gain - Config.fadeStep) rest := rfl
      have value : Config.fadeStep = 256 := rfl
      rw [step, List.getElem?_cons_succ, value, show gain - 256 * (k + 1) = gain - 256 - 256 * k by omega]
      exact ih here

section Block
variable {s : State} {e : EngId}

/-! ### Blocks without a release (R139 to R141) -/

theorem State.engineBlock_idle (idle : (s.eng e).state = .free ∨ (s.eng e).state = .priming) : s.engineBlock e = s.putEngine e zeroBlock := by
  unfold State.engineBlock
  dsimp only
  obtain state | state := idle <;> rw [state]

theorem State.engineBlock_plays (playing : (s.eng e).state = .playing) (running : (s.eng e).closing = 0) : s.engineBlock e = s.playBlock e := by
  unfold State.engineBlock
  dsimp only
  rw [playing, running]
  rfl

theorem State.engineBlock_fades (stopping : (s.eng e).state = .stopping) (running : (s.eng e).closing = 0) : s.engineBlock e = s.fadeOut e := by
  unfold State.engineBlock
  dsimp only
  rw [stopping, running]
  rfl

theorem State.engineBlock_closes (sounds : (s.eng e).state = .playing ∨ (s.eng e).state = .stopping) (closing : (s.eng e).closing = 1) :
    s.engineBlock e = s.closingBlock e := by
  unfold State.engineBlock
  dsimp only
  obtain state | state := sounds <;> rw [state, closing] <;> rfl

/-- The outcome that an engine's release has (R140, R141). -/
def Engine.outcome (x : Engine) : EngineOutcome := if x.state = .playing then .played else x.stopOutcome

theorem State.engineBlock_releases (sounds : (s.eng e).state = .playing ∨ (s.eng e).state = .stopping) (closing : (s.eng e).closing = 2) :
    s.engineBlock e = s.releaseEngine e (s.eng e).outcome := by
  unfold State.engineBlock Engine.outcome
  dsimp only
  obtain state | state := sounds
  · rw [state, closing]
    rfl
  · rw [state, closing]
    rfl

theorem State.playBlock_block {b : Fetched} {rest : List Fetched} (buffer : (s.eng e).buffer = b :: rest) :
    s.playBlock e = ((s.putEngine e b.samples).modEng e fun y =>
      { y with buffer := rest, closing := if b.final then 1 else 0 }).issueFetch e := by
  unfold State.playBlock
  dsimp only
  rw [buffer]

/-- An underrun, reported when it is the allocation's first. -/
theorem State.playBlock_underrun (buffer : (s.eng e).buffer = []) : s.playBlock e =
    State.issueFetch { (s.putEngine e zeroBlock).modEng e fun y => { y with underruns := sat16Count y.underruns 1 } with
      link := if (s.eng e).underruns = 0 then (s.report (.engineUnderrun e (s.eng e).owner (s.eng e).clip)).link else s.link } e := by
  unfold State.playBlock
  dsimp only
  rw [buffer]
  dsimp only
  split <;> rfl

/-! ### The release (R140, R141, R144) -/

theorem runTask_release_leg {l : LegId} (busy : (s.eng e).state ≠ .free) (owner : (s.eng e).owner = some (.leg l)) (o : EngineOutcome) :
    runTask (.release e (some o)) s = (s.freeOne e,
      (if s.concerned (.leg l) e = true then [Task.tell (.leg l) o] else []) ++ [.offer e (some (.leg l))]) := by
  unfold runTask
  dsimp only
  rw [if_neg busy, owner]
  dsimp only
  split <;> rfl

theorem runTask_release_shared {h : PlanId} (busy : (s.eng e).state ≠ .free) (owner : (s.eng e).owner = some (.shared h)) (o : Option EngineOutcome) :
    runTask (.release e o) s = (s.freeOne e, [.offer e (some (.shared h))]) := by
  unfold runTask
  dsimp only
  rw [if_neg busy, owner]
  cases o <;> rfl

theorem runTask_offer_none (held : s.arbiter.held = []) (was : Option Owner) : runTask (.offer e was) s = (s, [.heads e]) := by
  unfold runTask
  cases was with
  | none => rfl
  | some o =>
    dsimp only
    rw [held]
    rfl

theorem runTask_heads_none (queue : s.arbiter.queue = []) : runTask (.heads e) s = (s, []) := by
  unfold runTask
  dsimp only
  split
  · rfl
  · rw [queue]

/-- The heads of the queue are not considered for an engine in use. -/
theorem runTask_heads_busy (busy : (s.eng e).state ≠ .free) : runTask (.heads e) s = (s, []) := if_pos (.inr busy)

/-- The request held behind a released engine is taken. -/
theorem runTask_offer_held {w : WaitEntry} (held : s.arbiter.held = [w]) :
    runTask (.offer e (some w.owner)) s = ({ s with arbiter := { s.arbiter with held := [] } }, [.take w, .heads e]) := by
  have found : s.arbiter.held.find? (fun x => x.owner = w.owner) = some w := by
    rw [held]
    simp
  have gone : (s.arbiter.held.filter fun x => x.owner ≠ w.owner) = [] := by
    rw [held]
    simp
  unfold runTask
  dsimp only
  rw [found]
  dsimp only
  rw [gone]

end Block

/-! ### The session whose engine is released (R156, R158) -/

section Told
variable {s : State} {l : LegId} {x : Session} {r : SessionRequest}

/-- A session after the outcome of its greeting or announcement. -/
def State.toldSession (s : State) (x : Session) (r : SessionRequest) : Session :=
  r.place.elim
    { x with request := none, phase := .background, countdown := some (((s.sessionRecord x).map PlanRecord.firstDelay).getD 0) }
    fun i => { x with
      request := none, phase := .background, countdown := some (((s.sessionRecord x).map PlanRecord.interval).getD 0)
      nextIndex := if ((s.sessionRecord x).map fun y => y.announcements.length).getD 0 = 0 then 0
        else (i + 1) % ((s.sessionRecord x).map fun y => y.announcements.length).getD 0 }

theorem State.sessionTold_eq (session : (s.leg l).session = some x) (request : x.request = some r) (o : EngineOutcome) :
    s.sessionTold l o = { s.putSession l (s.toldSession x r) with
      link := if o = .preempted
        then (s.report (.announcePreempted l x.plan r.clip (if r.place = none then .greeting else .announcement) r.place)).link else s.link } := by
  unfold State.sessionTold
  rw [session]
  dsimp only
  rw [request]
  dsimp only
  have told : ∀ y : Session, y = s.toldSession x r → (if o = .preempted then (s.putSession l y).report
      (.announcePreempted l x.plan r.clip (if r.place = none then .greeting else .announcement) r.place) else s.putSession l y)
      = { s.putSession l (s.toldSession x r) with
      link := if o = .preempted
        then (s.report (.announcePreempted l x.plan r.clip (if r.place = none then .greeting else .announcement) r.place)).link else s.link } := by
    rintro y rfl
    split <;> rfl
  refine told _ ?_
  unfold State.toldSession
  cases r.place with
  | none => cases s.sessionRecord x <;> rfl
  | some i => cases s.sessionRecord x <;> rfl

/-- A session is concerned by the engine that its request names. -/
theorem State.concerned_leg {e : EngId} (session : (s.leg l).session = some x) (request : x.request = some r) (engine : r.engine = some e) :
    s.concerned (.leg l) e = true := by
  unfold State.concerned
  dsimp only
  rw [session]
  dsimp only
  rw [request]
  exact decide_eq_true engine

end Told

/-! ### What a release leaves -/

section Release
variable {s : State} {e : EngId} {c : ClipId}

/-- The release of a greeting's or an announcement's engine, with nobody waiting (R140, R156, R158). -/
theorem State.releaseEngine_leg {l : LegId} {o : EngineOutcome} (busy : (s.eng e).state ≠ .free) (queue : s.arbiter.queue = [])
    (held : s.arbiter.held = []) (owner : (s.eng e).owner = some (.leg l)) (clip : (s.eng e).clip = some c) (ready : (s.clip c).state = .ready) :
    ∃ legs link, s.releaseEngine e o = State.finish { (s.putEngine e zeroBlock).freed e c with legs := legs, link := link } s ∧
      ∀ x r, (s.leg l).session = some x → x.request = some r → r.engine = some e → (tget legs l).session = some (s.toldSession x r) ∧
        link = if o = .preempted
          then (s.report (.announcePreempted l x.plan r.clip (if r.place = none then .greeting else .announcement) r.place)).link else s.link := by
  have release := runTask_release_leg (s := s.putEngine e zeroBlock) busy owner o
  rw [State.freeOne_leg (s := s.putEngine e zeroBlock) owner clip ready] at release
  generalize freed : (s.putEngine e zeroBlock).freed e c = u at release ⊢
  have arbiter : u.arbiter = s.arbiter := by rw [← freed]; rfl
  have legs : u.legs = s.legs := by rw [← freed]; rfl
  have link : u.link = s.link := by rw [← freed]; rfl
  have highway : u.highway = s.highway := by rw [← freed]; rfl
  have plans : u.plans = s.plans := by rw [← freed]; rfl
  cases concerned : (s.putEngine e zeroBlock).concerned (.leg l) e with
  | false =>
    rw [concerned, if_neg Bool.false_ne_true] at release
    have run := (Chain.step release (.step (runTask_offer_none (by rw [arbiter, held]) _) (.last (runTask_heads_none (by rw [arbiter, queue]))))).run
    refine ⟨u.legs, u.link, congrArg (State.finish · s) run, fun x r session request engine => ?_⟩
    exact absurd (concerned.symm.trans (State.concerned_leg (s := s.putEngine e zeroBlock) session request engine)) Bool.false_ne_true
  | true =>
    rw [concerned, if_pos rfl] at release
    have told : runTask (.tell (.leg l) o) u = (u.sessionTold l o, []) := rfl
    have same : (u.sessionTold l o).arbiter = s.arbiter := by
      refine Eq.trans ?_ arbiter
      unfold State.sessionTold
      split
      · rfl
      · split
        · rfl
        · dsimp only
          split <;> rfl
    have run := (Chain.step release (.step told (.step (runTask_offer_none (by rw [same, held]) _)
      (.last (runTask_heads_none (by rw [same, queue])))))).run
    have frame : u.sessionTold l o = { u with legs := (u.sessionTold l o).legs, link := (u.sessionTold l o).link } := by
      unfold State.sessionTold
      split
      · rfl
      · split
        · rfl
        · dsimp only
          split <;> rfl
    refine ⟨(u.sessionTold l o).legs, (u.sessionTold l o).link, congrArg (State.finish · s) (run.trans frame), fun x r session request engine => ?_⟩
    have leg : u.leg l = s.leg l := congrArg (tget · l) legs
    rw [State.sessionTold_eq (s := u) (by rw [leg]; exact session) request o]
    have record : u.toldSession x r = s.toldSession x r := by
      unfold State.toldSession State.sessionRecord State.plan
      rw [plans]
    refine ⟨?_, ?_⟩
    · rw [← record]
      exact State.session_putSession u l _
    · unfold State.report
      rw [link, highway]

/-- The release of a shared stream's engine to the request held behind it, on a READY clip of its own (R143, R144, R152). -/
theorem State.releaseEngine_shared {h : PlanId} {c' : ClipId} {o : EngineOutcome} (busy : (s.eng e).state ≠ .free)
    (owner : (s.eng e).owner = some (.shared h)) (clip : (s.eng e).clip = some c) (ready : (s.clip c).state = .ready)
    (bound : (s.plan h).bound = some e) (held : s.arbiter.held = [⟨.shared h, c'⟩]) (next : s.isReady c' = true)
    (scanning : s.arbiter.scanning = false) (others : ∀ d, d ≠ e → (s.eng d).state ≠ .free) :
    ∃ t, s.releaseEngine e o = t ∧ tget t.sources.engine e = zeroBlock ∧ t.plan h = { s.plan h with bound := some e, pending := false } ∧
      t.eng e = { Engine.idle with
        state := .priming, owner := some (.shared h), cls := 2, clip := some c', loop := true, grant := s.arbiter.grants } ∧
      (∀ d, d ≠ e → t.eng d = s.eng d) ∧ t.arbiter = { s.arbiter with held := [], grants := s.arbiter.grants + 1 } := by
  have release := runTask_release_shared (s := s.putEngine e zeroBlock) busy owner (some o)
  have freeing := State.freeOne_shared (s := s.putEngine e zeroBlock) owner bound clip ready
  generalize freed : ({ (s.putEngine e zeroBlock).freed e c with plans := tset s.plans h { s.plan h with bound := none } } : State) = u at freeing
  rw [freeing.trans freed] at release
  have arbiter : u.arbiter = s.arbiter := by rw [← freed]; rfl
  have engines : u.engines = tset s.engines e Engine.idle := by rw [← freed]; rfl
  have plans : u.plans = tset s.plans h { s.plan h with bound := none } := by rw [← freed]
  have sources : u.sources = (s.putEngine e zeroBlock).sources := by rw [← freed]; rfl
  have isReady : u.isReady c' = true := by
    rw [← freed]
    show decide ((tget (tset s.clips c _) c').state = .ready) = true
    rw [tget_tset_ite, decide_eq_true_iff]
    split
    · exact ready
    · exact of_decide_eq_true next
  have offer := runTask_offer_held (s := u) (e := e) (w := ⟨.shared h, c'⟩) (by rw [arbiter, held])
  generalize unheld : ({ u with arbiter := { u.arbiter with held := [] } } : State) = v at offer
  have eng : ∀ d, v.eng d = if d = e then Engine.idle else s.eng d := fun d => by
    rw [← unheld]
    show tget u.engines d = _
    rw [engines]
    exact tget_tset_ite _ _ _ _
  have free : v.freeEngine = some e := State.freeEngine_first (by rw [eng, if_pos rfl]; rfl) fun d lower => by
    rw [eng, if_neg (Fin.ne_of_lt lower)]
    exact others d (Fin.ne_of_lt lower)
  have take : runTask (.take ⟨.shared h, c'⟩) v = (v.grant e ⟨.shared h, c'⟩, []) :=
    runTask_take_granted (by rw [← unheld]; show u.arbiter.scanning = false; rw [arbiter]; exact scanning) free (by rw [← unheld]; exact isReady)
  obtain ⟨⟨memory, link, frame⟩, _, _⟩ := v.grant_shared e h c'
  have granted : (v.grant e ⟨.shared h, c'⟩).eng e = v.primed ⟨.shared h, c'⟩ := (congrArg (fun x : State => x.eng e) frame).trans (tget_tset_same _ _ _)
  have heads : runTask (.heads e) (v.grant e ⟨.shared h, c'⟩) = (v.grant e ⟨.shared h, c'⟩, []) := runTask_heads_busy (by rw [granted]; nofun)
  have run := (Chain.step release (.step offer (.step take (.last heads)))).run
  refine ⟨_, congrArg (State.finish · s) run, ?_⟩
  have varbiter : v.arbiter = { s.arbiter with held := [] } := by rw [← unheld, ← arbiter]
  have vplans : v.plans = tset s.plans h { s.plan h with bound := none } := by rw [← unheld]; exact plans
  have vsources : v.sources = (s.putEngine e zeroBlock).sources := by rw [← unheld]; exact sources
  generalize v.grant e ⟨.shared h, c'⟩ = t at frame granted
  have tplans : t.plans = tset v.plans h { v.plan h with bound := some e, pending := false } := by rw [frame]
  have tengines : t.engines = tset v.engines e (v.primed ⟨.shared h, c'⟩) := by rw [frame]; rfl
  have tarbiter : t.arbiter = { v.arbiter with grants := v.arbiter.grants + 1 } := by rw [frame]; rfl
  have tsources : t.sources = v.sources := by rw [frame]; rfl
  refine ⟨?_, ?_, ?_, fun d other => ?_, ?_⟩
  · show tget t.sources.engine e = zeroBlock
    rw [tsources, vsources]
    exact tget_tset_same _ _ _
  · show tget t.plans h = _
    rw [tplans, tget_tset_same]
    show ({ tget v.plans h with bound := some e, pending := false } : Plan) = _
    rw [vplans, tget_tset_same]
  · show t.eng e = _
    rw [granted]
    unfold State.primed
    rw [varbiter]
    rfl
  · show tget t.engines d = _
    rw [tengines, tget_tset_ne _ _ _ _ (Ne.symm other)]
    exact (eng d).trans (if_neg other)
  · show t.arbiter = _
    rw [tarbiter, varbiter]

end Release

/-! ### ENGINE_BLOCK_EVENT -/

section Event
variable {s : State} {e : EngId}

/-- A block put out by a PLAYING engine (R139, R140). -/
theorem engineBlock_plays_block (mode : s.memory.mode ≠ .releasing) {b : Fetched} {rest : List Fetched} (playing : (s.eng e).state = .playing)
    (running : (s.eng e).closing = 0) (buffer : (s.eng e).buffer = b :: rest) :
    ∃ t, s.engineBlock e = t ∧ tget t.sources.engine e = b.samples ∧
      t.eng e = { s.eng e with buffer := rest, closing := if b.final then 1 else 0 } ∧ (∀ d, d ≠ e → t.eng d = s.eng d) ∧
      t = { s with sources := { s.sources with engine := t.sources.engine }, engines := t.engines, memory := t.memory } := by
  obtain ⟨m, settled⟩ := (((s.putEngine e b.samples).modEng e fun y =>
    { y with buffer := rest, closing := if b.final then 1 else 0 }).issueFetch_settled e).kept mode
  exact ⟨_, (State.engineBlock_plays playing running).trans ((State.playBlock_block buffer).trans settled), tget_tset_same _ _ _, tget_tset_same _ _ _,
    fun d other => tget_tset_ne _ _ _ _ (Ne.symm other), rfl⟩

/-- An underrun of a PLAYING engine (R140). -/
theorem engineBlock_underrun (mode : s.memory.mode ≠ .releasing) (playing : (s.eng e).state = .playing) (running : (s.eng e).closing = 0)
    (buffer : (s.eng e).buffer = []) :
    ∃ t, s.engineBlock e = t ∧ tget t.sources.engine e = List.replicate 64 0 ∧
      t.eng e = { s.eng e with underruns := min 65535 ((s.eng e).underruns + 1) } ∧ (∀ d, d ≠ e → t.eng d = s.eng d) ∧
      t.link = (if (s.eng e).underruns = 0
        then (s.report (.engineUnderrun e (s.eng e).owner (s.eng e).clip)).link else s.link) ∧
      t = { s with
        sources := { s.sources with engine := t.sources.engine }, engines := t.engines, memory := t.memory, link := t.link } := by
  obtain ⟨m, settled⟩ := (State.issueFetch_settled { (s.putEngine e zeroBlock).modEng e fun y => { y with underruns := sat16Count y.underruns 1 } with
      link := if (s.eng e).underruns = 0 then (s.report (.engineUnderrun e (s.eng e).owner (s.eng e).clip)).link else s.link } e).kept mode
  exact ⟨_, (State.engineBlock_plays playing running).trans ((State.playBlock_underrun buffer).trans settled), tget_tset_same _ _ _,
    tget_tset_same _ _ _, fun d other => tget_tset_ne _ _ _ _ (Ne.symm other), rfl, rfl⟩

/-- The fade block of a STOPPING engine (R141). -/
theorem engineBlock_fades_block {b : Fetched} {rest : List Fetched} (stopping : (s.eng e).state = .stopping) (running : (s.eng e).closing = 0)
    (buffer : (s.eng e).buffer = b :: rest) (gain : (s.eng e).fadeGain = 16384) : s.engineBlock e = { s with
      sources := { s.sources with engine := tset s.sources.engine e (fadeBlock 16384 b.samples) }
      engines := tset s.engines e { s.eng e with buffer := rest, closing := 1, fadeGain := 0 } } := by
  rw [State.engineBlock_fades stopping running]
  unfold State.fadeOut
  dsimp only
  rw [buffer, gain]
  have faded : ({ s.eng e with
      buffer := (s.eng e).buffer.drop 1, closing := 1, fadeGain := (s.eng e).fadeGain - Config.blockSamples * Config.fadeStep } : Engine)
      = { s.eng e with buffer := rest, closing := 1, fadeGain := 0 } := by
    rw [buffer, gain]
    rfl
  exact congrArg (fun x => ({ s with
    sources := { s.sources with engine := tset s.sources.engine e (fadeBlock 16384 b.samples) }, engines := tset s.engines e x } : State)) faded

/-- The release of a greeting's or an announcement's engine (R140, R141, R156, R158). -/
theorem engineBlock_releases_leg {l : LegId} {c : ClipId} (sounds : (s.eng e).state = .playing ∨ (s.eng e).state = .stopping)
    (closing : (s.eng e).closing = 2) (queue : s.arbiter.queue = []) (held : s.arbiter.held = []) (owner : (s.eng e).owner = some (.leg l))
    (clip : (s.eng e).clip = some c) (ready : (s.clip c).state = .ready) :
    ∃ t, s.engineBlock e = t ∧ t.eng e = Engine.idle ∧ (∀ d, d ≠ e → t.eng d = s.eng d) ∧
      t.clip c = { s.clip c with useCount := (s.clip c).useCount - 1 } ∧ (∀ d, d ≠ c → t.clip d = s.clip d) ∧
      tget t.sources.engine e = List.replicate 64 0 ∧ (∀ p, ∀ f ∈ tget t.ears p, f.source ≠ .engine e) ∧
      (∀ m, ∀ f ∈ tget t.sends m, f.source ≠ .engine e) ∧
      ∀ x r, (s.leg l).session = some x → x.request = some r → r.engine = some e → (t.leg l).session = some (s.toldSession x r) ∧
        t.link = if (s.eng e).outcome = .preempted
          then (s.report (.announcePreempted l x.plan r.clip (if r.place = none then .greeting else .announcement) r.place)).link else s.link := by
  have busy : (s.eng e).state ≠ .free := fun k => by
    obtain state | state := sounds <;> exact nomatch state.symm.trans k
  obtain ⟨legs, link, released, told⟩ := State.releaseEngine_leg (o := (s.eng e).outcome) busy queue held owner clip ready
  generalize at_ : ({ (s.putEngine e zeroBlock).freed e c with legs := legs, link := link } : State) = v at released
  have engines : v.engines = tset s.engines e Engine.idle := by rw [← at_]; rfl
  have clips : v.clips = tset s.clips c { s.clip c with useCount := (s.clip c).useCount - 1 } := by rw [← at_]; rfl
  have sources : tget v.sources.engine e = zeroBlock := by rw [← at_]; exact tget_tset_same _ _ _
  have feeds : (∀ p, ∀ f ∈ tget v.ears p, f.source ≠ .engine e) ∧ ∀ m, ∀ f ∈ tget v.sends m, f.source ≠ .engine e := by
    rw [← at_]
    exact State.freed_feeds (s.putEngine e zeroBlock) e c
  have vlegs : v.legs = legs := by rw [← at_]
  have vlink : v.link = link := by rw [← at_]
  have idle : v.eng e = Engine.idle := (congrArg (tget · e) engines).trans (tget_tset_same _ _ _)
  obtain ⟨ears, sends⟩ := State.finish_without_engine (before := s) (by rw [idle]; rfl) feeds.1 feeds.2
  refine ⟨_, (State.engineBlock_releases sounds closing).trans released, idle,
    fun d other => (congrArg (tget · d) engines).trans (tget_tset_ne _ _ _ _ (Ne.symm other)), (congrArg (tget · c) clips).trans (tget_tset_same _ _ _),
    fun d other => (congrArg (tget · d) clips).trans (tget_tset_ne _ _ _ _ (Ne.symm other)), sources, ears, sends, fun x r session request engine => ?_⟩
  obtain ⟨after, report⟩ := told x r session request engine
  have kept : ((v.finish s).leg l).session = (v.leg l).session := by
    rcases v.finish_leg s l with same | same <;> rw [same]
  exact ⟨kept.trans ((congrArg (fun t => (tget t l).session) vlegs).trans after), vlink.trans report⟩

end Event

/-- Settles O43: each block of an engine (`engineBlock_plays_block` and the lemmas beside it), its release to nobody
(`engineBlock_releases_leg`) and to the request held behind it (`State.releaseEngine_shared`). -/
theorem engineBlock : Obligations.EngineBlock := by
  intro s e mode
  refine ⟨fun idle => congrArg Host.Outcome.next (State.engineBlock_idle idle), fun b rest playing running buffer => ?_,
    fun playing running buffer => ?_, fun b rest stopping running buffer gain long => ?_, fun sounds closing => ?_,
    fun l c sounds closing queue held owner clip ready => ?_, fun h c c' stopping closing owner clip ready bound held next scanning others => ?_⟩
  · obtain ⟨t, run, facts⟩ := engineBlock_plays_block mode playing running buffer
    exact ⟨t, congrArg Host.Outcome.next run, facts⟩
  · obtain ⟨t, run, facts⟩ := engineBlock_underrun mode playing running buffer
    exact ⟨t, congrArg Host.Outcome.next run, facts⟩
  · exact ⟨_, fadeBlock 16384 b.samples, congrArg Host.Outcome.next (engineBlock_fades_block stopping running buffer gain), rfl,
      (fadeBlock_length _ _).trans long, fun i x here => fadeBlock_at here⟩
  · exact congrArg Host.Outcome.next (State.engineBlock_closes sounds closing)
  · obtain ⟨t, run, idle, engines, record, clips, sources, ears, sends, told⟩ := engineBlock_releases_leg sounds closing queue held owner clip ready
    refine ⟨t, congrArg Host.Outcome.next run, by rw [idle]; rfl, by rw [idle]; rfl, by rw [idle]; rfl, engines, record, clips, sources, ears, sends,
      fun x r i plan session request engine place record some_ => ?_, fun x r plan session request engine place record => ?_,
      fun x r session request engine => ⟨fun other => ?_, fun stopping preempted => ?_⟩⟩
    · refine (told x r session request engine).1.trans (congrArg some ?_)
      unfold State.toldSession
      rw [place, record]
      exact congrArg (fun n => ({ x with request := none, phase := .background, countdown := some plan.interval, nextIndex := n } : Session))
        (if_neg fun k => some_ (List.eq_nil_of_length_eq_zero k))
    · refine (told x r session request engine).1.trans (congrArg some ?_)
      unfold State.toldSession
      rw [place, record]
      rfl
    · refine (told x r session request engine).2.trans (if_neg ?_)
      unfold Engine.outcome
      split
      · nofun
      · exact other.resolve_left ‹_›
    · refine (told x r session request engine).2.trans (if_pos ?_)
      unfold Engine.outcome
      rw [stopping]
      exact preempted
  · obtain ⟨t, run, sources, facts⟩ := State.releaseEngine_shared (o := (s.eng e).outcome) (by rw [stopping]; nofun) owner clip ready bound held next scanning others
    exact ⟨t, congrArg Host.Outcome.next ((State.engineBlock_releases (.inr stopping) closing).trans run), sources, facts⟩

end Sys2Proof.Machine
end

section
set_option Elab.async false
/-! ## What a chain of happenings leaves of the feeds and of a plan without users (O22) -/

namespace Sys2Proof.Machine

/-! ### The frames of a release and of a grant -/

section Frames
variable {s : State} {e : EngId}

theorem State.clipReleased_frame (s : State) (c : ClipId) : ∃ clips freeSlabs memory link, s.clipReleased c = { s with
    clips := clips, freeSlabs := freeSlabs, memory := memory, link := link } := by
  unfold State.clipReleased
  dsimp only
  split
  · obtain ⟨⟨memory, link, frame⟩, _, _⟩ :=
      State.queueUpdate_settled ((s.modClip c fun x => { x with useCount := x.useCount - 1 }).emptyClip c) c
    rw [frame]
    exact ⟨_, _, _, _, rfl⟩
  · exact ⟨_, _, _, _, rfl⟩

/-- What is left of a plan's record when an engine is released: its binding to that engine may be gone. -/
def Unbinds (before after : Plan) (e : EngId) : Prop := after = before ∨ (before.bound = some e ∧ after = { before with bound := none })

theorem State.clearBinding_plans (s : State) (o : Owner) (e : EngId) (g : PlanId) :
    Unbinds (s.plan g) ((s.clearBinding o e).plan g) e := by
  unfold State.clearBinding
  split
  · exact .inl rfl
  · exact .inl rfl
  · rename_i h
    by_cases own : h = g
    · subst own
      rw [State.plan_modPlan_same]
      split
      · exact .inr ⟨‹_›, rfl⟩
      · exact .inl rfl
    · rw [State.plan_modPlan_ne _ _ _ _ own]
      exact .inl rfl

/-- What an engine made FREE leaves alone. -/
theorem State.freeOne_frame (s : State) (e : EngId) : ∃ positions plans clips freeSlabs memory link, s.freeOne e = { s with
    positions := positions, plans := plans, clips := clips, freeSlabs := freeSlabs, memory := memory, link := link
    engines := tset s.engines e Engine.idle, ears := (s.dropEngineFeeds e).ears, sends := (s.dropEngineFeeds e).sends } ∧
    ∀ g, Unbinds (s.plan g) (tget plans g) e := by
  have cleared : ∀ o : Option Owner, ∃ positions plans,
      o.elim (((s.withdrawFetch e).modEng e fun _ => Engine.idle).dropEngineFeeds e)
        (fun o => (((s.withdrawFetch e).modEng e fun _ => Engine.idle).dropEngineFeeds e).clearBinding o e) =
      { ((s.withdrawFetch e).modEng e fun _ => Engine.idle).dropEngineFeeds e with positions := positions, plans := plans } ∧
      ∀ g, Unbinds (s.plan g) (tget plans g) e := by
    rintro (_ | o)
    · exact ⟨_, _, rfl, fun g => .inl rfl⟩
    · obtain ⟨positions, plans, frame⟩ := State.clearBinding_frame (((s.withdrawFetch e).modEng e fun _ => Engine.idle).dropEngineFeeds e) o e
      refine ⟨positions, plans, frame, fun g => ?_⟩
      have unbinds := State.clearBinding_plans (((s.withdrawFetch e).modEng e fun _ => Engine.idle).dropEngineFeeds e) o e g
      rw [frame] at unbinds
      exact unbinds
  obtain ⟨positions, plans, frame, unbinds⟩ := cleared (s.eng e).owner
  have own : s.freeOne e = (s.eng e).clip.elim ({ ((s.withdrawFetch e).modEng e fun _ => Engine.idle).dropEngineFeeds e with
      positions := positions, plans := plans })
      (State.clipReleased ({ ((s.withdrawFetch e).modEng e fun _ => Engine.idle).dropEngineFeeds e with positions := positions, plans := plans })) := by
    rw [← frame]
    unfold State.freeOne
    dsimp only
    cases (s.eng e).owner <;> cases (s.eng e).clip <;> rfl
  rw [own]
  cases (s.eng e).clip with
  | none => exact ⟨_, _, _, _, _, _, rfl, unbinds⟩
  | some c =>
    obtain ⟨clips, freeSlabs, memory, link, released⟩ := State.clipReleased_frame
      ({ ((s.withdrawFetch e).modEng e fun _ => Engine.idle).dropEngineFeeds e with positions := positions, plans := plans }) c
    exact ⟨_, _, _, _, _, _, released, unbinds⟩

/-- What a grant leaves alone. -/
theorem State.grant_frame (s : State) (e : EngId) (w : WaitEntry) : ∃ positions legs plans memory link, s.grant e w = { s with
    positions := positions, legs := legs, plans := plans, memory := memory, link := link, engines := tset s.engines e (s.primed w)
    clips := (s.grantBase e w).clips, arbiter := { s.arbiter with grants := s.arbiter.grants + 1 } } ∧
    ∀ g, w.owner ≠ .shared g → tget plans g = s.plan g := by
  obtain ⟨⟨memory, link, frame⟩, _, _⟩ := ((s.grantBase e w).ownerGranted w.owner e).issueFetch_settled e
  rw [State.grant_eq, frame]
  have plans : ∀ g, w.owner ≠ .shared g → ((s.grantBase e w).ownerGranted w.owner e).plan g = s.plan g := fun g other => by
    unfold State.ownerGranted
    split
    · rfl
    · rfl
    · rename_i h own
      exact State.plan_modPlan_ne _ _ _ _ fun k => other (own.trans (congrArg Owner.shared k))
  obtain ⟨positions, legs, table, owner⟩ := (s.grantBase e w).ownerGranted_frame w.owner e
  rw [owner] at plans ⊢
  exact ⟨_, _, _, _, _, rfl, plans⟩

end Frames

/-! ### Feeds only go (R62) -/

/-- No list of t holds a feed that the same list of s does not hold. -/
def FeedsGo (s t : State) : Prop := (∀ p, tget t.ears p ⊆ tget s.ears p) ∧ ∀ l, tget t.sends l ⊆ tget s.sends l

theorem FeedsGo.of_lists {s t : State} (ears : t.ears = s.ears) (sends : t.sends = s.sends) : FeedsGo s t :=
  ⟨fun p => by rw [ears]; exact List.Subset.refl _, fun l => by rw [sends]; exact List.Subset.refl _⟩

theorem FeedsGo.trans {s t u : State} (h : FeedsGo s t) (k : FeedsGo t u) : FeedsGo s u :=
  ⟨fun p => List.Subset.trans (k.1 p) (h.1 p), fun l => List.Subset.trans (k.2 l) (h.2 l)⟩

theorem FeedsGo.drop (s : State) (e : EngId) : FeedsGo s (s.dropEngineFeeds e) := by
  refine ⟨fun p f mem => ?_, fun l f mem => ?_⟩
  · have mem : f ∈ tget (tmap (fun _ l => l.filter fun f => f.source ≠ .engine e) s.ears) p := mem
    rw [tget_tmap] at mem
    exact List.mem_of_mem_filter mem
  · have mem : f ∈ tget (tmap (fun _ l => l.filter fun f => f.source ≠ .engine e) s.sends) l := mem
    rw [tget_tmap] at mem
    exact List.mem_of_mem_filter mem

theorem FeedsGo.grant (s : State) (e : EngId) (w : WaitEntry) : FeedsGo s (s.grant e w) := by
  obtain ⟨positions, legs, plans, memory, link, frame, _⟩ := s.grant_frame e w
  rw [frame]
  exact .of_lists rfl rfl

theorem FeedsGo.runTask (x : Task) (s : State) : FeedsGo s (Machine.runTask x s).1 := by
  have same : FeedsGo s s := .of_lists rfl rfl
  cases x with
  | release e o =>
    simp only [Machine.runTask]
    split
    · exact same
    · obtain ⟨positions, plans, clips, freeSlabs, memory, link, frame, _⟩ := s.freeOne_frame e
      rw [frame]
      exact (FeedsGo.drop s e).trans (.of_lists rfl rfl)
  | stop e o =>
    simp only [Machine.runTask]
    split
    · exact same
    · split <;> exact .of_lists rfl rfl
    · exact same
    · exact same
  | offer e was =>
    simp only [Machine.runTask]
    split
    · split <;> exact .of_lists rfl rfl
    · exact same
  | heads e =>
    simp only [Machine.runTask]
    split
    · exact same
    · split
      · exact same
      · rename_i w rest _
        have taken : FeedsGo s { s with arbiter := { s.arbiter with queue := rest } } := .of_lists rfl rfl
        split
        · exact taken.trans (.grant _ e w)
        · exact taken
  | request w =>
    simp only [Machine.runTask]
    split <;> exact .of_lists rfl rfl
  | take w =>
    simp only [Machine.runTask]
    split
    · exact .of_lists rfl rfl
    · split
      · split
        · exact .grant _ _ _
        · exact same
      · exact .of_lists rfl rfl
  | tell o out =>
    simp only [Machine.runTask]
    split
    · exact same
    · obtain ⟨legs, link, frame⟩ := s.sessionTold_frame _ out
      rw [frame]
      exact .of_lists rfl rfl
    · dsimp only
      split <;> exact .of_lists rfl rfl
  | whisperEnd p o cause =>
    obtain ⟨positions, legs, link, frame⟩ := runTask_whisperEnd_frame s p o cause
    rw [frame]
    exact .of_lists rfl rfl
  | whisperNext p =>
    simp only [Machine.runTask]
    split
    · exact same
    · split
      · split <;> exact .of_lists rfl rfl
      · exact same
  | legActive l p => exact .of_lists rfl rfl
  | sessionEnd l capture =>
    simp only [Machine.runTask]
    split
    · exact same
    · split
      · exact .of_lists rfl rfl
      · split <;> exact .of_lists rfl rfl
  | planFall h =>
    simp only [Machine.runTask]
    split <;> exact .of_lists rfl rfl
  | report b => exact .of_lists rfl rfl

theorem FeedsGo.run {s t : State} (h : FeedsGo s t) (ts : List Task) : FeedsGo s (t.run ts) :=
  State.run_kept (FeedsGo s) (fun x u k => k.trans (.runTask x u)) ts t h

/-- A CALL_WHISPER's removal takes feeds and gives none. -/
theorem FeedsGo.closeWhisper (s : State) (l : LegId) : FeedsGo s (s.closeWhisper l) := by
  have undone : ∀ (u : State) (p : PosId), FeedsGo u (u.undoHead p) := fun u p => by
    unfold State.undoHead
    split
    · exact .of_lists rfl rfl
    · exact .of_lists rfl rfl
    · split
      · exact FeedsGo.run (.of_lists rfl rfl) _
      · exact FeedsGo.run (.of_lists rfl rfl) _
  have removed : ∀ (u : State) (p : PosId), FeedsGo u (u.headRemoved p) := fun u p => by
    unfold State.headRemoved
    dsimp only
    refine FeedsGo.run ?_ _
    split
    · exact (undone u p).trans (.of_lists rfl rfl)
    · exact undone u p
  unfold State.closeWhisper
  split
  · rename_i p _ _
    unfold State.removeCallWhisper
    split
    · exact .of_lists rfl rfl
    · rename_i w rest _
      have taken : FeedsGo s (s.modWhisper p fun q => { q with entries := rest }) := .of_lists rfl rfl
      split
      · exact taken.trans (removed _ p)
      · exact .of_lists rfl rfl
  · exact .of_lists rfl rfl

/-! ### A plan without users through a chain of happenings (R150) -/

/-- The plan has no user, no engine and nothing pending, and no request of its shared stream stands. -/
structure Unserved (h : PlanId) (r : Option PlanRecord) (s : State) : Prop where
  plan : s.plan h = ⟨r, 0, none, false⟩
  queue : ∀ w ∈ s.arbiter.queue, w.owner ≠ .shared h
  held : ∀ w ∈ s.arbiter.held, w.owner ≠ .shared h

/-- The happening makes or takes no request of the plan's shared stream. -/
def AsksElse (h : PlanId) : Task → Prop
  | .request w | .take w => w.owner ≠ .shared h
  | .release _ _ | .stop _ _ | .offer _ _ | .heads _ | .tell _ _ | .whisperEnd _ _ _ | .whisperNext _ | .legActive _ _ | .sessionEnd _ _
  | .planFall _ | .report _ => True

/-- A property of states and of the happenings to come, kept by each happening, is kept by a chain of them. -/
theorem drive_kept_along (P : State → Prop) (Q : Task → Prop)
    (h : ∀ x s, P s → Q x → P (runTask x s).1 ∧ ∀ y ∈ (runTask x s).2, Q y) (n : Nat) (ts : List Task) (s : State) (start : P s)
    (tasks : ∀ y ∈ ts, Q y) : P (drive n ts s) := by
  induction n generalizing ts s with
  | zero => exact start
  | succ n ih =>
    cases ts with
    | nil => exact start
    | cons x rest =>
      obtain ⟨after, more⟩ := h x s start (tasks x List.mem_cons_self)
      exact ih _ _ after fun y mem => (List.mem_append.1 mem).elim (more y) fun later => tasks y (List.mem_cons_of_mem x later)

namespace Unserved
variable {h : PlanId} {r : Option PlanRecord} {s : State}

/-- Nothing but other records has changed. -/
theorem of_same {t : State} (k : Unserved h r s) (plans : t.plan h = s.plan h) (arbiter : t.arbiter = s.arbiter) : Unserved h r t :=
  ⟨plans.trans k.plan, by rw [arbiter]; exact k.queue, by rw [arbiter]; exact k.held⟩

theorem grant (k : Unserved h r s) (e : EngId) {w : WaitEntry} (other : w.owner ≠ .shared h) : Unserved h r (s.grant e w) := by
  obtain ⟨positions, legs, plans, memory, link, frame, kept⟩ := s.grant_frame e w
  rw [frame]
  exact ⟨(kept h other).trans k.plan, k.queue, k.held⟩

theorem withdraw (k : Unserved h r s) (o : Owner) : Unserved h r (s.withdraw o) :=
  ⟨k.plan, fun w mem => k.queue w (List.mem_of_mem_filter mem), fun w mem => k.held w (List.mem_of_mem_filter mem)⟩

theorem enqueue (k : Unserved h r s) {w : WaitEntry} (other : w.owner ≠ .shared h) :
    Unserved h r { s with arbiter := { s.arbiter with queue := Machine.enqueue w s.arbiter.queue } } :=
  ⟨k.plan, fun x mem => ((mem_enqueue _ _ _).1 mem).elim (fun e => e ▸ other) (k.queue x), k.held⟩

theorem runTask (k : Unserved h r s) (x : Task) (other : AsksElse h x) :
    Unserved h r (Machine.runTask x s).1 ∧ ∀ y ∈ (Machine.runTask x s).2, AsksElse h y := by
  have none_ : ∀ y ∈ ([] : List Task), AsksElse h y := nofun
  have one : ∀ x : Task, AsksElse h x → ∀ y ∈ [x], AsksElse h y := fun x ok y mem => by rw [List.mem_singleton.1 mem]; exact ok
  have skips : ∀ (o : Owner) (tasks : List Task), (∀ y ∈ tasks, AsksElse h y) → ∀ y ∈ Task.tell o .skipped :: tasks, AsksElse h y :=
    fun o tasks later y mem => (List.mem_cons.1 mem).elim (fun own => by rw [own]; trivial) (later y)
  cases x with
  | release e o =>
    simp only [Machine.runTask]
    split
    · exact ⟨k, none_⟩
    · obtain ⟨positions, plans, clips, freeSlabs, memory, link, frame, unbinds⟩ := s.freeOne_frame e
      refine ⟨?_, fun y mem => ?_⟩
      · rw [frame]
        refine ⟨?_, k.queue, k.held⟩
        rcases unbinds h with same | ⟨bound, _⟩
        · exact same.trans k.plan
        · rw [k.plan] at bound
          exact nomatch bound
      · dsimp only at mem
        rcases List.mem_append.1 mem with front | next
        · rcases List.mem_append.1 front with told | offered
          · split at told
            · split at told
              · exact one (.tell _ _) trivial y told
              · exact none_ y told
            · exact none_ y told
          · exact one (.offer _ _) trivial y offered
        · split at next
          · exact one (.whisperNext _) trivial y next
          · exact none_ y next
  | stop e o =>
    simp only [Machine.runTask]
    split
    · exact ⟨k, one (.release _ _) trivial⟩
    · split
      · exact ⟨k.of_same rfl rfl, none_⟩
      · exact ⟨k, none_⟩
    · exact ⟨k, none_⟩
    · exact ⟨k, none_⟩
  | offer e was =>
    simp only [Machine.runTask]
    split
    · split
      · rename_i w found
        refine ⟨⟨k.plan, k.queue, fun x mem => k.held x (List.mem_of_mem_filter mem)⟩, fun y mem => ?_⟩
        rcases List.mem_cons.1 mem with own | later
        · rw [own]
          exact k.held w (List.mem_of_find?_eq_some found)
        · exact one (.heads _) trivial y later
      · exact ⟨k, one (.heads _) trivial⟩
    · exact ⟨k, one (.heads _) trivial⟩
  | heads e =>
    simp only [Machine.runTask]
    split
    · exact ⟨k, none_⟩
    · split
      · exact ⟨k, none_⟩
      · rename_i w rest queue
        have taken : Unserved h r { s with arbiter := { s.arbiter with queue := rest } } :=
          ⟨k.plan, fun x mem => k.queue x (by rw [queue]; exact List.mem_cons_of_mem w mem), k.held⟩
        split
        · exact ⟨taken.grant e (k.queue w (by rw [queue]; exact List.mem_cons_self)), none_⟩
        · refine ⟨taken, fun y mem => ?_⟩
          rcases List.mem_append.1 mem with front | next
          · exact skips _ _ (one (.heads _) trivial) y front
          · split at next
            · exact one (.whisperNext _) trivial y next
            · exact none_ y next
            · exact none_ y next
  | request w =>
    simp only [Machine.runTask]
    split
    · exact ⟨⟨k.plan, k.queue, fun x mem => (List.mem_append.1 mem).elim (k.held x) fun e => by rw [List.mem_singleton.1 e]; exact other⟩, none_⟩
    · exact ⟨k, one (.take w) other⟩
  | take w =>
    simp only [Machine.runTask]
    split
    · exact ⟨k.enqueue other, none_⟩
    · split
      · split
        · exact ⟨k.grant _ other, none_⟩
        · refine ⟨k, skips _ _ ?_⟩
          split
          · exact one (.whisperNext _) trivial
          · exact none_
          · exact none_
      · refine ⟨k.enqueue other, ?_⟩
        split
        · split
          · exact one (.stop _ _) trivial
          · exact none_
        · exact none_
  | tell o out =>
    simp only [Machine.runTask]
    split
    · exact ⟨k, one (.whisperEnd _ _ _) trivial⟩
    · obtain ⟨legs, link, frame⟩ := s.sessionTold_frame _ out
      rw [frame]
      exact ⟨k.of_same rfl rfl, none_⟩
    · refine ⟨?_, none_⟩
      dsimp only
      split
      · rename_i g _
        refine ⟨?_, k.queue, k.held⟩
        by_cases own : g = h
        · subst own
          rw [State.plan_modPlan_same, k.plan]
        · exact (State.plan_modPlan_ne _ _ _ _ own).trans k.plan
      · exact k
  | whisperEnd p o cause =>
    obtain ⟨positions, legs, link, frame⟩ := runTask_whisperEnd_frame s p o cause
    refine ⟨by rw [frame]; exact k.of_same rfl rfl, ?_⟩
    simp only [Machine.runTask]
    split
    · exact none_
    · split
      · exact none_
      · rename_i w rest _ _ l _
        exact fun y mem => (List.mem_cons.1 mem).elim (fun own => by rw [own]; trivial) (one (.report _) trivial y)
  | whisperNext p =>
    simp only [Machine.runTask]
    split
    · exact ⟨k, none_⟩
    · split
      · split
        · exact ⟨k.of_same rfl rfl, one (.request _) nofun⟩
        · exact ⟨k, fun y mem => (List.mem_cons.1 mem).elim (fun own => by rw [own]; trivial) (one (.whisperNext _) trivial y)⟩
      · exact ⟨k, none_⟩
  | legActive l p => exact ⟨k.of_same rfl rfl, one (.sessionEnd _ _) trivial⟩
  | sessionEnd l capture =>
    simp only [Machine.runTask]
    split
    · exact ⟨k, none_⟩
    · rename_i x _
      obtain ⟨plan, phase, countdown, index, request⟩ := x
      have falls : ∀ y ∈ plan.elim [] (fun g => [Task.planFall g]), AsksElse h y := by
        cases plan with
        | none => exact none_
        | some g => exact one (.planFall g) trivial
      cases plan <;> dsimp only
      all_goals
        split
        · exact ⟨k.of_same rfl rfl, falls⟩
        · split
          · refine ⟨?_, falls⟩
            dsimp only
            apply Unserved.withdraw
            exact k.of_same rfl rfl
          · exact ⟨k.of_same rfl rfl, fun y mem => (List.mem_cons.1 mem).elim (fun own => by rw [own]; trivial) (falls y)⟩
  | planFall g =>
    have fallen : (s.modPlan g fun x => { x with useCount := x.useCount - 1 }).plan h = ⟨r, 0, none, false⟩ := by
      by_cases own : g = h
      · subst own
        exact (State.plan_modPlan_same _ _ _).trans (congrArg (fun x : Plan => { x with useCount := x.useCount - 1 }) k.plan)
      · exact (State.plan_modPlan_ne _ _ _ _ own).trans k.plan
    have left : Unserved h r (s.modPlan g fun x => { x with useCount := x.useCount - 1 }) := ⟨fallen, k.queue, k.held⟩
    simp only [Machine.runTask]
    split
    · refine ⟨⟨?_, (left.withdraw _).queue, (left.withdraw _).held⟩, ?_⟩
      · by_cases own : g = h
        · subst own
          rw [State.plan_modPlan_same, (left.withdraw _).plan]
        · exact (State.plan_modPlan_ne _ _ _ _ own).trans (left.withdraw _).plan
      · split
        · exact one (.release _ _) trivial
        · exact none_
    · exact ⟨left, none_⟩
  | report b => exact ⟨k.of_same rfl rfl, none_⟩

end Unserved

end Sys2Proof.Machine
end

section
set_option Elab.async false
/-! ## LEG_CLOSE (R44, R95, R119, R150) -/

namespace Sys2Proof.Machine

/-! ### A leg that is IDLE has no feed (R44) -/

section Idle
variable {s : State} {l : LegId}

theorem State.derivedSend_idle (idle : (s.leg l).state = .idle) : s.derivedSend l = [] := by
  have plan : s.sessionPlan l = none := by
    unfold State.sessionPlan
    rw [idle]
    rfl
  unfold State.derivedSend
  rw [idle, plan]
  rfl

theorem State.activeLeg_idle (idle : (s.leg l).state = .idle) (p : PosId) : s.activeLeg p ≠ some l := by
  unfold State.activeLeg
  split
  · split
    · rename_i active
      intro same
      rw [Option.some.inj same, idle] at active
      exact nomatch active
    · nofun
  · nofun

/-- An IDLE leg's receive samples are no source of a program of the ears. -/
theorem State.derivedEar_idle (idle : (s.leg l).state = .idle) (p : PosId) : ∀ d ∈ s.derivedEar p, d.source ≠ .rx l := by
  have caller : ∀ q m, s.activeLeg q = some m → Source.rx m ≠ .rx l := fun q m active same =>
    State.activeLeg_idle idle q (active.trans (congrArg some (Source.rx.inj same)))
  intro d mem
  unfold State.derivedEar at mem
  dsimp only at mem
  simp only [List.mem_append] at mem
  obtain ((own | coach) | agent) | whisper := mem
  · split at own
    · rename_i active
      rcases List.mem_cons.1 own with h | h
      · rw [h]
        exact caller _ _ active
      · obtain rfl := List.mem_singleton.1 h; nofun
    · exact absurd own List.not_mem_nil
  · split at coach
    · split at coach
      · split at coach
        · obtain rfl := List.mem_singleton.1 coach; nofun
        · exact absurd coach List.not_mem_nil
      · exact absurd coach List.not_mem_nil
    · exact absurd coach List.not_mem_nil
  · split at agent
    · rcases List.mem_append.1 agent with h | h
      · rcases List.mem_cons.1 h with h | h
        · subst h; nofun
        · split at h
          · rename_i active
            rw [List.mem_singleton.1 h]
            exact caller _ _ active
          · exact absurd h List.not_mem_nil
      · obtain rfl := List.mem_singleton.1 h; nofun
    · exact absurd agent List.not_mem_nil
  · obtain ⟨k, _, rfl⟩ := List.mem_map.1 whisper
    nofun

/-- With the feeds of an IDLE leg gone, the end of the event brings none back. -/
theorem State.finish_without_leg {before : State} (idle : (s.leg l).state = .idle) (sends : tget s.sends l = [])
    (ears : ∀ p, ∀ f ∈ tget s.ears p, f.source ≠ .rx l) :
    tget (s.finish before).sends l = [] ∧ ∀ p, ∀ f ∈ tget (s.finish before).ears p, f.source ≠ .rx l := by
  obtain ⟨ear, send⟩ := State.finish_rederived s before
  have idle : ((s.finish before).leg l).state = .idle := by
    rcases s.finish_leg before l with e | e <;> rw [e] <;> exact idle
  refine ⟨?_, fun p => ?_⟩
  · rw [send, sends, State.derivedSend_idle idle]
    rfl
  · rw [ear]
    exact rederive_without (ears p) (State.derivedEar_idle idle p)

end Idle

/-! ### The parts of a close -/

/-- Nothing but the records that a chain of happenings reaches has changed. -/
theorem Outside.frame {s t : State} (h : Outside s t) : t = { s with
    positions := t.positions, legs := t.legs, ears := t.ears, sends := t.sends, plans := t.plans, clips := t.clips
    freeSlabs := t.freeSlabs, memory := t.memory, engines := t.engines, arbiter := t.arbiter, link := t.link } := by
  obtain ⟨pending, highway, sources, before, pool, write, scan, flash, ops⟩ := h
  cases s
  cases t
  dsimp only at pending highway sources before pool write scan flash ops
  subst pending highway sources before pool write scan flash ops
  rfl

section Closing
variable {s : State} {l : LegId}

/-- A close up to its session's end: feeds, whisper, position and session gone. -/
def State.closing (s : State) (l : LegId) : State := (((s.dropLegFeeds l).closeWhisper l).detach l).run [.sessionEnd l false]

/-- A canceller closed and its leg's record made IDLE (R95, R119). -/
theorem State.closeEc_record (s : State) (l : LegId) : (s.closeEc l).modLeg l (fun x => { x with
      state := .idle, attached := none, origin := none, session := none, resume := none, last := none }) = { s with
    pool := ⟨returnNumbers (s.leg l).ec.segments s.pool.free, s.pool.queue.filter fun x => x.leg ≠ l⟩ }.modLeg l
      fun x => ⟨.idle, none, none, none, none, none, x.ec.close⟩ := by
  have closed : s.closeEc l = ({ s with
      pool := ⟨returnNumbers (s.leg l).ec.segments s.pool.free, s.pool.queue.filter fun x => x.leg ≠ l⟩ }.modEc l
        fun c => { c with segments := c.segments.take 0, taps := c.taps.take (Config.segmentTaps * 0) }).modEc l Canceller.close := rfl
  rw [closed, State.modEc_modEc]
  exact State.modLeg_modLeg _ _ _ _

/-- The rest of a close: the canceller's segments back in the pool, and the record IDLE. -/
theorem State.closeLeg_eq (s : State) (l : LegId) : s.closeLeg l = { s.closing l with
    pool := ⟨returnNumbers ((s.closing l).leg l).ec.segments (s.closing l).pool.free, (s.closing l).pool.queue.filter fun x => x.leg ≠ l⟩ }.modLeg l
      fun x => ⟨.idle, none, none, none, none, none, x.ec.close⟩ := (s.closing l).closeEc_record l

theorem State.closing_outside (s : State) (l : LegId) : Outside s (s.closing l) := by
  have dropped : Outside s (s.dropLegFeeds l) := by constructor <;> simp
  have whispered : Outside s ((s.dropLegFeeds l).closeWhisper l) := by
    unfold State.closeWhisper
    split
    · exact dropped.removeCallWhisper _ _
    · exact dropped
  exact (whispered.detach l).run _

theorem State.closing_feeds (s : State) (l : LegId) : FeedsGo (s.dropLegFeeds l) (s.closing l) := by
  have detached : FeedsGo ((s.dropLegFeeds l).closeWhisper l) (((s.dropLegFeeds l).closeWhisper l).detach l) := by
    unfold State.detach
    split
    · exact .of_lists rfl rfl
    · exact .of_lists rfl rfl
  exact ((FeedsGo.closeWhisper _ l).trans detached).run _

/-- The leg's position is free once its session has ended. -/
theorem State.closing_pos (law : AttachLaw s) {p : PosId} (on : (s.leg l).attached = some p) : ((s.closing l).pos p).leg = none := by
  have dropped : CallsKept .none .none s (s.dropLegFeeds l) := (CallsKept.refl .none s).others
  have lawful := dropped.attach ((attachLaw_iff s).1 law)
  obtain ⟨freed, _, none_⟩ := CallsKept.closeFreed lawful l
  have ended := (Walk.refl (((s.dropLegFeeds l).closeWhisper l).detach l)).runOne (.all _) (x := .sessionEnd l false)
  exact (ended.pos_leg (freed.attach lawful) p).trans (none_ p on)

end Closing

/-! ### The plan of a closed leg's session (R150) -/

section Fall
variable {s : State} {l : LegId} {x : Session} {h : PlanId} {e : EngId}

/-- A session without a request ends, and its plan loses a user. -/
theorem runTask_sessionEnd_plan (session : (s.leg l).session = some x) (plan : x.plan = some h) (none_ : x.request = none) :
    runTask (.sessionEnd l false) s = (s.modLeg l fun y => { y with session := none }, [.planFall h]) := by
  unfold runTask
  dsimp only
  rw [session]
  dsimp only
  rw [none_, plan]

theorem runTask_planFall_more (more : 1 < (s.plan h).useCount) :
    runTask (.planFall h) s = (s.modPlan h fun x => { x with useCount := x.useCount - 1 }, []) := by
  unfold runTask
  dsimp only
  rw [State.plan_modPlan_same, if_neg (by dsimp only; omega)]

/-- The plan without its last user: unbound, nothing pending, its shared stream's request withdrawn. -/
def State.unused (s : State) (h : PlanId) : State := (s.withdraw (.shared h)).modPlan h fun x => ⟨x.record, 0, none, false⟩

theorem runTask_planFall_last (last : (s.plan h).useCount = 1) :
    runTask (.planFall h) s = (s.unused h, (s.plan h).bound.elim [] fun e => [.release e none]) := by
  have fallen : (((s.modPlan h fun x => { x with useCount := x.useCount - 1 }).withdraw (.shared h)).modPlan h fun x =>
      { x with pending := false, bound := none }) = s.unused h := by
    unfold State.unused State.modPlan State.withdraw State.plan
    dsimp only
    rw [tset_tset, tget_tset_same]
    have last : (tget s.plans h).useCount = 1 := last
    rw [last]
  unfold runTask
  dsimp only
  rw [State.plan_modPlan_same, if_pos (by dsimp only; omega), fallen]
  cases (s.plan h).bound <;> rfl

theorem State.unused_unserved (s : State) (h : PlanId) : Unserved h (s.plan h).record (s.unused h) where
  plan := State.plan_modPlan_same _ _ _
  queue := fun w mem => by simpa using (List.mem_filter.1 mem).2
  held := fun w mem => by simpa using (List.mem_filter.1 mem).2

theorem runTask_release_silent (busy : (s.eng e).state ≠ .free) : runTask (.release e none) s = (s.freeOne e, [.offer e (s.eng e).owner]) := by
  unfold runTask
  dsimp only
  rw [if_neg busy]
  rfl

/-- An engine released where nobody waits is FREE, and no other engine changes. -/
theorem drive_release_unwanted (queue : s.arbiter.queue = []) (held : s.arbiter.held = []) (k : Nat) :
    ((drive (3 + k) [.release e none] s).eng e).state = .free ∧ ∀ d, d ≠ e → (drive (3 + k) [.release e none] s).eng d = s.eng d := by
  by_cases free : (s.eng e).state = .free
  · have stays : drive (3 + k) [.release e none] s = s := by
      rw [show 3 + k = 1 + (2 + k) by omega]
      exact (Chain.last (x := .release e none) (s := s) (t := s) (if_pos free)).drive _
    rw [stays]
    exact ⟨free, fun _ _ => rfl⟩
  · obtain ⟨positions, plans, clips, freeSlabs, memory, link, frame, _⟩ := s.freeOne_frame e
    have arbiter : (s.freeOne e).arbiter = s.arbiter := by rw [frame]
    have engines : (s.freeOne e).engines = tset s.engines e Engine.idle := by rw [frame]
    have goes : drive (3 + k) [.release e none] s = s.freeOne e :=
      (Chain.step (runTask_release_silent free) (.step (runTask_offer_none (by rw [arbiter]; exact held) _)
        (.last (runTask_heads_none (by rw [arbiter]; exact queue))))).drive k
    rw [goes]
    unfold State.eng
    rw [engines]
    exact ⟨by rw [tget_tset_same]; rfl, fun d other => tget_tset_ne _ _ _ _ (Ne.symm other)⟩

/-- A HELD leg's close up to its session's end is its session's end alone. -/
theorem State.closing_held (state : (s.leg l).state = .held) : ∃ u : State, s.closing l = u.run [.sessionEnd l false] ∧
    (u.leg l).session = (s.leg l).session ∧ u.plans = s.plans ∧ u.engines = s.engines ∧ u.arbiter = s.arbiter := by
  have whisper : (s.dropLegFeeds l).closeWhisper l = s.dropLegFeeds l := by
    unfold State.closeWhisper
    split
    · rename_i connecting _
      exact nomatch state.symm.trans connecting
    · rfl
  refine ⟨(s.dropLegFeeds l).detach l, congrArg (fun u => (State.detach u l).run [.sessionEnd l false]) whisper, ?_, ?_⟩
  · rw [State.detach_leg, if_pos rfl]
    rfl
  · unfold State.detach
    split <;> exact ⟨rfl, rfl, rfl⟩

variable (state : (s.leg l).state = .held) (session : (s.leg l).session = some x) (plan : x.plan = some h) (none_ : x.request = none)
include state session plan none_

/-- A plan with other users has one user fewer. -/
theorem State.closing_more (more : 1 < (s.plan h).useCount) :
    (s.closing l).plan h = { s.plan h with useCount := (s.plan h).useCount - 1 } ∧ (s.closing l).engines = s.engines := by
  obtain ⟨u, closes, session', plans, engines, _⟩ := State.closing_held state
  have same : u.plan h = s.plan h := congrArg (tget · h) plans
  have goes : u.run [.sessionEnd l false] = _ := (Chain.step (runTask_sessionEnd_plan (session'.trans session) plan none_)
    (.last (runTask_planFall_more (s := u.modLeg l fun y => { y with session := none }) (by rw [← same] at more; exact more)))).run
  rw [closes, goes]
  refine ⟨(State.plan_modPlan_same _ _ _).trans ?_, engines⟩
  show { u.plan h with useCount := (u.plan h).useCount - 1 } = _
  rw [same]

/-- A plan without another user is left unbound, with nothing pending, and its engine FREE. -/
theorem State.closing_last (last : (s.plan h).useCount = 1) : (s.closing l).plan h = ⟨(s.plan h).record, 0, none, false⟩ ∧
    ∀ e, (s.plan h).bound = some e → s.arbiter.queue = [] → s.arbiter.held = [] →
      ((s.closing l).eng e).state = .free ∧ ∀ d, d ≠ e → (s.closing l).eng d = s.eng d := by
  obtain ⟨u, closes, session', plans, engines, arbiter⟩ := State.closing_held state
  have same : (u.modLeg l fun y => { y with session := none }).plan h = s.plan h := congrArg (tget · h) plans
  have goes : u.run [.sessionEnd l false] = drive 4094 ((s.plan h).bound.elim [] fun e => [.release e none])
      ((u.modLeg l fun y => { y with session := none }).unused h) := by
    show drive 4095 ((runTask (.sessionEnd l false) u).2 ++ []) (runTask (.sessionEnd l false) u).1 = _
    rw [runTask_sessionEnd_plan (session'.trans session) plan none_]
    show drive 4094 ((runTask (.planFall h) (u.modLeg l fun y => { y with session := none })).2 ++ [])
      (runTask (.planFall h) (u.modLeg l fun y => { y with session := none })).1 = _
    rw [runTask_planFall_last (by rw [same]; exact last), same, List.append_nil]
  have arbiter : (u.modLeg l fun y => { y with session := none }).arbiter = s.arbiter := arbiter
  have engines : (u.modLeg l fun y => { y with session := none }).engines = s.engines := engines
  rw [closes, goes]
  generalize (u.modLeg l fun y => { y with session := none }) = v at same arbiter engines ⊢
  refine ⟨?_, fun e bound queue held => ?_⟩
  · have asks : ∀ y ∈ (s.plan h).bound.elim [] (fun e => [Task.release e none]), AsksElse h y := by
      cases (s.plan h).bound with
      | none => exact nofun
      | some e => exact fun y mem => by rw [List.mem_singleton.1 mem]; trivial
    have unserved := drive_kept_along (Unserved h (v.plan h).record) (AsksElse h) (fun y w k other => k.runTask y other) 4094 _ _
      (v.unused_unserved h) asks
    rw [← same] at unserved ⊢
    exact unserved.plan
  · rw [bound]
    have queue : (v.unused h).arbiter.queue = [] := by
      show v.arbiter.queue.filter _ = []
      rw [arbiter, queue]
      rfl
    have held : (v.unused h).arbiter.held = [] := by
      show v.arbiter.held.filter _ = []
      rw [arbiter, held]
      rfl
    have still : ∀ d, (v.unused h).eng d = s.eng d := fun d => congrArg (tget · d) engines
    obtain ⟨free, others⟩ := drive_release_unwanted (e := e) queue held 4091
    exact ⟨free, fun d other => (others d other).trans (still d)⟩

end Fall

/-! ### The pass after a close (R94) -/

/-- The pass leaves a leg alone that has no entry in the queue. -/
theorem topUp_absent {l : LegId} (queue : List Shortfall) (s : State) (absent : ∀ x ∈ queue, x.leg ≠ l) :
    (topUp s queue).leg l = s.leg l ∧ ∀ x ∈ (topUp s queue).pool.queue, x.leg ≠ l := by
  induction queue generalizing s with
  | nil => exact ⟨rfl, nofun⟩
  | cons x rest ih =>
    have other := absent x List.mem_cons_self
    have later : ∀ y ∈ rest, y.leg ≠ l := fun y mem => absent y (List.mem_cons_of_mem x mem)
    have served : ∀ n, (s.grantSegments x.leg n).leg l = s.leg l := fun n => by
      rw [State.grantSegments_eq, State.leg_modEc_ne _ _ _ _ other]
      rfl
    obtain e | ⟨_, e⟩ | ⟨_, e⟩ := topUp_cons_cases s x rest <;> rw [e]
    · exact ⟨rfl, absent⟩
    · obtain ⟨leg, queue⟩ := ih _ later
      exact ⟨leg.trans (served _), queue⟩
    · exact ⟨served _, fun y mem => (List.mem_cons.1 mem).elim (fun own => by rw [own]; exact other) (later y)⟩

/-- A canceller is read alike whatever its settle count. -/
theorem Canceller.fields_of_unsettled {c d : Canceller} (h : c.unsettled = d.unsettled) :
    (c.state = d.state ∧ c.segments = d.segments ∧ c.taps = d.taps ∧ c.mode = d.mode ∧ c.fixedDelay = d.fixedDelay ∧ c.bulkDelay = d.bulkDelay) ∧
    c.history = d.history ∧ c.gap = d.gap ∧ c.nlpAttenuation = d.nlpAttenuation ∧ c.nlpGain = d.nlpGain := by
  simp only [Canceller.unsettled, Canceller.mk.injEq] at h
  obtain ⟨state, segments, taps, mode, fixed, bulk, attenuation, gain, _, _, _, gap, _, _, _, _, _, history, _⟩ := h
  exact ⟨⟨state, segments, taps, mode, fixed, bulk⟩, history, gap, attenuation, gain⟩

/-- What a pass leaves does not rest on the settle counts. -/
theorem ToppedUp.of_unsettled {s s' t t' : State} {free : List Nat} {x : Shortfall} {rest : List Shortfall} {n : Nat}
    (h : ToppedUp s t free x rest n) (before : (s.leg x.leg).ec.unsettled = (s'.leg x.leg).ec.unsettled)
    (after : (t'.leg x.leg).ec.unsettled = (t.leg x.leg).ec.unsettled) (pool : t'.pool = t.pool) : ToppedUp s' t' free x rest n := by
  obtain ⟨grant, segments, taps, left, started, kept⟩ := h
  obtain ⟨⟨state, segments_, taps_, mode, fixed, bulk⟩, _⟩ := Canceller.fields_of_unsettled before
  obtain ⟨⟨state', segments', taps', _, _, bulk'⟩, _⟩ := Canceller.fields_of_unsettled after
  rw [segments_] at grant segments started kept
  rw [taps_] at taps
  rw [mode, fixed, ← state', ← bulk'] at started
  rw [state, bulk, ← state', ← bulk'] at kept
  exact ⟨grant, segments'.trans segments, taps'.trans taps, pool.trans left, started, kept⟩

/-! ### The close whole -/

section Whole
variable {s : State} {l : LegId}

theorem State.closeLeg_leg (s : State) (l : LegId) : (s.closeLeg l).leg l = ⟨.idle, none, none, none, none, none, ((s.closing l).leg l).ec.close⟩ := by
  rw [State.closeLeg_eq]
  generalize s.closing l = x
  exact State.leg_modLeg_same _ _ _

theorem State.closeLeg_leg_ne {m : LegId} (other : m ≠ l) : ((s.closeLeg l).leg m).ec.unsettled = (s.leg m).ec.unsettled := by
  have kept := (s.closing_outside l).ec m
  rw [State.closeLeg_eq, State.leg_modLeg_ne _ _ _ _ (Ne.symm other)]
  generalize s.closing l = x at kept
  exact kept

/-- The segments of a closed leg are free, and its shortfall entry is gone. -/
theorem State.closeLeg_pool (s : State) (l : LegId) :
    (s.closeLeg l).pool = ⟨returnNumbers (s.leg l).ec.segments s.pool.free, s.pool.queue.filter fun x => x.leg ≠ l⟩ := by
  obtain ⟨⟨_, segments, _⟩, _⟩ := Canceller.fields_of_unsettled ((s.closing_outside l).ec l)
  rw [← segments, ← (s.closing_outside l).pool, State.closeLeg_eq]
  generalize s.closing l = x
  rfl

theorem State.topUpPass_frame (s : State) : ∃ legs pool link, s.topUpPass = { s with legs := legs, pool := pool, link := link } :=
  ⟨_, _, _, (PoolStep.topUp s.pool.queue s).frame⟩

/-- The end of an event and the pass before it reach legs, pool, feeds and link alone. -/
theorem State.topUpPass_finish_frame (s before : State) : ∃ legs pool ears sends link, s.topUpPass.finish before = { s with
    legs := legs, pool := pool, ears := ears, sends := sends, link := link } := by
  obtain ⟨legs, pool, link, pass⟩ := s.topUpPass_frame
  rw [State.finish_frame, pass]
  exact ⟨_, _, _, _, _, rfl⟩

/-- What a close with its pass and the end of its event leaves alone. -/
theorem State.closed_frame (s : State) (l : LegId) : ∃ positions legs pool ears sends plans clips freeSlabs memory engines arbiter link,
    (s.closeLeg l).topUpPass.finish s = { s with
      positions := positions, legs := legs, pool := pool, ears := ears, sends := sends, plans := plans, clips := clips
      freeSlabs := freeSlabs, memory := memory, engines := engines, arbiter := arbiter, link := link } := by
  obtain ⟨legs, pool, ears, sends, link, frame⟩ := (s.closeLeg l).topUpPass_finish_frame s
  have closing := (s.closing_outside l).frame
  rw [frame, State.closeLeg_eq]
  generalize s.closing l = x at closing ⊢
  rw [closing]
  exact ⟨_, _, _, _, _, _, _, _, _, _, _, _, rfl⟩

/-- A close reaches positions, plans and engines up to its session's end alone. -/
theorem State.closed_records (s : State) (l : LegId) : ((s.closeLeg l).topUpPass.finish s).positions = (s.closing l).positions ∧
    ((s.closeLeg l).topUpPass.finish s).plans = (s.closing l).plans ∧ ((s.closeLeg l).topUpPass.finish s).engines = (s.closing l).engines := by
  obtain ⟨legs, pool, ears, sends, link, frame⟩ := (s.closeLeg l).topUpPass_finish_frame s
  rw [frame, State.closeLeg_eq]
  generalize s.closing l = x
  exact ⟨rfl, rfl, rfl⟩

theorem State.closeLeg_absent (s : State) (l : LegId) : ∀ x ∈ (s.closeLeg l).pool.queue, x.leg ≠ l := fun x mem => by
  rw [State.closeLeg_pool] at mem
  simpa using (List.mem_filter.1 mem).2

/-- The pool after the close: no entry of the leg; with no entry at all, the free set so grown. -/
theorem State.closed_pool (s : State) (l : LegId) : (∀ x ∈ ((s.closeLeg l).topUpPass.finish s).pool.queue, x.leg ≠ l) ∧
    (s.pool.queue = [] → ((s.closeLeg l).topUpPass.finish s).pool = ⟨returnNumbers (s.leg l).ec.segments s.pool.free, []⟩) := by
  rw [State.finish_pool]
  refine ⟨(topUp_absent _ _ (s.closeLeg_absent l)).2, fun none_ => ?_⟩
  have pool := s.closeLeg_pool l
  rw [none_] at pool
  generalize s.closeLeg l = z at pool ⊢
  unfold State.topUpPass
  rw [pool]
  show ({ z.pool with queue := [] } : TapPool) = _
  rw [pool]

/-- The closed leg itself: IDLE, its canceller closed but for its settle count, its history, gap and gains as they were. -/
theorem State.closed_leg (s : State) (l : LegId) : ∃ c : Canceller,
    ((s.closeLeg l).topUpPass.finish s).leg l = ⟨.idle, none, none, none, none, none, c⟩ ∧
    c.state = .off .idle ∧ c.segments = [] ∧ c.taps = [] ∧ c.stats = none ∧ c.history = (s.leg l).ec.history ∧ c.gap = (s.leg l).ec.gap ∧
    c.nlpAttenuation = (s.leg l).ec.nlpAttenuation ∧ c.nlpGain = (s.leg l).ec.nlpGain := by
  have passed : (s.closeLeg l).topUpPass.leg l = (s.closeLeg l).leg l := (topUp_absent _ _ (s.closeLeg_absent l)).1
  rw [State.closeLeg_leg] at passed
  obtain ⟨_, history, gap, attenuation, gain⟩ := Canceller.fields_of_unsettled ((s.closing_outside l).ec l)
  generalize ((s.closing l).leg l).ec = c at passed history gap attenuation gain
  rcases (s.closeLeg l).topUpPass.finish_leg s l with e | e <;> rw [e, passed]
  · exact ⟨_, rfl, rfl, rfl, rfl, rfl, history, gap, attenuation, gain⟩
  · exact ⟨_, rfl, rfl, rfl, rfl, rfl, history, gap, attenuation, gain⟩

/-- No feed reads the closed leg, and its own program has none. -/
theorem State.closed_feeds (s : State) (l : LegId) : tget ((s.closeLeg l).topUpPass.finish s).sends l = [] ∧
    ∀ p, ∀ f ∈ tget ((s.closeLeg l).topUpPass.finish s).ears p, f.source ≠ .rx l := by
  obtain ⟨ears, sends⟩ := s.closing_feeds l
  obtain ⟨legs, pool, link, pass⟩ := (s.closeLeg l).topUpPass_frame
  have lists : (s.closeLeg l).topUpPass.ears = (s.closing l).ears ∧ (s.closeLeg l).topUpPass.sends = (s.closing l).sends := by
    rw [pass, State.closeLeg_eq]
    generalize s.closing l = x
    exact ⟨rfl, rfl⟩
  have idle : ((s.closeLeg l).topUpPass.leg l).state = .idle := by
    obtain ⟨c, leg, _⟩ := s.closed_leg l
    rcases (s.closeLeg l).topUpPass.finish_leg s l with e | e <;> rw [leg] at e
    · rw [← e]
    · exact (congrArg Leg.state e).symm
  refine State.finish_without_leg idle ?_ fun p f mem => ?_
  · rw [lists.2]
    have none_ : tget (s.dropLegFeeds l).sends l = [] := tget_tset_same _ _ _
    exact List.subset_nil.1 (none_ ▸ sends l)
  · rw [lists.1] at mem
    have mem : f ∈ tget (tmap (fun _ fs => fs.filter fun f => f.source ≠ .rx l) s.ears) p := ears p mem
    rw [tget_tmap] at mem
    simpa using (List.mem_filter.1 mem).2

/-- The pass after a close serves the oldest entry from the free set so grown (R94, R95). -/
theorem State.closed_toppedUp {x : Shortfall} {rest : List Shortfall} {n : Nat} (queue : s.pool.queue.filter (fun y => y.leg ≠ l) = x :: rest)
    (owed : 1 ≤ x.owed)
    (grant : n = topUpGrant (s.leg x.leg).ec.segments.length x.owed (returnNumbers (s.leg l).ec.segments s.pool.free).length)
    (ends : rest = [] ∨ n < x.owed) :
    ToppedUp s ((s.closeLeg l).topUpPass.finish s) (returnNumbers (s.leg l).ec.segments s.pool.free) x rest n := by
  have other : x.leg ≠ l := by
    have mem : x ∈ s.pool.queue.filter fun y => y.leg ≠ l := by rw [queue]; exact List.mem_cons_self
    simpa using (List.mem_filter.1 mem).2
  have before := State.closeLeg_leg_ne (s := s) other
  obtain ⟨⟨_, segments, _⟩, _⟩ := Canceller.fields_of_unsettled before
  have pool := s.closeLeg_pool l
  rw [queue] at pool
  generalize s.closeLeg l = z at before segments pool ⊢
  have pass : z.topUpPass = topUp z (x :: rest) := by
    unfold State.topUpPass
    rw [pool]
  obtain ⟨topped, _⟩ := topUp_toppedUp (s := z) (x := x) (rest := rest) (n := n) (by rw [segments, pool]; exact grant) owed ends
  rw [← pass, pool] at topped
  generalize z.topUpPass = t at topped ⊢
  refine topped.of_unsettled before ?_ rfl
  rcases t.finish_leg s x.leg with e | e <;> rw [e]
  rfl

end Whole

/-- Settles O22: the close up to its session's end (`State.closing`), the canceller's segments back in the pool, and the pass. -/
theorem legClose : Obligations.LegClose := by
  intro s l tag ready
  refine ⟨fun idle => ?_, fun busy law => ?_⟩
  · rw [exec_legClose_ready ready]
    unfold ownLegClose
    rw [withLeg_val, if_pos idle]
    rfl
  · have goes : exec (.legClose tag (.fields l.val)) s = .next (((s.closeLeg l).topUpPass.finish s).ok 0x14 tag) := by
      rw [exec_legClose_ready ready]
      unfold ownLegClose
      rw [withLeg_val, if_neg busy]
      rfl
    obtain ⟨_, _, called, _⟩ := (attachLaw_iff _).2 ((((CallsKept.refl .none s).closeLeg l).topUpPass.finish s).attach ((attachLaw_iff s).1 law))
    have replies := (((Keeps.refl s).closeLeg l).topUpPass.finish s).replies
    have freed : ∀ p, (s.leg l).attached = some p → ((s.closing l).pos p).leg = none := fun p on => State.closing_pos law on
    obtain ⟨c, leg, column⟩ := s.closed_leg l
    obtain ⟨positions, plans, engines⟩ := s.closed_records l
    obtain ⟨sends, ears⟩ := s.closed_feeds l
    have toppedUp := fun x rest n => State.closed_toppedUp (s := s) (l := l) (x := x) (rest := rest) (n := n)
    obtain ⟨absent, empty⟩ := s.closed_pool l
    obtain ⟨positions', legs', pool', ears', sends', plans', clips', freeSlabs', memory', engines', arbiter', link', frame⟩ := s.closed_frame l
    have more := fun x h => State.closing_more (s := s) (l := l) (x := x) (h := h)
    have last := fun x h => State.closing_last (s := s) (l := l) (x := x) (h := h)
    rw [goes]
    refine ⟨_, rfl, ?_⟩
    generalize (s.closeLeg l).topUpPass.finish s = t at *
    generalize s.closing l = u at *
    have same : (t.ok 0x14 tag).leg l = t.leg l := rfl
    have pos : ∀ p, (t.ok 0x14 tag).pos p = u.pos p := fun p => congrArg (tget · p) positions
    have plan : ∀ h, (t.ok 0x14 tag).plan h = u.plan h := fun h => congrArg (tget · h) plans
    have eng : ∀ e, (t.ok 0x14 tag).eng e = u.eng e := fun e => congrArg (tget · e) engines
    have replied : (t.ok 0x14 tag).link.replies = t.link.replies ++ [⟨0x14, tag, .ok, .none⟩] := Link.placeReply_replies _ _
    have uncalled : ∀ p, ∀ w ∈ ((t.ok 0x14 tag).pos p).whisper.entries, w.isCallOf l = false := fun p w mem => by
      refine Bool.eq_false_iff.2 fun is => ?_
      have connecting := (called p w l mem is).1
      rw [leg] at connecting
      exact nomatch connecting
    rw [same, leg, replied, replies]
    obtain ⟨state, segments, taps, stats, history, gap, attenuation, gain⟩ := column
    refine ⟨rfl, rfl, rfl, rfl, rfl, rfl, fun p on => ?_, uncalled, state, segments, taps, stats, history, gap, attenuation, gain, absent, sends, ears,
      empty, fun x rest n queue owed grant ends => (toppedUp x rest n queue owed grant ends).of_unsettled rfl rfl rfl,
      fun x h held session named none_ => ⟨fun users => ?_, fun users => ?_⟩, rfl, ?_⟩
    · rw [pos]
      exact freed p on
    · obtain ⟨fewer, still⟩ := more x h held session named none_ users
      rw [plan]
      exact ⟨fewer, engines.trans still⟩
    · obtain ⟨unused, free⟩ := last x h held session named none_ users
      rw [plan]
      simp only [eng]
      exact ⟨unused, free⟩
    · rw [frame]
      rfl

end Sys2Proof.Machine
end
